-- ==== Sys2Proof/Word.lean ====
section
/-!
DEFINITION. Machine words and the plainest operations on them: sign and zero extension, bit tests, the reading of a
list of bytes as a little-endian number and back (R309, R281).
-/

namespace Sys2Proof

/-- One byte of storage. -/
abbrev Byte := BitVec 8
/-- A scalar register, a message word, an address operand. -/
abbrev Word := BitVec 64
/-- A vector register. -/
abbrev VWord := BitVec 128

end Sys2Proof
end

