-- ==== Sys2Proof/Types.lean ====
section
/-!
DEFINITION. The small data types that instructions, events and the state share: register numbers, scopes, element
types, messages, packets, launch records and the parties named in events (chapters 2, 3, 5, 10).
-/

namespace Sys2Proof

/-- Sparse data by number, keys rising. -/
abbrev FMap (α : Type) := List (Nat × α)
/-- A set of numbers, rising. -/
abbrev NSet := List Nat

abbrev XReg := Fin 32
abbrev VReg := Fin 16
abbrev MReg := Fin 4
/-- The predicate of a V-form instruction (R305): `some m` when ME is set. -/
abbrev Pred := Option MReg
/-- The class field of SEND, ACTIVATE and SPAWN (R307): `none` is the context's own class. -/
abbrev ClsSel := Option (Fin 4)

/-- Scopes of releases and acquires (R243, R304). -/
inductive Scope where
  | clu | dev | sys
  deriving DecidableEq, Repr, Inhabited

/-- Floating-point formats of OPF by MOD number (R303). -/
inductive FFmt where
  | f16 | bf16 | f32 | f64 | e4m3 | e5m2
  deriving DecidableEq, Repr, Inhabited

/-- Vector element types by ET number (R305). -/
inductive ETy where
  | i8 | i16 | i32 | i64 | ui8 | ui16 | ui32 | ui64 | f16 | bf16 | f32 | f64 | e4m3 | e5m2
  deriving DecidableEq, Repr, Inhabited

/-- Operations of local and remote AMOs (R336, R66). -/
inductive AmoOp where
  | add | and | or | xor | swap | min | max | minu | maxu | cas
  deriving DecidableEq, Repr, Inhabited

/-- A 32-byte message (R163). -/
structure Msg where
  w0 : Word
  w1 : Word
  w2 : Word
  w3 : Word
  /-- Device the message came from; the mailbox entry keeps it for MSGDEV (R163). -/
  dev : Nat
  deriving DecidableEq, Repr, Inhabited

/-- Who holds or asks for a bellows grant (R26): a swarm context by its place, an anvil context (anvil number and
0 A, 1 B), or a TE command (cluster and command number). -/
inductive Holder where
  | ctx (cxa : Nat)
  | anvil (av : Nat) (c : Nat)
  | te (cluster : Nat) (cmd : Nat)
  deriving DecidableEq, Repr, Inhabited

/-- The forms of a launch record (R113, R375). -/
inductive LForm where
  | named | group | spawn
  deriving DecidableEq, Repr, Inhabited

/-- Where a launch record came from: the host, or a context (its 28-bit name and the place it issues from). -/
inductive LSrc where
  | host
  | ctx (name : Nat) (cxa : Nat)
  deriving DecidableEq, Repr, Inhabited

/-- A launch record, an ACTIVATE or a SPAWN packet on its way to a context (R113, R130, R159). -/
structure LRec where
  form : LForm
  cls : Nat
  asid : Nat
  pc : Nat
  a0 : Word
  a1 : Word
  /-- DEADLINE, present when DLV (or NXTDL) attached one (R128). -/
  deadline : Option Nat
  dltrap : Bool
  gmatch : Bool
  /-- NAMED: context name. GROUP: group id. SPAWN: physical key of the address (R139). -/
  target : Nat
  tag : Word
  /-- HTS of the receiver (R117), or the carried release timestamp (R231). -/
  ts : Nat
  /-- TSV and TS of a SPAWN that is returned (R245). -/
  tsv : Bool
  src : LSrc
  /-- HEADER and TARGET as the host wrote them, for a discard record (R124). -/
  hdr : Word
  tgtWord : Word
  /-- Starts of lower-numbered classes that passed this record over (R133). -/
  passed : Nat
  /-- GTC at which the record was accepted; order in its queue. -/
  seq : Nat
  /-- Clusters a SPAWN has already tried (R139). In a launch queue: 0 waiting, 1 forwarded, 2 a victim is being saved. -/
  hops : Nat
  /-- Mesh cycle in which it reached its queue (R157). -/
  at_ : Nat := 0
  /-- Cluster from which it was last sent (R145). -/
  via : Nat := 0
  deriving DecidableEq, Repr, Inhabited

/-- A value of a membership list: device id and incarnation (R73). -/
structure Member where
  dev : Nat
  inc : Nat
  deriving DecidableEq, Repr, Inhabited

/-- What every CE packet carries besides its body (R76, R95). -/
structure CeHdr where
  vid : Nat
  src : Nat
  inc : Nat
  deriving DecidableEq, Repr, Inhabited

/-- What a CE_DATA packet brings: a partial sum, a completed chunk or result (R87), and what the manual leaves to the CEs to
tell each other (log 9): that descriptors differ (R85), which range of a chunk the sender retains (R90), that it reruns the
operation (R89). -/
inductive CeKind where
  | part | done | mismatch | claim | again
  deriving DecidableEq, Repr, Inhabited

/-- The data of a collective (R87). Elements are held as the 64-bit patterns that travel. -/
structure CeData where
  kind : CeKind
  tag : Nat
  op : Nat
  redop : Nat
  ety : Nat
  count : Nat
  /-- View in which the operation started; it names the operation among those of a TAG. -/
  vid0 : Nat
  chunk : Nat
  /-- The 32-bit contributor range: KIND in bit 31, COUNT in bits 20:10, FIRST in bits 9:0 (R87). -/
  range : Nat
  /-- A packet carries at most 224 bytes (R51): the first element of this packet's piece, and the elements of the whole. -/
  at_ : Nat
  whole : Nat
  elems : List Word
  deriving DecidableEq, Repr, Inhabited

/-- A report of suspicion (R78): the suspected ranks, the GTC of the report. -/
structure Suspicion where
  ranks : List Nat
  gtc : Nat
  deriving DecidableEq, Repr, Inhabited

/-- Bodies of CE_CTL and CE_DATA packets (R75 to R94). The manual gives their contents, not their bits. -/
inductive CeBody where
  | hello (digest : Word)
  | heartbeat (rank : Nat) (gtc : Nat)
  | suspect (report : Suspicion)
  | propose (round : Nat) (newVid : Nat) (list : List Member)
  | ack (round : Nat) (inc : Nat)
  | busy (cand : Nat)
  | abandon
  | commit (newVid : Nat) (members : List Member)
  | exclude (newVid : Nat)
  | stall (round : Nat)
  | fetch
  | joinReq (joiner : Nat) (inc : Nat)
  | joinNak
  | wait (round : Nat)
  | data (d : CeData)
  deriving DecidableEq, Repr, Inhabited

/-- A Umjan packet (R51). `resv` says that a reserved header field is non-zero or that its data runs past the flit. -/
structure Packet where
  kind : Nat
  cls : Nat
  hops : Nat
  dest : Nat
  source : Nat
  tag : Nat
  addr : Word
  data : List Byte
  resv : Bool
  /-- The body of a CE_CTL or CE_DATA packet and its header. -/
  ce : Option (CeHdr × CeBody)
  deriving DecidableEq, Repr, Inhabited

/-- The value of a memory key (R45): the random key made at the n-th reset, or the pair a KEYLD loaded. -/
inductive KeyVal where
  | boot (n : Nat)
  | loaded (data tweak : BitVec 256)
  deriving DecidableEq, Repr, Inhabited

/-- The operand fields that MMA and MMAH share (R416). -/
structure MmaOps where
  acc : Fin 4
  a : Fin 4
  b : Fin 4
  zs : Bool
  kt : Fin 16
  ba : Fin 4
  bb : Fin 4
  int : Bool
  te : Bool
  deriving DecidableEq, Repr, Inhabited

/-- What an attestation report holds (R44): the nonce, the SHA-256 digests of the running firmware and of the anvil and
swarm microcode, HBM_LOCAL and MODULE_BUDGET, the rollback counter. -/
structure AttReport where
  nonce : List Byte
  firmware : List Byte
  avCode : List Byte
  swCode : List Byte
  hbmLocal : Nat
  watts : Nat
  rollback : Word
  deriving DecidableEq, Repr, Inhabited

/-- What the boot ROM's check of R43 found. -/
inductive BootResult where
  | accepted | badSignature | rollback | readError
  deriving DecidableEq, Repr, Inhabited

/-- What became of a die-bridge flit that failed its CRC (R14, R42). -/
inductive BridgeOutcome where
  | replayed | uncontained
  deriving DecidableEq, Repr, Inhabited

/-- What the patrol scrubber or a demand read found in an HBM line (R39). -/
inductive EccResult where
  | clean | corrected (syndrome : BitVec 32) | uncorrectable (syndrome : BitVec 32)
  deriving DecidableEq, Repr, Inhabited

/-- An error that arises in a memory (R39, R40, R42): in a line of HBM, in the L2's data of a line, or in a comb word, where
it is single or double. -/
inductive Upset where
  | hbm (line : Nat) (r : EccResult)
  | l2 (line : Nat) (r : EccResult)
  | comb (cluster word : Nat) (double : Bool)
  deriving DecidableEq, Repr, Inhabited

end Sys2Proof
end

