-- ==== Sys2Proof/Config.lean ====
section
/-!
DEFINITION. What the manual leaves open. Each constant below has no body: nothing in Lean can tell its value, so a
claim about the machine holds for every choice. A value drawn once is applied to State.fresh; a value that depends on
operands is applied to them. notes/assumptions/ names each.
-/

namespace Sys2Proof.Config

/-- Whether the head of the agenda is put off in favour of an agent's cycle or of the clock (R481, log 1). -/
opaque defer : Nat → Bool
/-- Which of several things that may happen next does: of the agenda, or of the agents of a cycle (R481, log 1). -/
opaque choose : Nat → Nat
/-- Energy in EU that an activity has metered since it was last read (R35, log 5). -/
opaque energy : Nat → Nat
/-- Metered energy in EU of the operations that a die's grants paid for in the previous window (R35, log 5). -/
opaque admitted : Nat → Nat
/-- The fixed algorithm of WEXP, WLOG, WRCP, WRSQ, WTANH and WSIG, by number, outside their special inputs (R427, log 7). -/
opaque special : Nat → BitVec 36 → BitVec 36
/-- The bytes of a report that holds what R44 lists, signed with the identity key, whose layout and signature the manual
does not give (R44, log 8). -/
opaque report : Nat → AttReport → List Byte
/-- The firmware image that the device holds at reset, and its anvil and swarm microcode (R43, R44, log 8). -/
opaque flash : List Byte
opaque microcode : Nat → List Byte
/-- The fused rollback counter (R43, R44, log 8). -/
opaque rollback : Word
/-- Outcome of the boot ROM's check of an image against the vendor key and the rollback counter (R43, R101, log 8). -/
opaque bootCheck : Nat → List Byte → BootResult
/-- The random data and tweak keys that slot 0 gets at a reset (R45, log 6). -/
opaque bootKey : Nat → BitVec 256 × BitVec 256
/-- The body and header a received CE packet's bytes stand for (R52, R75 to R94, log 9). -/
opaque ceDecode : Nat → List Byte → CeHdr × CeBody
/-- The bytes in which the CE sends a packet's header and body (R52, log 9). -/
opaque ceEncode : CeHdr × CeBody → List Byte
/-- CRC-64 of a flit's first 248 bytes (R48, log 9). -/
opaque crc64 : List Byte → BitVec 64
/-- Packets that the queues of a port hold, beyond the first (R56, log 9). -/
opaque portQueue : Nat
/-- Whether an error arises in a memory now, and where (R39, R40, R42, log 19). -/
opaque upset : Nat → Option Upset
/-- SYNDROME of an error record (R42, log 8). -/
opaque syndrome : Nat → BitVec 32
/-- Set of a slice that a line falls in (R215, log 10). -/
opaque l2Set : Nat → Nat
/-- Set of a die's last-level TLB that a page falls in, by address space, first byte and level (R225, log 10). -/
opaque tlbSet : Nat → Nat → Nat → Nat
/-- Set of a host directory that a line falls in (R105, log 10). -/
opaque dirSet : Nat → Nat
/-- Victim of a pseudo-LRU cache or of a full TLB (R215, R225, log 10). -/
opaque victim : Nat → Nat
/-- Whether an access uses a stale translation before TLBINV ends (R226, log 11). -/
opaque stale : Nat → Bool
/-- OUTPUT of a collective that was aborted (R91, log 17). -/
opaque abortedByte : Nat → Byte
/-- What a host write leaves in host memory (R249, log 37). -/
opaque hostByte : Nat → Byte
/-- The result an instruction leaves where the manual states its effect and not this value (log 20). -/
opaque freeWord : Nat → Word

end Sys2Proof.Config
end

