-- ==== Sys2Proof/Syntax.lean ====
section
/-!
DEFINITION. The instructions and events of the machine: one constructor per row of spec/opcode_table.json. First the
events of the device and of its neighbours (rows 0 to 113, 311, 381 to 384), then the anvil slots (rows 325 to 380, R287,
R308), then the swarm instructions (rows 114 to 324, R281 to R307): Lean's runtime builds values of the first 244
constructors only, and a meaning builds no swarm instruction but those of the system group, which stand first among them.
Each constructor's docstring names its rule.
-/

namespace Sys2Proof

/-- Every step of the part that spec/opcode_table.json lists. -/
inductive Instr where
  /-- KEY_LOAD_DONE (R391). -/
  | keyLoadDone (cxa : Nat)
  /-- BRIDGE_REPLAY (R14). -/
  | bridgeReplay (bridge : Nat) (o : BridgeOutcome)
  /-- MODERATION_INTERVAL_EXPIRY (R122). -/
  | moderationIntervalExpiry (q : Nat)
  /-- ANVIL_RESULT_READABLE (R393). -/
  | anvilResultReadable (av : Nat)
  /-- BAR0_READ (R100). -/
  | bar0Read (off size : Nat)
  /-- DEVICE_RESET (R46). -/
  | deviceReset
  /-- RESET_RELEASE (R46). -/
  | resetRelease
  /-- BOOT_AUTH (R43). -/
  | bootAuth (r : BootResult)
  /-- HBM_TRAIN_DONE (R46). -/
  | hbmTrainDone (fail : Option Nat)
  /-- DEVSTAT_GO (R102). -/
  | devstatGo
  /-- FWCMD (R101). -/
  | fwcmd (val : Word)
  /-- ATTCMD (R44). -/
  | attcmd (val : Word)
  /-- ATTESTATION_REPORT_DONE (R44). -/
  | attestationReportDone
  /-- REGISTER_WRITE (R100). -/
  | registerWrite (off size : Nat) (val : Word)
  /-- INCARNATION_WRITE (R57). -/
  | incarnationWrite (val : Word)
  /-- CTXGRP_WRITE (R121). -/
  | ctxgrpWrite (cxa : Nat) (val : Word)
  /-- GROUP_TABLE_WRITE (R120). -/
  | groupTableWrite (entry off size : Nat) (val : Word)
  /-- QCONS_WRITE (R122). -/
  | qconsWrite (q : Nat) (val : Word)
  /-- FAULTREPLY_RESOLVED (R127). -/
  | faultreplyResolved (reqid : Nat)
  /-- FAULTREPLY_FAILED (R127). -/
  | faultreplyFailed (reqid : Nat)
  /-- FAULTREPLY_KILL (R127). -/
  | faultreplyKill (reqid : Nat)
  /-- TLBINV_WRITE (R226). -/
  | tlbinvWrite (val : Word)
  /-- TLBINV_DONE (R226). -/
  | tlbinvDone
  /-- LINKCTL_ENABLE (R53). -/
  | linkctlEnable (port : Nat)
  /-- LINKCTL_DISABLE (R56). -/
  | linkctlDisable (port : Nat)
  /-- LINKCTL_RESET (R55). -/
  | linkctlReset (port : Nat)
  /-- FORM (R75). -/
  | form (slot vid : Nat)
  /-- CLOSE (R74). -/
  | close (slot : Nat)
  /-- JOIN (R94). -/
  | join (slot vid : Nat)
  /-- LAUNCH_WRITE (R110). -/
  | launchWrite (off : Nat) (bytes : List Byte)
  /-- LAUNCH_DELIVERY (R111). -/
  | launchDelivery
  /-- LAUNCH_QUEUE_ENTRY (R130). -/
  | launchQueueEntry (cluster : Nat) (r : LRec)
  /-- SCHEDULER_START (R133). -/
  | schedulerStart (cluster : Nat)
  /-- PREEMPT_SAVE_DONE (R196). -/
  | preemptSaveDone (cxa : Nat)
  /-- IDLE_NOTICE (R136). -/
  | idleNotice (group cluster : Nat) (idle : Bool)
  /-- FORWARDED_RECORD_ARRIVAL (R136). -/
  | forwardedRecordArrival (cluster : Nat) (r : LRec)
  /-- RETURNED_RECORD_ARRIVAL (R136). -/
  | returnedRecordArrival (r : LRec)
  /-- SPAWN_PACKET_ARRIVAL (R139). -/
  | spawnPacketArrival (cluster : Nat) (r : LRec)
  /-- MESSAGE_DELIVERY (R166). -/
  | messageDelivery (dest : Nat) (msg : Msg) (held : Option Nat)
  /-- MESSAGE_HANDLER_ENTRY (R168). -/
  | messageHandlerEntry (cxa : Nat)
  /-- ASYNC_TRAP (R188). -/
  | asyncTrap (cxa : Nat)
  /-- DRIFT_TICK (R238). -/
  | driftTick (cxa : Nat)
  /-- MSGMASK_OVERRUN (R169). -/
  | msgmaskOverrun (cxa : Nat)
  /-- DEADLINE (R128). -/
  | deadline (cxa : Nat)
  /-- FE_TIMEOUT (R334). -/
  | feTimeout (cxa : Nat)
  /-- SEND_TIMEOUT (R171). -/
  | sendTimeout (cxa : Nat)
  /-- DEFERRED_SIGNAL_TIMEOUT (R206). -/
  | deferredSignalTimeout (cxa : Nat)
  /-- REMOTE_AMO_BANK_TIMEOUT (R206). -/
  | remoteAmoBankTimeout (cluster tag : Nat)
  /-- STORE_PERFORM (R234). -/
  | storePerform (cxa : Nat)
  /-- AMO_EXECUTE (R237). -/
  | amoExecute (cxa : Nat)
  /-- LOAD_RETURN (R233). -/
  | loadReturn (cxa : Nat)
  /-- PATROL_SCRUB (R41). -/
  | patrolScrub (line : Nat)
  /-- HDM_READ (R104) of the host physical address `off` bytes into a block of 256 MiB, the measure of decoders (R103). -/
  | hdmRead (block off : Nat)
  /-- HDM_WRITE (R104), its address likewise. -/
  | hdmWrite (block off : Nat) (bytes : List Byte)
  /-- BIRSP (R105). -/
  | birsp (line : Nat)
  /-- BI_TIMEOUT (R107). -/
  | biTimeout (line : Nat)
  /-- HOST_SNOOP (R108). -/
  | hostSnoop (line : Nat) (inv : Bool)
  /-- ATOMICOP_COMPLETION (R109). -/
  | atomicopCompletion (cxa : Nat) (ok : Bool) (old : Word)
  /-- WINDOW_BOUNDARY (R23). -/
  | windowBoundary (die : Nat)
  /-- GRANT_END (R26). -/
  | grantEnd (h : Holder)
  /-- BOOST (R154). -/
  | boost (cluster off : Nat)
  /-- RELEASE (R155). -/
  | release (cluster off : Nat)
  /-- CLOCK_STEP_CHANGE_DONE (R20). -/
  | clockStepChangeDone (cluster : Nat)
  /-- THERMAL_TABLE_REFRESH (R30). -/
  | thermalTableRefresh (die : Nat) (temps : List (Nat × Nat))
  /-- THERMAL_SLOT_DISABLE (R31). -/
  | thermalSlotDisable (core temp : Nat)
  /-- THERMAL_SLOT_ENABLE (R32). -/
  | thermalSlotEnable (core temp : Nat)
  /-- FLUSH_MARKER (R151). -/
  | flushMarker (origin cls : Nat)
  /-- IMAGE_INSTALL (R151). -/
  | imageInstall (origin : Nat)
  /-- REBASE_MOVE (R253). -/
  | rebaseMove
  /-- REBASE_COMPLETE (R253). -/
  | rebaseComplete
  /-- CELL_DEADLINE_EXPIRY (R212). -/
  | cellDeadlineExpiry (cluster index : Nat)
  /-- TIMER_SEAL_POST_RETRY (R212). -/
  | timerSealPostRetry (cluster index : Nat)
  /-- SEAL_QUEUE_ROOM (R361). -/
  | sealQueueRoom (cxa : Nat)
  /-- TE_COMMAND_START (R146). -/
  | teCommandStart (cluster : Nat)
  /-- TE_CHUNK (R371). -/
  | teChunk (cluster : Nat)
  /-- TE_COMMAND_COMPLETE (R372). -/
  | teCommandComplete (cluster cmd : Nat)
  /-- ANVIL_START (R177). -/
  | anvilStart (av : Nat)
  /-- ANVIL_CONTEXT_SWITCH (R178). -/
  | anvilContextSwitch (av : Nat)
  /-- VGA_COMPLETE (R421). -/
  | vgaComplete (av c : Nat)
  /-- SCAN_COMPLETE (R424). -/
  | scanComplete (av c : Nat)
  /-- AVLOAD_COPY_DONE (R380). -/
  | avloadCopyDone (cxa : Nat)
  /-- FLIT_RECEIVE (R50). -/
  | flitReceive (port : Nat) (bytes : List Byte)
  /-- REPLAY_REQUEST (R50). -/
  | replayRequest (port seq : Nat)
  /-- LANE_LOCK_LOSS (R53). -/
  | laneLockLoss (port : Nat)
  /-- TRAINING_COMPLETE (R53). -/
  | trainingComplete (port peer : Nat)
  /-- TRAINING_TIMEOUT (R53). -/
  | trainingTimeout (port : Nat)
  /-- RETRAIN_COMPLETE (R53). -/
  | retrainComplete (port : Nat)
  /-- LINK_DEAD_TIMEOUT (R56). -/
  | linkDeadTimeout (port : Nat)
  /-- WRITE (R64). -/
  | inWrite (port : Nat) (p : Packet)
  /-- CPUT (R65). -/
  | inCput (port : Nat) (p : Packet)
  /-- AMO_ADD (R66). -/
  | inAmoAdd (port : Nat) (p : Packet)
  /-- AMO_SWAP (R66). -/
  | inAmoSwap (port : Nat) (p : Packet)
  /-- AMO_REPLY (R66). -/
  | inAmoReply (port : Nat) (p : Packet)
  /-- ACK (R68). -/
  | inAck (port : Nat) (p : Packet)
  /-- NACK (R67). -/
  | inNack (port : Nat) (p : Packet)
  /-- MSG (R69). -/
  | inMsg (port : Nat) (p : Packet)
  /-- GTC_SYNC (R61). -/
  | gtcSync (stamp roundTrip : Nat)
  /-- GTC_SYNC_EXCHANGE (R61). -/
  | gtcSyncExchange
  /-- CE_DATA (R87). -/
  | ceData (h : CeHdr) (d : CeData)
  /-- HELLO (R75). -/
  | hello (h : CeHdr) (digest : Word)
  /-- FORM_TIMEOUT (R75). -/
  | formTimeout (slot : Nat)
  /-- HEARTBEAT_TIMER (R77). -/
  | heartbeatTimer
  /-- HEARTBEAT (R77). -/
  | heartbeat (h : CeHdr) (rank gtc : Nat)
  /-- SUSPICION_TIMEOUT (R77). -/
  | suspicionTimeout (slot rank : Nat)
  /-- SUSPECT (R78). -/
  | suspect (h : CeHdr) (report : Suspicion)
  /-- SUSPECT_TIMER (R80). -/
  | suspectTimer (slot : Nat)
  /-- PROPOSE (R80). -/
  | propose (h : CeHdr) (round newVid : Nat) (list : List Member)
  /-- CE_ACK (R80). -/
  | ceAck (h : CeHdr) (round inc : Nat)
  /-- BUSY (R80). -/
  | busy (h : CeHdr) (cand : Nat)
  /-- ROUND_EXPIRY (R80). -/
  | roundExpiry (slot : Nat)
  /-- ABANDON (R80). -/
  | abandon (h : CeHdr)
  /-- BOUND_TIMEOUT (R80). -/
  | boundTimeout (slot : Nat)
  /-- COMMIT (R80). -/
  | commit (h : CeHdr) (newVid : Nat) (members : List Member)
  /-- EXCLUDE (R80). -/
  | exclude (h : CeHdr) (newVid : Nat)
  /-- STALL (R81). -/
  | stall (h : CeHdr) (round : Nat)
  /-- FETCH (R76). -/
  | fetch (h : CeHdr)
  /-- JOIN_REQ (R94). -/
  | joinReq (h : CeHdr) (joiner inc : Nat)
  /-- JOIN_NAK (R94). -/
  | joinNak (h : CeHdr)
  /-- WAIT (R94). -/
  | joinWait (h : CeHdr) (round : Nat)
  /-- NOP (R287). -/
  | nop
  /-- HALT (R399). -/
  | halt
  /-- BR (R398). -/
  | br (t : BitVec 14)
  /-- BRZ (R398). -/
  | brz (a : Fin 16) (t : BitVec 14)
  /-- BRNZ (R398). -/
  | brnz (a : Fin 16) (t : BitVec 14)
  /-- LOOP (R402). -/
  | loop (l : Fin 8) (st : Fin 4) (t : Fin 16) (e : BitVec 10)
  /-- LSTR (R401). -/
  | lstr (l : Fin 8) (k : Fin 4) (r : Fin 16) (str : BitVec 10)
  /-- LEXT (R401). -/
  | lext (l : Fin 8) (a : Fin 16)
  /-- LGATE (R401). -/
  | lgate (l : Fin 8)
  /-- WAITQ (R405). -/
  | waitq (d : Option (Fin 16)) (mask : BitVec 8)
  /-- WAITTRG (R411). -/
  | waittrg (t : Fin 4)
  /-- POPQ (R406). -/
  | popq (h : Fin 8) (q : Option (Fin 8)) (f : Option (Fin 16))
  /-- PUSHQ (R407). -/
  | pushq (h : Fin 8) (q : Fin 8)
  /-- TRGSET (R410). -/
  | trgset (t : Fin 4) (arm : Option (Fin 8 × Fin 16 × Fin 16))
  /-- ANVIL_ADMIT (R412). -/
  | anvilAdmit (n : Fin 16) (level : Fin 4)
  /-- ANVIL_DONE (R408). -/
  | anvilDone (h : Fin 8)
  /-- SLI (R397). -/
  | sli (d : Fin 16) (i : BitVec 15)
  /-- SADD (R397). -/
  | sadd (d a : Fin 16) (b : Fin 16 ⊕ BitVec 10)
  /-- SSUB (R397). -/
  | ssub (d a : Fin 16) (b : Fin 16 ⊕ BitVec 10)
  /-- SAND (R397). -/
  | sand (d a : Fin 16) (b : Fin 16 ⊕ BitVec 10)
  /-- SSHL (R397). -/
  | sshl (d a : Fin 16) (sh : BitVec 6)
  /-- FPCR (R397). -/
  | fpcr (d : Fin 16)
  /-- FPCW (R397). -/
  | fpcw (a : Fin 16)
  /-- LDT (R415). -/
  | ldt (bt : Bool) (n : Fin 4) (h : Fin 8) (s : Fin 16)
  /-- LDTH (R415). -/
  | ldth (bt : Bool) (n : Fin 4) (h : Fin 8) (s : Fin 16) (half : Fin 2)
  /-- LDTS (R415). -/
  | ldts (bt : Bool) (h : Fin 8) (s : Fin 16)
  /-- LDW (R415). -/
  | ldw (w : Fin 16) (h : Fin 8) (s : Fin 16)
  /-- MMA (R417). -/
  | mma (o : MmaOps)
  /-- MMAH (R417). -/
  | mmah (o : MmaOps) (ha hb : Fin 2)
  /-- VGA (R420). -/
  | vga (acc : Fin 4) (hs ha : Fin 8) (s : Fin 16)
  /-- VGWAIT (R423). -/
  | vgwait
  /-- SCAN (R424). -/
  | scan (d : Fin 16) (hs ho : Fin 8)
  /-- SCANWAIT (R425). -/
  | scanwait
  /-- WADD (R426). -/
  | wadd (d a b : Fin 16) (int : Bool)
  /-- WSUB (R426). -/
  | wsub (d a b : Fin 16) (int : Bool)
  /-- WMUL (R426). -/
  | wmul (d a b : Fin 16) (int : Bool)
  /-- WFMA (R426). -/
  | wfma (d a b : Fin 16) (int : Bool)
  /-- WMAX (R426). -/
  | wmax (d a b : Fin 16) (int : Bool)
  /-- WMIN (R426). -/
  | wmin (d a b : Fin 16) (int : Bool)
  /-- WCVT (R426). -/
  | wcvt (d a : Fin 16) (fmt : Fin 32) (mode : Fin 4)
  /-- WEXP (R427). -/
  | wexp (d a : Fin 16)
  /-- WLOG (R427). -/
  | wlog (d a : Fin 16)
  /-- WRCP (R427). -/
  | wrcp (d a : Fin 16)
  /-- WRSQ (R427). -/
  | wrsq (d a : Fin 16)
  /-- WTANH (R427). -/
  | wtanh (d a : Fin 16)
  /-- WSIG (R427). -/
  | wsig (d a : Fin 16)
  /-- RED (R428). -/
  | red (pl : Fin 4) (w : Fin 16) (int : Bool) (lane : Fin 32)
  /-- REDMAX (R428). -/
  | redmax (pl : Fin 4) (w : Fin 16) (int : Bool) (lane : Fin 32)
  /-- REDCLR (R428). -/
  | redclr (pl : Fin 4) (ninf : Bool)
  /-- STC (R430). -/
  | stc (acc : Fin 4) (h : Fin 8) (s : Fin 16) (fmt : Fin 32) (tk : Fin 4) (int : Bool)
  /-- STCW (R430). -/
  | stcw (w : Fin 16) (h : Fin 8) (s : Fin 16) (fmt : Fin 32) (tk : Fin 4) (int : Bool)
  /-- POST (R431). -/
  | post (h : Fin 8) (s : Option (Fin 16))
  /-- MOV (R429). -/
  | mov (w : Fin 16) (pl : Fin 4) (clr : Bool)
  /-- MOVA (R429). -/
  | mova (toAcc : Bool) (acc : Fin 4) (w : Fin 16) (s : Fin 16) (col : Bool)
  /-- MOVS (R429). -/
  | movs (toS : Bool) (s : Fin 16) (h : Fin 8)
  /-- ZACC (R429). -/
  | zacc (acc : Fin 4)
  /-- MRET (R168). -/
  | mret
  /-- TRET (R183). -/
  | tret
  /-- BREAK (R388). -/
  | brk
  /-- SRET (R389). -/
  | sret
  /-- KILL (R391). -/
  | kill (a : XReg)
  /-- TLBINV (R391). -/
  | tlbinv (a : XReg)
  /-- GRPW (R391). -/
  | grpw (a b : XReg)
  /-- KEYLD (R391). -/
  | keyld (a b : XReg)
  /-- TRAP (R388). -/
  | trap (i : BitVec 16)
  /-- SVC (R185). -/
  | svc (i : BitVec 16)
  /-- GSR (R286). -/
  | gsr (d : XReg) (n : BitVec 12)
  /-- SSR (R286). -/
  | ssr (a : XReg) (n : BitVec 12)
  /-- ADD (R311). -/
  | add (d a b : XReg) (w : Bool)
  /-- SUB (R311). -/
  | sub (d a b : XReg) (w : Bool)
  /-- AND (R311). -/
  | and (d a b : XReg) (w : Bool)
  /-- OR (R311). -/
  | or (d a b : XReg) (w : Bool)
  /-- XOR (R311). -/
  | xor (d a b : XReg) (w : Bool)
  /-- SLL (R311). -/
  | sll (d a b : XReg) (w : Bool)
  /-- SRL (R311). -/
  | srl (d a b : XReg) (w : Bool)
  /-- SRA (R311). -/
  | sra (d a b : XReg) (w : Bool)
  /-- ROR (R311). -/
  | ror (d a b : XReg) (w : Bool)
  /-- SLT (R311). -/
  | slt (d a b : XReg) (w : Bool)
  /-- SLTU (R311). -/
  | sltu (d a b : XReg) (w : Bool)
  /-- MIN (R311). -/
  | min (d a b : XReg) (w : Bool)
  /-- MAX (R311). -/
  | max (d a b : XReg) (w : Bool)
  /-- MINU (R311). -/
  | minu (d a b : XReg) (w : Bool)
  /-- MAXU (R311). -/
  | maxu (d a b : XReg) (w : Bool)
  /-- SELNZ (R311). -/
  | selnz (d a b : XReg)
  /-- MUL (R311). -/
  | mul (d a b : XReg) (w : Bool)
  /-- MULH (R311). -/
  | mulh (d a b : XReg) (w : Bool)
  /-- MULHU (R311). -/
  | mulhu (d a b : XReg) (w : Bool)
  /-- DIV (R313). -/
  | div (d a b : XReg) (w : Bool)
  /-- DIVU (R313). -/
  | divu (d a b : XReg) (w : Bool)
  /-- REM (R313). -/
  | rem (d a b : XReg) (w : Bool)
  /-- REMU (R313). -/
  | remu (d a b : XReg) (w : Bool)
  /-- CLZ (R311). -/
  | clz (d a : XReg) (w : Bool)
  /-- CTZ (R311). -/
  | ctz (d a : XReg) (w : Bool)
  /-- POPC (R311). -/
  | popc (d a : XReg) (w : Bool)
  /-- BSWAP (R311). -/
  | bswap (d a : XReg) (w : Bool)
  /-- FADD (R318). -/
  | fadd (f : FFmt) (d a b : XReg)
  /-- FSUB (R318). -/
  | fsub (f : FFmt) (d a b : XReg)
  /-- FMUL (R318). -/
  | fmul (f : FFmt) (d a b : XReg)
  /-- FDIV (R318). -/
  | fdiv (f : FFmt) (d a b : XReg)
  /-- FSQRT (R318). -/
  | fsqrt (f : FFmt) (d a : XReg)
  /-- FMA (R318). -/
  | fma (f : FFmt) (d a b : XReg)
  /-- FMIN (R319). -/
  | fmin (f : FFmt) (d a b : XReg)
  /-- FMAX (R319). -/
  | fmax (f : FFmt) (d a b : XReg)
  /-- FEQ (R320). -/
  | feq (f : FFmt) (d a b : XReg)
  /-- FLT (R320). -/
  | flt (f : FFmt) (d a b : XReg)
  /-- FLE (R320). -/
  | fle (f : FFmt) (d a b : XReg)
  /-- FCLASS (R320). -/
  | fclass (f : FFmt) (d a : XReg)
  /-- FSGNJ (R321). -/
  | fsgnj (f : FFmt) (d a b : XReg)
  /-- FSGNJN (R321). -/
  | fsgnjn (f : FFmt) (d a b : XReg)
  /-- FTOI (R322). -/
  | ftoi (f : FFmt) (d a : XReg)
  /-- FTOU (R322). -/
  | ftou (f : FFmt) (d a : XReg)
  /-- ITOF (R322). -/
  | itof (f : FFmt) (d a : XReg)
  /-- UTOF (R322). -/
  | utof (f : FFmt) (d a : XReg)
  /-- FCVT (R323). -/
  | fcvt (dst src : FFmt) (d a : XReg)
  /-- EXTU (R316). -/
  | extu (d a : XReg) (w : Nat) (o : Fin 64)
  /-- EXTS (R316). -/
  | exts (d a : XReg) (w : Nat) (o : Fin 64)
  /-- INS (R316). -/
  | ins (d a : XReg) (w : Nat) (o : Fin 64)
  /-- ADDI (R314). -/
  | addi (d a : XReg) (i : BitVec 16)
  /-- ANDI (R314). -/
  | andi (d a : XReg) (i : BitVec 16)
  /-- ORI (R314). -/
  | ori (d a : XReg) (i : BitVec 16)
  /-- XORI (R314). -/
  | xori (d a : XReg) (i : BitVec 16)
  /-- SLTI (R314). -/
  | slti (d a : XReg) (i : BitVec 16)
  /-- SLTIU (R314). -/
  | sltiu (d a : XReg) (i : BitVec 16)
  /-- LUI (R314). -/
  | lui (d : XReg) (i : BitVec 16)
  /-- SLLI (R315). -/
  | slli (d a : XReg) (w : Bool) (n : Fin 64)
  /-- SRLI (R315). -/
  | srli (d a : XReg) (w : Bool) (n : Fin 64)
  /-- SRAI (R315). -/
  | srai (d a : XReg) (w : Bool) (n : Fin 64)
  /-- RORI (R315). -/
  | rori (d a : XReg) (w : Bool) (n : Fin 64)
  /-- SHORI (R314). -/
  | shori (d a : XReg) (i : BitVec 16)
  /-- AUIPC (R314). -/
  | auipc (d : XReg) (i : BitVec 16)
  /-- LB (R330). -/
  | lb (d a : XReg) (i : BitVec 16)
  /-- LBU (R330). -/
  | lbu (d a : XReg) (i : BitVec 16)
  /-- LH (R330). -/
  | lh (d a : XReg) (i : BitVec 16)
  /-- LHU (R330). -/
  | lhu (d a : XReg) (i : BitVec 16)
  /-- LW (R330). -/
  | lw (d a : XReg) (i : BitVec 16)
  /-- LWU (R330). -/
  | lwu (d a : XReg) (i : BitVec 16)
  /-- LD (R330). -/
  | ld (d a : XReg) (i : BitVec 16)
  /-- VLD (R330). -/
  | vld (d : VReg) (a : XReg) (i : BitVec 16)
  /-- SB (R330). -/
  | sb (b a : XReg) (i : BitVec 16)
  /-- SH (R330). -/
  | sh (b a : XReg) (i : BitVec 16)
  /-- SW (R330). -/
  | sw (b a : XReg) (i : BitVec 16)
  /-- SD (R330). -/
  | sd (b a : XReg) (i : BitVec 16)
  /-- VST (R330). -/
  | vst (b : VReg) (a : XReg) (i : BitVec 16)
  /-- LDA (R332). -/
  | lda (d a : XReg) (s : Scope) (w : Bool)
  /-- LDA_F (R241). -/
  | ldaF (d a : XReg) (s : Scope) (w : Bool)
  /-- STL (R332). -/
  | stl (a b : XReg) (s : Scope) (w : Bool)
  /-- FENCE (R333). -/
  | fence (s : Scope)
  /-- FENCE_REL (R333). -/
  | fenceRel (s : Scope)
  /-- FENCE_ACQ (R333). -/
  | fenceAcq (s : Scope)
  /-- AMOADD (R336). -/
  | amoadd (d a b : XReg) (w : Bool)
  /-- AMOAND (R336). -/
  | amoand (d a b : XReg) (w : Bool)
  /-- AMOOR (R336). -/
  | amoor (d a b : XReg) (w : Bool)
  /-- AMOXOR (R336). -/
  | amoxor (d a b : XReg) (w : Bool)
  /-- AMOSWAP (R336). -/
  | amoswap (d a b : XReg) (w : Bool)
  /-- AMOMIN (R336). -/
  | amomin (d a b : XReg) (w : Bool)
  /-- AMOMAX (R336). -/
  | amomax (d a b : XReg) (w : Bool)
  /-- AMOMINU (R336). -/
  | amominu (d a b : XReg) (w : Bool)
  /-- AMOMAXU (R336). -/
  | amomaxu (d a b : XReg) (w : Bool)
  /-- AMOCAS (R337). -/
  | amocas (d a b : XReg) (w : Bool)
  /-- RAMOADD (R339). -/
  | ramoadd (d a b : XReg) (w : Bool)
  /-- RAMOSWAP (R339). -/
  | ramoswap (d a b : XReg) (w : Bool)
  /-- RSD (R340). -/
  | rsd (a b : XReg)
  /-- RSQ (R340). -/
  | rsq (a : XReg) (b : VReg)
  /-- LDFE (R334). -/
  | ldfe (d a : XReg)
  /-- LDFF (R334). -/
  | ldff (d a : XReg)
  /-- STEF (R334). -/
  | stef (a b : XReg)
  /-- STFF (R334). -/
  | stff (a b : XReg)
  /-- BEQ (R324). -/
  | beq (a b : XReg) (i : BitVec 16)
  /-- BNE (R324). -/
  | bne (a b : XReg) (i : BitVec 16)
  /-- BLT (R324). -/
  | blt (a b : XReg) (i : BitVec 16)
  /-- BGE (R324). -/
  | bge (a b : XReg) (i : BitVec 16)
  /-- BLTU (R324). -/
  | bltu (a b : XReg) (i : BitVec 16)
  /-- BGEU (R324). -/
  | bgeu (a b : XReg) (i : BitVec 16)
  /-- BMANY (R325). -/
  | bmany (m : MReg) (i : BitVec 16)
  /-- BMNONE (R325). -/
  | bmnone (m : MReg) (i : BitVec 16)
  /-- BMALL (R325). -/
  | bmall (m : MReg) (i : BitVec 16)
  /-- JAL (R326). -/
  | jal (d : XReg) (i : BitVec 21)
  /-- JALR (R326). -/
  | jalr (d a : XReg) (i : BitVec 16)
  /-- VADD (R345). -/
  | vadd (t : ETy) (d a b : VReg) (p : Pred)
  /-- VSUB (R345). -/
  | vsub (t : ETy) (d a b : VReg) (p : Pred)
  /-- VMUL (R345). -/
  | vmul (t : ETy) (d a b : VReg) (p : Pred)
  /-- VFMA (R345). -/
  | vfma (t : ETy) (d a b : VReg) (p : Pred)
  /-- VMIN (R345). -/
  | vmin (t : ETy) (d a b : VReg) (p : Pred)
  /-- VMAX (R345). -/
  | vmax (t : ETy) (d a b : VReg) (p : Pred)
  /-- VADDS (R345). -/
  | vadds (t : ETy) (d a b : VReg) (p : Pred)
  /-- VSUBS (R345). -/
  | vsubs (t : ETy) (d a b : VReg) (p : Pred)
  /-- VAND (R345). -/
  | vand (t : ETy) (d a b : VReg) (p : Pred)
  /-- VOR (R345). -/
  | vor (t : ETy) (d a b : VReg) (p : Pred)
  /-- VXOR (R345). -/
  | vxor (t : ETy) (d a b : VReg) (p : Pred)
  /-- VSLL (R345). -/
  | vsll (t : ETy) (d a b : VReg) (p : Pred)
  /-- VSRL (R345). -/
  | vsrl (t : ETy) (d a b : VReg) (p : Pred)
  /-- VSRA (R345). -/
  | vsra (t : ETy) (d a b : VReg) (p : Pred)
  /-- VDIV (R345). -/
  | vdiv (t : ETy) (d a b : VReg) (p : Pred)
  /-- VSQRT (R345). -/
  | vsqrt (t : ETy) (d a : VReg) (p : Pred)
  /-- VCMPEQ (R346). -/
  | vcmpeq (t : ETy) (d : MReg) (a b : VReg) (p : Pred)
  /-- VCMPNE (R346). -/
  | vcmpne (t : ETy) (d : MReg) (a b : VReg) (p : Pred)
  /-- VCMPLT (R346). -/
  | vcmplt (t : ETy) (d : MReg) (a b : VReg) (p : Pred)
  /-- VCMPLE (R346). -/
  | vcmple (t : ETy) (d : MReg) (a b : VReg) (p : Pred)
  /-- VSEL (R347). -/
  | vsel (t : ETy) (d a b : VReg) (m : MReg)
  /-- MAND (R347). -/
  | mand (d a b : MReg)
  /-- MOR (R347). -/
  | mor (d a b : MReg)
  /-- MXOR (R347). -/
  | mxor (d a b : MReg)
  /-- MNOT (R347). -/
  | mnot (d a : MReg)
  /-- MFROMX (R347). -/
  | mfromx (d : MReg) (a : XReg)
  /-- MTOX (R347). -/
  | mtox (d : XReg) (a : MReg)
  /-- MPOPC (R347). -/
  | mpopc (d : XReg) (a : MReg)
  /-- VCVT (R348). -/
  | vcvt (t s : ETy) (d a : VReg) (p : Pred)
  /-- VDOT (R349). -/
  | vdot (t s : ETy) (d a : VReg) (p : Pred)
  /-- VPERM (R351). -/
  | vperm (t : ETy) (d a b : VReg) (p : Pred)
  /-- VHASH (R352). -/
  | vhash (t : ETy) (d a b : VReg) (p : Pred)
  /-- VNZC (R353). -/
  | vnzc (t : ETy) (d a : VReg) (m : MReg)
  /-- VSPLAT (R354). -/
  | vsplat (t : ETy) (d : VReg) (a : XReg) (p : Pred)
  /-- VEXT (R354). -/
  | vext (t : ETy) (d : XReg) (a : VReg) (b : XReg)
  /-- VINS (R354). -/
  | vins (t : ETy) (d : VReg) (a b : XReg)
  /-- VREDSUM (R355). -/
  | vredsum (t : ETy) (d : XReg) (a : VReg) (p : Pred)
  /-- VREDMAX (R355). -/
  | vredmax (t : ETy) (d : XReg) (a : VReg) (p : Pred)
  /-- VREDMIN (R355). -/
  | vredmin (t : ETy) (d : XReg) (a : VReg) (p : Pred)
  /-- VMOV (R347). -/
  | vmov (d a : VReg) (p : Pred)
  /-- COPEN (R357). -/
  | copen (d a b : XReg)
  /-- CPUT_D (R358). -/
  | cputD (a b : XReg)
  /-- CPUT_Q (R358). -/
  | cputQ (a : XReg) (b : VReg)
  /-- CPUT_R (R359). -/
  | cputR (a : XReg) (b : VReg)
  /-- SEAL (R211). -/
  | seal (a b : XReg) (s : Scope)
  /-- SEALM (R360). -/
  | sealm (a b : XReg) (s : Scope)
  /-- CSETT (R362). -/
  | csett (a b : XReg)
  /-- CLD (R363). -/
  | cld (d a : XReg)
  /-- CLD_ACQ (R363). -/
  | cldAcq (d a : XReg)
  /-- CRETIRE (R364). -/
  | cretire (a : XReg)
  /-- DONE (R364). -/
  | done (a : XReg)
  /-- CSTAT (R365). -/
  | cstat (d a b : XReg)
  /-- CBINIT (R366). -/
  | cbinit (a b : XReg)
  /-- CBPOP (R367). -/
  | cbpop (d a : XReg)
  /-- CBFREE (R367). -/
  | cbfree (a b : XReg)
  /-- BINIT (R368). -/
  | binit (a b : XReg)
  /-- BARRV (R174). -/
  | barrv (d a b : XReg)
  /-- BWAIT (R174). -/
  | bwait (a b : XReg)
  /-- BRETIRE (R368). -/
  | bretire (a : XReg)
  /-- XFER (R369). -/
  | xfer (a : XReg)
  /-- XGATHER (R371). -/
  | xgather (a : XReg)
  /-- XSCATTER (R371). -/
  | xscatter (a : XReg)
  /-- XRESTART (R193). -/
  | xrestart (a : XReg)
  /-- XDISCARD (R193). -/
  | xdiscard (a : XReg)
  /-- SEND (R374). -/
  | send (d : VReg) (a b : XReg) (c : ClsSel)
  /-- SEND_REL (R374). -/
  | sendRel (d : VReg) (a b : XReg) (c : ClsSel) (s : Scope)
  /-- ACTIVATE (R375). -/
  | activate (d : VReg) (a b : XReg) (c : ClsSel)
  /-- ACTIVATE_REL (R375). -/
  | activateRel (d : VReg) (a b : XReg) (c : ClsSel) (s : Scope)
  /-- SPAWN (R376). -/
  | spawn (d : VReg) (a b : XReg) (c : ClsSel)
  /-- SPAWN_REL (R376). -/
  | spawnRel (d : VReg) (a b : XReg) (c : ClsSel) (s : Scope)
  /-- RECV (R377). -/
  | recv (d : Fin 8)
  /-- RECV_ACQ (R377). -/
  | recvAcq (d : Fin 8)
  /-- TRYRECV (R377). -/
  | tryrecv (d : Fin 8)
  /-- TRYRECV_ACQ (R377). -/
  | tryrecvAcq (d : Fin 8)
  /-- WAITMSG (R377). -/
  | waitmsg
  /-- MSGMASK_SET (R378). -/
  | msgmaskSet
  /-- MSGMASK_CLR (R378). -/
  | msgmaskClr
  /-- EXIT (R160). -/
  | exit
  /-- FAULTWAIT (R189). -/
  | faultwait (d a b : XReg)
  /-- AVLOAD (R380). -/
  | avload (a b : XReg)
  /-- AVSTART (R381). -/
  | avstart (a b : XReg)
  /-- AVSTOP (R382). -/
  | avstop (a : XReg)
  /-- AVPOST (R383). -/
  | avpost (a b : XReg)
  /-- AVSTAT (R384). -/
  | avstat (d a : XReg)
  /-- COLL (R385). -/
  | coll (a : XReg)
  /-- VIEWGET (R386). -/
  | viewget (d a : XReg)
  /-- MTRAP (R386). -/
  | mtrap (a : XReg)
  /-- ADMIT (R387). -/
  | admitS (a b : XReg)
  deriving DecidableEq, Repr, Inhabited

end Sys2Proof
end

