-- ==== Sys2Proof/Machine/State.lean ====
section
/-!
DEFINITION. The state of the device as plain data: every register, queue, table and memory the manual names, what is
in flight between its units, and the machine right after reset. One structure per unit, the units held in sparse
tables by number, an unlisted unit standing in its reset state.
-/

namespace Sys2Proof.Machine

/-- The outcomes a step can stop with. None of them is raised by the model as it stands: every trap, anvil fault and
park of the manual is a next state. Safe: a stop proves no claim about the machine going on. -/
inductive Fault where
  /-- Raised by nothing. Safe. -/
  | none
  deriving DecidableEq, Repr, Inhabited

/-- The refusals of the model. -/
inductive Refusal where
  /-- Raised by Dispatch alone, for a constructor that has no meaning yet. Safe. -/
  | notModelled (mnemonic : String)
  deriving DecidableEq, Repr, Inhabited

/-! ## Swarm contexts (R118, R158, R181, R197, R284, R286) -/

/-- Privilege (R185). -/
inductive Priv where
  | u | s
  deriving DecidableEq, Repr, Inhabited

/-- A grant held from a bellows (R25, R26): allowance left in EU and the holder's cluster cycle at which it ends. -/
structure Grant where
  left : Nat
  endCyc : Nat
  deriving DecidableEq, Repr, Inhabited

/-- One aligned part of a load or a store: the unified memory key of its first byte, how many bytes, what page
attributes the translation gave (R222, R228). -/
structure Part where
  pa : Nat
  n : Nat
  /-- Offset of the part's first byte in the access. -/
  at_ : Nat
  key : Nat
  cls : Nat
  /-- DOM = 1: a SYS page. -/
  sys : Bool
  deriving DecidableEq, Repr, Inhabited

/-- What an entry of the store buffer does when it leaves (R234, R235). -/
inductive SbKind where
  | store
  /-- A CPUT into the cell with this cluster and index; bytes of the cell from this offset (R358). -/
  | cput (cluster index off : Nat)
  /-- An AMO (R237): operation, width, operand, expected value, destination register. -/
  | amo (op : AmoOp) (width : Nat) (b exp : Word) (rd : Nat)
  deriving DecidableEq, Repr, Inhabited

/-- A store-buffer entry (R234). -/
structure SbEntry where
  kind : SbKind
  parts : List Part
  bytes : List Byte
  pts : Nat
  /-- STL: it leaves only after every earlier entry has performed (R235). -/
  ord : Bool
  /-- Virtual address of the access, for a trap that names it. -/
  va : Nat
  /-- The cells it is counted against until it has performed: cluster, index, CGEN (R244). -/
  counted : List (Nat × Nat × Nat) := []
  deriving DecidableEq, Repr, Inhabited

/-- How a load leaves its value in a register (R330). -/
inductive LdDst where
  | x (rd : Nat) (width : Nat) (signed : Bool)
  | v (rd : Nat)
  deriving DecidableEq, Repr, Inhabited

/-- The registers as they stood when a load issued, of those that an instruction may write while a load is outstanding: a
load that ends in POISON traps as if nothing after it had issued (R182). -/
structure RegSnap where
  pc : Word
  x : Vector Word 32
  v : Vector VWord 16
  m : Vector (BitVec 16) 4
  shadow : Vector Word 8
  fcsr : BitVec 9
  priv : Priv
  tl : Nat
  tvec : Word
  tepc1 : Word
  tepc2 : Word
  tcause1 : Word
  tcause2 : Word
  tval1 : Word
  tval2 : Word
  tscr : Vector Word 4
  mhEn : Bool
  mhInh : Bool
  mhMask : Bool
  mhvec : Word
  mepc : Word
  masked : Nat
  sepc : Word
  svcvec : Word
  mrts : Nat
  nxtdl : Word
  ranTrap : Bool
  ranHnd : Bool
  deriving DecidableEq, Repr, Inhabited

/-- A load whose data has not returned (R142, R233, R310): its parts and what a buffered store, a bank or a usable copy has
given of each, with the wts; where its value goes; its address; the cluster cycle and the GTC at which its request left the
core; the store-buffer entries older than it (R235); the registers as it found them. -/
structure LoadReq where
  parts : List Part
  got : List (Option (List Byte × Nat))
  dst : LdDst
  va : Nat
  since : Nat
  gtc : Nat
  ahead : Nat
  snap : RegSnap
  /-- Its request has left the core; else it waits for a fill that the core has outstanding, and applies the test again
  (R233). -/
  sent : Bool
  /-- Its number among the loads of the context, and the number from which on a younger write of its register hides it. -/
  num : Nat
  dead : Option Nat := none
  /-- LDA.F: it reads at home whatever is at hand (R241). -/
  force : Bool := false
  deriving DecidableEq, Repr, Inhabited

/-- Why a context does not issue (R142): the parks of the manual, and the waits in which it issues nothing until an
answer comes. `none` is running. -/
inductive Wait where
  | none
  /-- An LDA or LDA.F that waits for its data, and its acquire (R233, R332). -/
  | load (r : LoadReq) (acq : Option Scope)
  /-- An instruction fetch that missed, the cluster cycle of its request and whether that has left the core (R215, R232,
  R233). -/
  | fetch (part : Part) (since : Nat) (sent : Bool)
  /-- An AMO whose old value has not returned, or that a bank has not taken (R206, R336). -/
  | amo (rd : Nat) (width : Nat) (va : Nat)
  /-- A context parked at an AMO that a comb bank has: waiting for a buffer entry or for its application (R206). -/
  | combAmo (rd : Nat) (width : Nat) (va : Nat)
  /-- A full/empty operation at its bank (R334). -/
  | fe (va : Nat)
  /-- A remote AMO under the tag given (R339). -/
  | remoteAmo (tag rd width : Nat)
  /-- A SEND held at the instruction (R171); true when it was refused and is to be sent again. -/
  | send (dest : Nat) (m : Msg) (refused : Bool)
  /-- An ACTIVATE or SPAWN whose record is on its way to this cluster's queue, or was refused there (R132). -/
  | launch (cluster : Nat) (r : LRec) (refused : Bool)
  /-- RECV on an empty mailbox, its destination pair and its acquire (R377). -/
  | recv (vd : Nat) (acq : Bool)
  | waitmsg
  /-- COPEN of a cell with references (R357). -/
  | copen (cluster index : Nat)
  | cretire (cluster index : Nat)
  /-- SEAL, SEALM or AVPOST on full target queues (R361). -/
  | seal
  | cbpop (cluster off : Nat)
  | cbfree (cluster index : Nat)
  | bwait (cluster off : Nat)
  /-- A full TE queue (R146); true for an XRESTART (R373). -/
  | te (cluster cls : Nat) (restart : Bool)
  | avstart (av : Nat)
  /-- AVLOAD waiting for both anvil contexts to halt, then for its copy (R380). -/
  | avload (av : Nat) (copying : Bool)
  | coll
  | forGrant
  | faultwait (reqid : Nat)
  /-- A FAULTWAIT that found no free REQID (R126). -/
  | faultid
  /-- A SYS release behind a port in RETRAIN (R70, R333). -/
  | fenceSys
  | keyld (slot : Nat)
  | tlbinv
  | killing (name : Nat)
  deriving DecidableEq, Repr, Inhabited

/-- Unacknowledged or lost remote writes of a context towards one device (R68, R71). -/
structure Lost where
  dev : Nat
  count : Nat
  deriving DecidableEq, Repr, Inhabited

/-- A launch deadline attached to an activation (R128, R129). -/
structure DeadlineRec where
  gtc : Nat
  trap : Bool
  /-- The deadline record has been written. -/
  done : Bool
  deriving DecidableEq, Repr, Inhabited

/-- What a send, held at its instruction until it is accepted, then leaves behind (R152, R171): of a class-0 one the GTC of
its issue and whether it was demoted; whether it takes NXTDL; the scope of its release (R239). -/
structure Pledge where
  gtc : Nat
  demoted : Bool
  dl : Bool
  c0 : Bool := true
  rel : Option Scope := none
  deriving DecidableEq, Repr, Inhabited

/-- One barrel slot: the context that issues from it and what belongs to the slot (R6, R118, R121, R158). -/
structure Ctx where
  /-- ACTIVE; an inactive slot is IDLE (R158). -/
  active : Bool := false
  /-- The slot's own generation (R6). -/
  gen : Nat := 0
  /-- Name of the context in the slot: origin CXA and generation. They differ from the slot's for a migrated context. -/
  nameCxa : Nat := 0
  nameGen : Nat := 0
  pc : Word := 0
  x : Vector Word 32 := Vector.replicate 32 0
  v : Vector VWord 16 := Vector.replicate 16 0
  m : Vector (BitVec 16) 4 := Vector.replicate 4 0
  /-- Shadow bank of x24 to x31 (R168). -/
  shadow : Vector Word 8 := Vector.replicate 8 0
  /-- FCSR bits 8:0 (R275). -/
  fcsr : BitVec 9 := 0
  priv : Priv := .u
  asid : Nat := 0
  cls : Nat := 0
  tl : Nat := 0
  tvec : Word := 0
  tepc1 : Word := 0
  tepc2 : Word := 0
  tcause1 : Word := 0
  tcause2 : Word := 0
  tval1 : Word := 0
  tval2 : Word := 0
  tscr : Vector Word 4 := Vector.replicate 4 0
  mhEn : Bool := false
  mhInh : Bool := false
  mhMask : Bool := false
  mhvec : Word := 0
  mepc : Word := 0
  /-- Cycles MASK has been set (R169). -/
  masked : Nat := 0
  sepc : Word := 0
  svcvec : Word := 0
  pts : Nat := 0
  mts : Nat := 0
  mrts : Nat := 0
  /-- Drift counter (R238). -/
  drift : Nat := 0
  mtrapm : BitVec 16 := 0
  nxtdl : Word := 0
  msgdev : Nat := 0
  /-- Pending asynchronous causes (R188). -/
  pendMask : Bool := false
  pendDl : Bool := false
  pendView : BitVec 16 := 0
  deadline : Option DeadlineRec := none
  /-- Launch TAG (R113, R124) and the GTC of the activation (R140). -/
  tag : Word := 0
  born : Nat := 0
  /-- GTC of the last class-0 SEND, ACTIVATE or SPAWN (R152). -/
  lastC0 : Option Nat := none
  /-- `lastC0` came out of an image, which holds bits 31:0 alone (R197). -/
  c0Short : Bool := false
  pledge : Option Pledge := none
  /-- The seal deadlines of its cells are paused until it issues (R199 to R201). -/
  dlPaused : Bool := false
  /-- Own energy meter (R34). -/
  meter : Nat := 0
  mailbox : List Msg := []
  sb : List SbEntry := []
  /-- Ordinary loads whose data has not returned, oldest first (R310). -/
  loads : List LoadReq := []
  /-- The word that the last fetch brought, not issued yet, and where it stands (R233). -/
  fetched : Option (Nat × Nat) := none
  /-- Core cycles at which the results of divides and square roots are readable, by register (R310). -/
  busy : FMap Nat := []
  wait : Wait := .none
  /-- Cluster cycle at which the instruction that waits was issued; kept while it is retried (R171, R206, R334). -/
  waitSince : Option Nat := none
  /-- The instruction that is retried has parked (ABND of R181). -/
  parked : Bool := false
  /-- A SYS release that has parked stands at its instruction: the message handler is not raised until it completes (R333). -/
  fencing : Bool := false
  grant : Option Grant := none
  /-- Remote writes whose ACK or NACK is outstanding (R68), and those lost with a port (R71). -/
  unacked : Nat := 0
  lost : List Lost := []
  /-- An instruction has issued since activation, the last TRET to TL0 and the last MRET (R188), since the last MRET
  (R168). -/
  ranTrap : Bool := false
  ranHnd : Bool := false
  /-- Core cycle of the last issue, and since when the context has been ready (R142, R143). -/
  lastIssue : Option Nat := none
  readySince : Option Nat := none
  /-- Group slots as they apply, and a held write (R121): VALID and the four ids. -/
  grpValid : BitVec 4 := 0
  grp : Vector (BitVec 8) 4 := Vector.replicate 4 0
  grpHeld : Option (BitVec 36) := none
  /-- The class-0 record that has chosen this context as its victim (R140, R196). -/
  preempt : Option LRec := none
  /-- The slot is to be disabled when the image has been saved (R157). -/
  offAfter : Bool := false
  /-- Being killed: the slot turns IDLE when the store buffer has drained (R161). -/
  dying : Bool := false
  /-- Being moved: markers still to arrive, by class (R151). -/
  moving : Option (List Nat × Nat) := none
  /-- The FAULTWAIT reply that has arrived: failed or resolved (R190). -/
  faultDone : Option Bool := none
  deriving DecidableEq, Repr, Inhabited

/-- A SAVED context of a slot (R158, R197): its name; the image stands in memory. What the image does not hold stays
here: remote writes tracked by name in the cluster (R196). -/
structure Saved where
  cxa : Nat
  gen : Nat
  unacked : Nat
  lost : List Lost
  tag : Word
  born : Nat
  deadline : Option DeadlineRec
  faultReq : Option Nat
  /-- A remote AMO reply is outstanding (R196): its destination register and width. -/
  amo : Option (Nat × Nat)
  /-- Source devices of the messages in the image, oldest first. -/
  devs : List Nat
  /-- An instruction has issued as R188 and R168 ask. -/
  ranTrap : Bool
  ranHnd : Bool
  deriving DecidableEq, Repr, Inhabited

/-! ## Swarm cores -/

/-- A TLB entry (R225): the page's address space, first virtual byte, level (0 64 KiB, 1 2 MiB, 2 64 MiB), leaf. -/
structure TlbEntry where
  asid : Nat
  va : Nat
  level : Nat
  leaf : Word
  deriving DecidableEq, Repr, Inhabited

/-- An L1 copy of a line (R215, R232): line number, data, timestamps, lease and the cluster cycle its AGE counts from. -/
structure L1Copy where
  line : Nat
  data : List Byte
  wts : Nat
  rts : Nat
  lease : Nat
  since : Nat
  deriving DecidableEq, Repr, Inhabited

/-- A swarm core: its barrel, caches and thermal state (R31, R134, R143, R215, R225). -/
structure Core where
  cyc : Nat := 0
  p0 : Nat := 15
  p1 : Nat := 15
  /-- Core cycle of the last ageing issue. -/
  aged : Option Nat := none
  l1d : List L1Copy := []
  l1i : List L1Copy := []
  tlb : List TlbEntry := []
  /-- CORESCHED as written, and the bits each context is governed by (R134). -/
  pool : BitVec 16 := 0
  c0res : BitVec 16 := 1
  poolEff : BitVec 16 := 0
  c0resEff : BitVec 16 := 1
  /-- Disabled barrel slots (R31). -/
  off : BitVec 16 := 0
  temp : Nat := 0
  lastOff : Option Nat := none
  lastOn : Option Nat := none
  lastRegain : Option Nat := none
  /-- Cycle at which the divider is free, and the slots whose divides wait for it, oldest first (R310). -/
  divFree : Nat := 0
  divWait : List Nat := []
  /-- Clock-gated by a boost (R154). -/
  gated : Bool := false
  deriving DecidableEq, Repr, Inhabited

/-! ## Clusters -/

/-- Cell states (R208). -/
inductive CellSt where
  | free | opn | sealed | retiring
  deriving DecidableEq, Repr, Inhabited

/-- A POST on its way (R431): its tile queue, if it posts, the anvil context that issued it and that context's run. -/
structure APost where
  tgt : Option Nat
  av : Nat
  c : Nat
  run : Nat
  deriving DecidableEq, Repr, Inhabited

/-- A cell descriptor (R208). -/
structure Cell where
  st : CellSt := .free
  cgen : Nat := 0
  owner : Nat := 0
  base : Nat := 0
  gran : Nat := 0
  rows : Nat := 0
  pitch : Nat := 0
  fmt : Nat := 0
  zero : Bool := false
  dlv : Bool := false
  dlp : Bool := false
  /-- The expiry of its deadline has reached the table and waits for counted writes: what comes later comes after the seal
  (R214, R244). -/
  dlx : Bool := false
  tout : Bool := false
  dltgt : Nat := 0
  refcnt : Nat := 0
  dlscope : Nat := 0
  sts : Nat := 0
  cts : Nat := 0
  dlrem : Nat := 0
  valid : BitVec 32 := 0
  /-- Writes counted against the cell that have not performed (R244). -/
  counted : Nat := 0
  /-- A timer seal's post that waits for room, and the GTC of its next try (R212). -/
  tpost : Option Nat := none
  /-- An anvil POST that waits for counted writes (R431). -/
  apost : Option APost := none
  deriving DecidableEq, Repr, Inhabited

/-- Who waits for a comb AMO: nobody (destination x0), a context, or a remote originator (R206). -/
inductive AmoWho where
  | nobody
  | ctx (cxa rd : Nat)
  | remote (p : Packet)
  deriving DecidableEq, Repr, Inhabited

/-- An AMO in, or waiting for, a bank's deferred-signal buffer (R206). -/
structure DefSig where
  /-- Comb byte offset of the operand. -/
  off : Nat
  op : AmoOp
  width : Nat
  b : Word
  exp : Word
  who : AmoWho
  /-- It holds one of the bank's 32 entries. -/
  entered : Bool
  since : Nat
  deriving DecidableEq, Repr, Inhabited

/-- Full/empty operations (R334). -/
inductive FeOp where
  | ldfe | ldff | stef | stff
  deriving DecidableEq, Repr, Inhabited

/-- A full/empty request parked at a bank (R335). -/
structure FeReq where
  word : Nat
  op : FeOp
  cxa : Nat
  rd : Nat
  data : Word
  deriving DecidableEq, Repr, Inhabited

/-- A spilled message (R170), numbered in order of arrival. -/
structure Spilled where
  dest : Nat
  msg : Msg
  num : Nat
  deriving DecidableEq, Repr, Inhabited

/-- A forwarding-table entry (R150). -/
structure Fwd where
  gen : Nat
  origin : Nat
  here : Nat
  moving : Bool
  deriving DecidableEq, Repr, Inhabited

/-- A transfer command as the TE holds it (R369, R247, R191). -/
structure TeCmd where
  id : Nat
  /-- 0 XFER, 1 XGATHER, 2 XSCATTER. -/
  kind : Nat
  issuer : Nat
  asid : Nat
  priv : Priv
  cls : Nat
  scope : Nat
  acq : Bool
  rel : Bool
  noalloc : Bool
  prio : Nat
  compl : Nat
  src : Nat
  dst : Nat
  dstCell : Bool
  dstPeer : Option Nat
  handle : Nat
  len : Nat
  rows : Nat
  index : Nat
  stride : Nat
  packpitch : Nat
  complAddr : Nat
  tag : Word
  clock : Nat
  wmax : Nat
  running : Bool
  done : Nat
  written : Nat
  /-- The circular-buffer slot claimed (R176). -/
  slot : Option Nat
  /-- Bytes whose charge has been taken (R26), and the segment grant held. -/
  charged : Nat
  grant : Option Nat
  waitGrant : Bool
  /-- Remote writes not yet acknowledged. -/
  unacked : Nat
  /-- All data moved; waiting for the ACKs of a SYS release (R247). -/
  moved : Bool
  /-- Must end with this status (R368). -/
  fail : Nat
  /-- Order of issue by the issuer. -/
  seq : Nat
  /-- Of a command queued again: the remote accesses of its issuer with a smaller serial number are waited for (R247). -/
  after : Nat := 0
  deriving DecidableEq, Repr, Inhabited

/-- A restart-table entry (R191). -/
structure Restart where
  cmd : Option TeCmd
  seq : Nat
  preempted : Bool
  deriving DecidableEq, Repr, Inhabited

/-- The home of one group in this cluster (R136): the marked clusters and the cluster chosen last. -/
structure GroupHome where
  marks : NSet
  last : Option Nat
  deriving DecidableEq, Repr, Inhabited

/-- A boost that a bank of this cluster has started (R154, R155): slot offset and group, and the clusters for which heat
has ended it. -/
structure BoostRec where
  off : Nat
  group : Nat
  ended : NSet
  deriving DecidableEq, Repr, Inhabited

/-- A cluster: clock, comb structures, cells, TE, scheduler, message router (chapters 1, 4, 5, 7). -/
structure Cluster where
  /-- Cycles of the arithmetic clock, and the fraction of one in twentieths (R19). -/
  cyc : Nat := 0
  frac : Nat := 0
  /-- CLKCAP.CUR and STEP (R20), the step it holds outside a boost, steps that heat has taken and not given back (R32),
  the boost, an ordered change. -/
  cur : Nat := 10
  cap : Nat := 14
  base : Nat := 10
  heat : Nat := 0
  boost : Nat := 0
  order : Option Nat := none
  meter : Nat := 0
  cells : FMap Cell := []
  /-- Comb words whose full/empty bit is EMPTY; poisoned words; words with an undetected double error (R205, R40). -/
  empty : NSet := []
  poison : NSet := []
  latent : NSet := []
  /-- Words with an undetected single error, which SECDED corrects (R40, R42). -/
  soft : NSet := []
  defer : List DefSig := []
  fe : List FeReq := []
  /-- Offsets of LIVE barrier slots and circular-buffer descriptors (R173, R175). -/
  bars : NSet := []
  cbs : NSet := []
  boosts : List BoostRec := []
  te : List TeCmd := []
  teNext : Nat := 0
  /-- Command of each class that moved last (R146). -/
  teRot : List Nat := [0, 0, 0, 0]
  /-- Chunks by which each class has been passed over (R146). -/
  tePassed : List Nat := [0, 0, 0, 0]
  restarts : FMap Restart := []
  teTlb : List TlbEntry := []
  /-- The launch queues, one list in arrival order; each record carries its class (R130). -/
  lq : List LRec := []
  /-- Records that the home cluster of their group has forwarded here, oldest first (R136). -/
  arrived : List LRec := []
  homes : FMap GroupHome := []
  /-- Groups for which an idle notice saying "idle" was last sent (R136). -/
  told : NSet := []
  fwd : FMap Fwd := []
  spill : List Spilled := []
  deadltr : Nat := 0
  spillSize : Nat := 4
  spillFull : Nat := 0
  spillPeak : Nat := 0
  demoted : Nat := 0
  preempts : Nat := 0
  deriving DecidableEq, Repr, Inhabited

/-! ## Anvils (R177, R285, R393, R400, R404, R409) -/

/-- A stride entry of a loop level (R401). -/
structure Stride where
  reg : Nat := 0
  str : Int := 0
  deriving DecidableEq, Repr, Inhabited

/-- A loop level (R400). -/
structure Level where
  active : Bool := false
  start : Nat := 0
  last : Nat := 0
  trip : Nat := 0
  stages : Nat := 1
  i : Nat := 0
  str : Vector Stride 4 := Vector.replicate 4 {}
  /-- Order in which active levels started; the largest is the innermost. -/
  order : Nat := 0
  deriving DecidableEq, Repr, Inhabited

/-- An operand tile (R415): format tag, rows of 64 bytes by number (an unlisted row is zero), valid rows, rows marked
poisoned with the handle and cell row their load recorded (R413). -/
structure Tile where
  tag : Nat := 0
  rows : FMap (List Byte) := []
  valid : BitVec 32 := 0
  poison : FMap (Nat × Nat) := []
  deriving DecidableEq, Repr, Inhabited

/-- A scale register: 32 rows of 32 bytes by number (R265), rows marked poisoned. -/
structure ScaleReg where
  rows : FMap (List Byte) := []
  poison : FMap (Nat × Nat) := []
  deriving DecidableEq, Repr, Inhabited

/-- What stops an anvil context from issuing (R178). -/
inductive AvWait where
  | none | waitq (mask : Nat) | waittrg (t : Nat) | forGrant | vgwait | scanwait
  deriving DecidableEq, Repr, Inhabited

/-- The write an issued operation makes at its latency (R393). Register kinds by number. -/
inductive AvEff where
  | s (r : Nat) (v : BitVec 32)
  | h (r : Nat) (v : BitVec 32)
  | gate (l : Nat)
  | fpc (v : BitVec 12)
  | flags (v : BitVec 12)
  | tileA (n : Nat) (t : Tile)
  | tileB (n : Nat) (t : Tile)
  /-- Half of a tile: its rows from this one on (R415). -/
  | halfTile (b : Bool) (n first : Nat) (t : Tile)
  | scale (b : Bool) (r : ScaleReg)
  | w (r : Nat) (v : List (BitVec 36)) (flags : BitVec 12)
  /-- A load into a row register, with its mark if the row was poisoned (R413, R415). -/
  | ldw (r : Nat) (v : List (BitVec 36)) (mark : Option (Nat × Nat))
  | pl (r : Nat) (lane : Nat) (v : BitVec 36) (flags : BitVec 12)
  | plAll (r : Nat) (v : BitVec 36)
  /-- Lanes of an accumulator by lane number (R417). -/
  | acc (r : Nat) (lanes : FMap (BitVec 36)) (flags : BitVec 12)
  /-- Every lane of an accumulator zero (R429). -/
  | zacc (r : Nat)
  /-- An MMA that has not read its accumulator yet (R394): operands, half flag, halves, the tiles and scales read. -/
  | mma (o : MmaOps) (half : Bool) (ha hb : Nat) (tail : Option Nat) (a b : Tile) (sa sb : ScaleReg)
  /-- Bytes stored into a cell: cluster, index, CGEN, comb offset of each row with its bytes, rows written (R430). -/
  | store (cluster index gen : Nat) (rows : List (Nat × List Byte)) (mask : BitVec 32) (flags : BitVec 12)
  deriving DecidableEq, Repr, Inhabited

/-- An operation in flight (R393): the run of its context that issued it, the cycle at which its result is readable. -/
structure AvPend where
  run : Nat
  due : Nat
  eff : AvEff
  deriving DecidableEq, Repr, Inhabited

/-- A VGA run (R420, R421). -/
structure VgaRun where
  acc : Nat
  stream : Nat
  act : Nat
  vecs : Nat
  col : Nat
  deriving DecidableEq, Repr, Inhabited

/-- A SCAN run (R424). -/
structure ScanRun where
  sreg : Nat
  src : Nat
  out : Nat
  deriving DecidableEq, Repr, Inhabited

/-- An operation of the VGA unit (R395, R421): its context and run, the cycles it still needs of those in which no load
slot uses the anvil's port. -/
structure UnitJob where
  c : Nat
  run : Nat
  left : Nat
  op : VgaRun ⊕ ScanRun
  deriving DecidableEq, Repr, Inhabited

/-- An AVHALT that goes out when every write and seal of its run has performed (R399, R382): s0 is noted if the context
starts again before. -/
structure AvNotice where
  c : Nat
  run : Nat
  cls : Nat
  dest : Nat
  pc : Nat
  s0 : Option (BitVec 32)
  stopped : Bool
  deriving DecidableEq, Repr, Inhabited

/-- An error that VGWAIT or SCANWAIT reports (R422, R425): cause, handle, row. -/
structure RunErr where
  cause : Nat
  handle : Nat
  row : Nat
  deriving DecidableEq, Repr, Inhabited

/-- An anvil context (R177, R285). -/
structure AvCtx where
  running : Bool := false
  /-- Number of starts: an operation of an earlier run writes no register of this one. -/
  run : Nat := 0
  pc : Nat := 0
  startCls : Nat := 0
  notify : Bool := false
  starter : Nat := 0
  /-- Cycle at which the start's eight cycles are over. -/
  readyAt : Nat := 0
  s : Vector (BitVec 32) 16 := Vector.replicate 16 0
  h : Vector (BitVec 32) 8 := Vector.replicate 8 0
  lc : Vector (BitVec 16) 6 := Vector.replicate 6 0
  levels : Vector Level 6 := Vector.replicate 6 {}
  starts : Nat := 0
  gate : Nat := 0
  fpc : BitVec 12 := 0
  ta : FMap Tile := []
  tb : FMap Tile := []
  sa : ScaleReg := {}
  sb : ScaleReg := {}
  /-- Row registers and latches by number, 32 lanes each; an unlisted one is all zero. -/
  w : FMap (List (BitVec 36)) := []
  pl : FMap (List (BitVec 36)) := []
  /-- Row registers marked poisoned, with the handle and cell row their load recorded (R413). -/
  wp : FMap (Nat × Nat) := []
  /-- Accumulators: lane 1024 × register + 32 × row + column; an unlisted lane is zero. -/
  acc : FMap (BitVec 36) := []
  grant : Option Grant := none
  /-- ADMIT of the waiting bundle has been answered. -/
  admitted : Bool := false
  /-- Reserved entry: queue and entry number (R405). -/
  resv : Option (Nat × Nat) := none
  wait : AvWait := .none
  /-- Bundles left of the two delay bundles, and the target of a taken branch (R396). -/
  delay : Nat := 0
  target : Option Nat := none
  pend : List AvPend := []
  vgaErr : Option RunErr := none
  scanErr : Option RunErr := none
  /-- Wait points at which it was able to run and passed over (R178). -/
  passed : Nat := 0
  deriving DecidableEq, Repr, Inhabited

/-- An entry of a tile queue (R404): handle, FLAGS, the anvil context it is reserved for, its arrival number. -/
structure TqEntry where
  handle : BitVec 32
  flags : Nat
  resv : Option Nat
  num : Nat
  deriving DecidableEq, Repr, Inhabited

/-- A tile queue: entries oldest first, ARRV, entries promised to seals in progress, and since when it has been passed
over (R147, R404). -/
structure TileQ where
  es : List TqEntry := []
  arrv : Nat := 0
  since : Option Nat := none
  /-- Entries promised to a POST whose seal waits for counted writes (R431). -/
  promised : Nat := 0
  deriving DecidableEq, Repr, Inhabited

/-- A trigger register (R409). -/
structure Trigger where
  base : Nat := 0
  thresh : Nat := 0
  armed : Bool := false
  fired : Bool := false
  ctx : Nat := 0
  queue : Nat := 0
  sreg : Nat := 0
  /-- Run of the context that armed it. -/
  run : Nat := 0
  deriving DecidableEq, Repr, Inhabited

/-- A start request (R177, R381). -/
structure AvStart where
  pc : Nat
  cls : Nat
  notify : Bool
  s0 : BitVec 32
  s1 : BitVec 32
  starter : Nat
  seq : Nat
  deriving DecidableEq, Repr, Inhabited

/-- An AVLOAD that waits for both contexts to halt or is copying (R380): the parked context, its source and place. -/
structure AvLoad where
  cxa : Nat
  /-- The issuer's address space, privilege and clock at issue. -/
  asid : Nat
  priv : Priv
  clock : Nat
  va : Nat
  off : Nat
  len : Nat
  copying : Bool
  deriving DecidableEq, Repr, Inhabited

/-- An anvil (R177, R178, R285). -/
structure Anvil where
  cyc : Nat := 0
  a : AvCtx := {}
  b : AvCtx := {}
  /-- The issuing context, 0 A or 1 B, and the cycle at which a switch ends. -/
  cur : Nat := 0
  switchEnd : Nat := 0
  /-- The last switch was for a queue of lower class, and no bundle has passed a wait point since (R178). -/
  urged : Bool := false
  startq : List AvStart := []
  qs : Vector TileQ 8 := Vector.replicate 8 {}
  trg : Vector Trigger 4 := Vector.replicate 4 {}
  /-- Triggers that fired in the last cycle: arming context, its run, s register to be written (R410). -/
  fire : List (Nat × Nat × Nat) := []
  /-- Cycles until which the load path, the MMA unit and the STC unit are occupied (R393). -/
  ldBusy : Nat := 0
  mmaBusy : Nat := 0
  stcBusy : Nat := 0
  /-- The VGA unit: what it serves, in issue order (R421). -/
  unit : List UnitJob := []
  loads : List AvLoad := []
  notices : List AvNotice := []
  meter : Nat := 0
  /-- TQCLASS as written, and as each context last saw it at a wait point (R147). -/
  tqclass : BitVec 16 := 0xFA50
  tqSeenA : BitVec 16 := 0xFA50
  tqSeenB : BitVec 16 := 0xFA50
  deriving DecidableEq, Repr, Inhabited

/-! ## Dies, the L2 and the memories -/

/-- A request that waits at a bellows (R27). -/
structure AdReq where
  who : Holder
  cls : Nat
  n : Nat
  lvl : Nat
  /-- Window and mesh cycle in which it arrived, and the requester's source number (R29). -/
  win : Nat
  mesh : Nat
  src : Nat
  deriving DecidableEq, Repr, Inhabited

/-- An entry of the thermal ranking table (R30). -/
structure Rank where
  cluster : Nat
  temp : Nat
  free : Nat
  deriving DecidableEq, Repr, Inhabited

/-- A die (R22 to R33, R69, R153). -/
structure Die where
  level : Int := 0
  /-- The budget of the current window in EU, and its number. -/
  b : Nat := 0
  win : Nat := 0
  reqs : List AdReq := []
  /-- First mesh cycle in which a request can still arrive: one that was granted on arrival closes its cycle (R29). -/
  nextMesh : Nat := 0
  meter : Nat := 0
  /-- The die meter and the 48 cluster meters together, as they stood at the last window boundary (R35). -/
  mark : Nat := 0
  ranks : List Rank := []
  hot : Nat := 95
  boostEn : Bool := true
  boostSleep : Nat := 12
  boostCost : Nat := 800
  fits : Nat := 0
  llTlb : List TlbEntry := []
  deriving DecidableEq, Repr, Inhabited

/-- An L2 line at its home (R216): timestamps, class of the mapping page, priority, key slot, dirty bit, last use. -/
structure Home where
  wts : Nat
  rts : Nat
  cls : Nat
  prio : Nat
  key : Nat
  dirty : Bool
  used : Nat
  deriving DecidableEq, Repr, Inhabited

/-- A back-invalidation that the host has not answered (R105, R107): when it was sent, whether the event record was
written, and the device steps that wait for it. -/
structure BackInv where
  since : Nat
  reported : Bool
  retry : List Instr
  deriving DecidableEq, Repr, Inhabited

/-! ## The fabric (chapter 2) -/

/-- Port states (R53). -/
inductive PortSt where
  | down | training | up | retrain | failed
  deriving DecidableEq, Repr, Inhabited

/-- A Umjan port (R47 to R58). -/
structure Port where
  enable : Bool := false
  st : PortSt := .down
  peer : Nat := 0xFFF
  retrains : Nat := 0
  badpkt : Nat := 0
  noroute : Nat := 0
  /-- Next SEQ to send, and the SEQ of the last flit received in order. -/
  txSeq : Nat := 0
  rxSeq : Nat := 4095
  /-- A flit is missing and has been asked for; flits are dropped until it arrives (R50). -/
  rxGap : Bool := false
  /-- The peer's last ACKSEQ, and replay requests since it advanced. -/
  ackSeq : Nat := 4095
  reqRun : Nat := 0
  /-- Packets queued for each class, in order, and the credits held for each. -/
  txq : List Packet := []
  credits : List Nat := [64, 64, 64, 64]
  /-- Credits of consumed flits that go back with the next flit sent. -/
  owed : List Nat := [0, 0, 0, 0]
  /-- Flit times each class has waited with a packet and a credit (R49). -/
  waited : List Nat := [0, 0, 0, 0]
  /-- The last 512 numbered flits sent, with their SEQ; the flit that is sent again next; a replay request is to go out; the
  flit on the lanes (R48, R50). -/
  replay : List (Nat × List Byte) := []
  resend : Option Nat := none
  ask : Bool := false
  wire : List Byte := []
  /-- GTC of entry into TRAINING or RETRAIN. -/
  since : Nat := 0
  deriving DecidableEq, Repr, Inhabited

/-- A route table entry as written (R58). -/
abbrev Route := BitVec 16

/-- What an outstanding packet tag stands for (R68): a write or CPUT of a context, one of a TE command, an AMO of a
context with its destination, an RSD. -/
inductive TagKind where
  | write
  | te (cluster cmd : Nat)
  | amo (rd width : Nat)
  | rsd
  deriving DecidableEq, Repr, Inhabited

/-- An outstanding packet: its issuer's name, where it goes, the port it left by. -/
structure TagRec where
  kind : TagKind
  issuer : Nat
  dest : Nat
  port : Nat
  cls : Nat
  addr : Word
  /-- Order of issue. -/
  seq : Nat
  deriving DecidableEq, Repr, Inhabited

/-- View slot states (R74). -/
inductive VSt where
  | free | forming | active | changing | stalled | excluded
  deriving DecidableEq, Repr, Inhabited

/-- Where a member stands in the agreement (R80). -/
inductive Agree where
  | idle
  | changing (cand since : Nat)
  | proposing (round : Nat) (list : List Member) (acks answers : NSet) (since : Nat) (newVid : Nat)
  | bound (cand since : Nat)
  deriving DecidableEq, Repr, Inhabited

/-- A view slot of the CE (R74 to R95). -/
structure ViewSlot where
  st : VSt := .free
  quorum : Bool := true
  vid : Nat := 0
  /-- The member list as written or installed; ranks follow ascending device id. A zero entry is not listed. -/
  members : FMap Word := []
  view : List Member := []
  vdiscard : Nat := 0
  hellos : NSet := []
  formSince : Nat := 0
  /-- Suspected members, by device id. -/
  suspects : NSet := []
  agree : Agree := .idle
  /-- GTC of the last heartbeat of each member since the install, by device id. -/
  beats : FMap Nat := []
  lastBeat : Nat := 0
  /-- Incarnations recorded for the devices that have been in a view of this slot. -/
  known : FMap Nat := []
  /-- Devices a FETCH has gone to and whose COMMIT is awaited (R76). -/
  fetching : NSet := []
  /-- The slot has sent JOIN_REQ (R94). -/
  joining : Bool := false
  /-- A WAIT or ACK to a join proposal holds new COLLs until the install (R94). -/
  holdColl : Bool := false
  /-- Join requests that wait for the end of a change, and the members of the views this slot has held (R94, R89). -/
  joins : List Member := []
  hist : FMap (List Nat) := []
  deriving DecidableEq, Repr, Inhabited

/-- A collective operation of this device (R84 to R92). -/
structure CeOp where
  id : Nat
  issuer : Nat
  /-- Cluster of the issuer's CXA. -/
  own : Nat
  asid : Nat
  priv : Priv
  /-- PTS of the issuer after the release of COLL (R248). -/
  clock : Nat
  desc : Nat
  op : Nat
  redop : Nat
  ety : Nat
  policy : Nat
  slot : Nat
  cls : Nat
  count : Nat
  input : Nat
  output : Nat
  root : Nat
  tag : Nat
  viewid : Nat
  /-- Held by a FORMING or CHANGING slot or a pending join (R84, R94). -/
  held : Bool
  /-- The view in which it started, whose ranks the ranges use, and the view it last ran in; the members at the start and
  those still in the operation, by device id. -/
  vid0 : Nat
  ran : Nat
  start : List Nat
  live : List Nat
  /-- It has completed here and takes part only for the others (R89). -/
  past : Bool
  changed : Bool
  /-- R90 is at work on it. -/
  reweight : Bool
  /-- INPUT has been read; its elements (R88). -/
  ready : Bool
  inp : List Word
  /-- Partials received in the start view, data received since the last change with the source's rank, completed
  chunks held, and the steps already sent. -/
  parts : List CeData
  got : List (Nat × CeData)
  /-- Pieces of data that have not all come, with the source's rank. -/
  pieces : List (Nat × CeData)
  chunks : FMap (List Word)
  sent : NSet
  deriving DecidableEq, Repr, Inhabited

/-! ## Host interface (chapter 3) -/

/-- A queue control block and what the device holds for it (R122, R123). -/
structure HostQ where
  base : Nat := 0
  en : Bool := false
  moderate : Nat := 0
  vector : Nat := 0
  logsize : Nat := 6
  prod : Nat := 0
  cons : Nat := 0
  held : List (List Byte) := []
  dropped : Nat := 0
  lastIrq : Option Nat := none
  owedIrq : Bool := false
  deriving DecidableEq, Repr, Inhabited

/-- A group table entry (R119). -/
structure Group where
  bcluster : Nat := 0
  boffset : Nat := 0
  members : Nat := 0
  supervisor : Nat := 0
  valid : Bool := false
  cls : Nat := 0
  asid : Nat := 0
  entrypc : Nat := 0
  deriving DecidableEq, Repr, Inhabited

/-- An outstanding fault service request (R125, R126). -/
structure FaultReq where
  asid : Nat
  range : Nat
  /-- Context names that wait for it, with the fault each waits for as TVAL of XLATE gives it (R186). -/
  who : List (Nat × Nat)
  deriving DecidableEq, Repr, Inhabited

/-- DEVSTAT.STATE (R46, R102). -/
inductive DevSt where
  | reset | auth | hbmTrain | config | ready | bootFail | failed
  deriving DecidableEq, Repr, Inhabited

/-- An agent that has a cycle to run. -/
inductive Agent where
  /-- A swarm core, and the barrel slots it has tried in this cycle without an issue. -/
  | core (k : Nat) (tried : List Nat)
  | anvil (av : Nat)
  /-- The cell table of a cluster, which takes expired deadlines after what reached it in the same cycle (R212, R214). -/
  | cells (cluster : Nat)
  /-- The second cycle of this nanosecond begins in these clusters. -/
  | cycle (clusters : List Nat)
  deriving DecidableEq, Repr, Inhabited

/-- The device. -/
structure State where
  /-- Context the swarm instruction in hand belongs to, by the slot it issues from. -/
  cx : Nat := 0
  /-- Anvil the slot in hand belongs to. -/
  av : Nat := 0
  /-- Timed events that are due, run before everything else. -/
  due : List Instr := []
  /-- Inputs and happenings in flight, in the order in which they come about. -/
  agenda : List Instr := []
  /-- Steps by which the head of the agenda has been put off. -/
  held : Nat := 0
  /-- Agents that still have a cycle in this tick. -/
  turns : List Agent := []
  /-- Counter of free values. -/
  fresh : Nat := 0
  /-- Counter that orders records, requests and commands. -/
  seq : Nat := 0
  /-- Memory by unified key, canonical: keys rise, no entry is zero. -/
  mem : List Host.Cell := []
  ctxs : FMap Ctx := []
  saved : FMap Saved := []
  cores : FMap Core := []
  clusters : FMap Cluster := []
  anvils : FMap Anvil := []
  dies : FMap Die := []
  /-- L2 lines by line number, slice timestamps by slice. -/
  home : FMap Home := []
  sliceTs : FMap Nat := []
  /-- Lines that the host may cache, in order of entry (R105); unanswered back-invalidations by line. -/
  hostDir : List Nat := []
  backInv : FMap BackInv := []
  /-- HBM lines that are poisoned, and errors that no access has met yet (R39). -/
  poison : NSet := []
  latent : FMap EccResult := []
  /-- Errors in the L2's data of a line that no access has met yet (R42). -/
  latentL2 : FMap EccResult := []
  /-- Key under which a line's contents were written, by line; unlisted lines: the key of slot 0 (R45, R46). -/
  lineKey : FMap KeyVal := []
  keys : FMap KeyVal := []
  /-- Keys handed to the management controller and not yet loaded, with their slot, by the slot of the issuer (R391). -/
  keyReqs : FMap (Nat × KeyVal) := []
  resets : Nat := 0
  /-- GTC of the last corrected-error record of a pseudo-channel, and errors since (R42). -/
  eccLast : FMap (Nat × Nat) := []
  scrub : Nat := 0
  btsN : Nat := 0
  epoch : Bool := false
  rebaseActive : Bool := false
  rebaseCount : Nat := 0
  rebaseAgain : Bool := false
  hts : Nat := 0
  gtc : Nat := 0
  gtcRun : Bool := false
  /-- Nanoseconds since power good, for the rate correction of R61; what is left to correct. -/
  ticks : Nat := 0
  slew : Int := 0
  gtcParent : Nat := 0
  gtcEn : Bool := false
  gtcLost : Bool := false
  gtcSynced : Bool := false
  gtcExchanges : Nat := 0
  /-- Nanosecond at which the stamp of the exchange in progress left (R61). -/
  syncSince : Option Nat := none
  devst : DevSt := .reset
  failsrc : Nat := 0
  early : Nat := 0
  stopped : Bool := false
  devid : Nat := 0xFFF
  incarnation : Nat := 0
  hbmLocal : Nat := 0
  watts : Nat := 1800
  linkRate : Nat := 0
  linkWidth : Nat := 0
  atomics : Bool := false
  badacc : Nat := 0
  ctxsaveBase : Nat := 0
  ctxsaveEn : Bool := false
  asidroot : Nat := 0
  tlbBusy : Bool := false
  /-- The invalidation in progress, and the context that asked for it, if one did. -/
  tlbReq : Option (Word × Option Nat) := none
  quota : Vector Nat 4 := #v[8, 4, 2, 2]
  lease : Vector Nat 4 := #v[64, 8, 16, 8]
  fwaddr : Nat := 0
  fwlen : Nat := 0
  fwBusy : Bool := false
  fwResult : Nat := 0
  /-- SHA-256 of the firmware image that the boot ROM has taken up, which runs once it is accepted (R43, R44). -/
  fwDigest : List Byte := []
  nonce : List Byte := []
  attBusy : Bool := false
  attLen : Nat := 0
  report : List Byte := []
  /-- Queue 0: events. Queue 1: fault service. -/
  evq : HostQ := {}
  fsq : HostQ := {}
  badreply : Nat := 0
  irqs : FMap Nat := []
  /-- Data returned by the last host read of BAR0 or HDM; whether it completed with Unsupported Request. -/
  hostRd : List Byte := []
  hostUr : Bool := false
  /-- AER uncorrectable error status, and the RAS capability of the CXL component registers: uncorrectable status, mask and
  severity, correctable status and mask, control (R97, R99, log 69). -/
  aer : Nat := 0
  ras : Vector Nat 6 := #v[0, 0x1CFFF, 0x1CFFF, 0, 0x7F, 0]
  /-- Base and size of HDM decoders 0 and 1 (R103). -/
  hdm : Vector (Nat × Nat) 2 := Vector.replicate 2 (0, 0)
  launchBuf : List LRec := []
  launchDropped : Nat := 0
  launchMalformed : Nat := 0
  launchDemoted : Nat := 0
  lastC0Launch : Option Nat := none
  groups : FMap Group := []
  faults : FMap FaultReq := []
  ports : FMap Port := []
  deadTimeout : Nat := 20
  inboundEn : Bool := false
  inboundAsid : Nat := 0
  routes : FMap Route := []
  tags : FMap TagRec := []
  views : FMap ViewSlot := []
  ceOps : List CeOp := []
  /-- Collective data that came before the COLL or the install it belongs to: view slot, source device, view id, data. -/
  ceEarly : List (Nat × Nat × Nat × CeData) := []
  /-- Operations that have completed here: a view change can make other members rerun them (R89). -/
  cePast : List CeOp := []
  /-- Members whose mismatch notice is still to come for an operation that has ended here: slot, TAG, device (R85). -/
  ceDead : List (Nat × Nat × Nat) := []
  deriving DecidableEq, Repr, Inhabited

/-- The machine right after power good: DEVSTAT.STATE is RESET, the GTC is held at 0, every word of every comb holds
zero and is FULL, nothing runs (R46, R36, R205). Memory key slot 0 holds the random key of this reset (R45). -/
def State.reset : State := { keys := [(0, .boot 0)] }

end Sys2Proof.Machine
end

