-- ==== Sys2Proof/Machine/Flags.lean ====
section
/-!
DEFINITION. Floating point as the manual has it: number formats bit by bit (R258 to R262), exact values, the one
rounding of R276 with its flags, the output conversions of R279, the swarm operations of R318 to R323, the windowed sum
of R269, the value-group rounding of R273 and the special functions of R427. Every value is held exactly as sign, natural mantissa and exponent.
-/

namespace Sys2Proof.Machine

/-! ## Bits -/

/-- Bits hi:lo of a number, `n` of them from `lo`. -/
def bitsOf (w lo n : Nat) : Nat := w / 2 ^ lo % 2 ^ n

/-- A number of `n` bits read as two's complement. -/
def sint (w n : Nat) : Int := if w % 2 ^ n < 2 ^ (n - 1) then (w % 2 ^ n : Nat) else (w % 2 ^ n : Nat) - (2 ^ n : Nat)

/-- The `n`-bit two's-complement pattern of an integer. -/
def wrapN (n : Nat) (i : Int) : Nat := (i % (2 ^ n : Nat)).toNat

/-- A value clamped to a range. -/
def clampI (lo hi i : Int) : Int := if i < lo then lo else if hi < i then hi else i

/-! ## Flags and rounding modes -/

/-- The exception flags of FCSR and FPC (R275, R278). -/
structure Fl where
  nv : Bool := false
  dz : Bool := false
  of : Bool := false
  uf : Bool := false
  nx : Bool := false
  deriving DecidableEq, Repr, Inhabited

/-- Flags are sticky: both sets together. -/
def Fl.join (a b : Fl) : Fl := ⟨a.nv || b.nv, a.dz || b.dz, a.of || b.of, a.uf || b.uf, a.nx || b.nx⟩
/-- FCSR bits 4:0 (R275). -/
def Fl.fcsr (f : Fl) : BitVec 9 :=
  BitVec.ofNat 9 ((if f.nv then 16 else 0) + (if f.dz then 8 else 0) + (if f.of then 4 else 0)
    + (if f.uf then 2 else 0) + (if f.nx then 1 else 0))
/-- FPC bits 10:7 (R278). -/
def Fl.fpc (f : Fl) : BitVec 12 :=
  BitVec.ofNat 12 ((if f.nv then 1024 else 0) + (if f.of then 512 else 0) + (if f.uf then 256 else 0)
    + (if f.nx then 128 else 0))
/-- What FP36 accumulation and arithmetic may set: OF and NV (R269). -/
def Fl.accOnly (f : Fl) : Fl := { nv := f.nv, of := f.of }

/-- Rounding modes (R275, R278). -/
inductive Rm where
  | rne | rtz | rdn | rup | rmm
  deriving DecidableEq, Repr, Inhabited

/-- The mode a 3-bit field holds; 5 to 7 are never held (R275). -/
def rmOf : Nat → Rm
  | 1 => .rtz | 2 => .rdn | 3 => .rup | 4 => .rmm | _ => .rne

/-- RTZ, RDN for a positive value, RUP for a negative one (R279). -/
def Rm.towardZero (rm : Rm) (neg : Bool) : Bool :=
  match rm with
  | .rtz => true | .rdn => !neg | .rup => neg | _ => false

/-! ## Formats and exact values -/

/-- How a format spends its top exponent field (R260). -/
inductive Top where
  /-- Infinities and NaN. -/
  | ieee
  /-- Finite but for the all-ones pattern, a NaN: E4M3. -/
  | one
  /-- Every pattern is finite. -/
  | none
  deriving DecidableEq, Repr, Inhabited

/-- A floating-point format: exponent and fraction bits, bias, top field (R260). -/
structure Fmt where
  e : Nat
  m : Nat
  bias : Nat
  top : Top
  deriving DecidableEq, Repr, Inhabited

def Fmt.fp16 : Fmt := ⟨5, 10, 15, .ieee⟩
def Fmt.bf16 : Fmt := ⟨8, 7, 127, .ieee⟩
def Fmt.f32 : Fmt := ⟨8, 23, 127, .ieee⟩
def Fmt.f64 : Fmt := ⟨11, 52, 1023, .ieee⟩
def Fmt.e8m10 : Fmt := ⟨8, 10, 127, .ieee⟩
def Fmt.e4m3 : Fmt := ⟨4, 3, 7, .one⟩
def Fmt.e5m2 : Fmt := ⟨5, 2, 15, .ieee⟩
def Fmt.e3m2 : Fmt := ⟨3, 2, 3, .none⟩
def Fmt.e2m3 : Fmt := ⟨2, 3, 1, .none⟩
def Fmt.e2m1 : Fmt := ⟨2, 1, 1, .none⟩
def Fmt.fp36 : Fmt := ⟨8, 27, 127, .ieee⟩

/-- Bits of a pattern. -/
def Fmt.width (f : Fmt) : Nat := 1 + f.e + f.m
/-- Exponent of the least subnormal: 1 − bias − m. -/
def Fmt.emin (f : Fmt) : Int := 1 - f.bias - f.m

/-- The format of an OPF or vector element code. -/
def fmtOf : FFmt → Fmt
  | .f16 => .fp16 | .bf16 => .bf16 | .f32 => .f32 | .f64 => .f64 | .e4m3 => .e4m3 | .e5m2 => .e5m2

/-- An exact value: `man · 2^exp` with a sign; `man = 0` is a signed zero. -/
inductive FVal where
  | nan (signalling : Bool)
  | inf (neg : Bool)
  | num (neg : Bool) (man : Nat) (exp : Int)
  deriving DecidableEq, Repr, Inhabited

/-- The value of a pattern (R260). -/
def unpack (f : Fmt) (w : Nat) : FVal :=
  let frac := bitsOf w 0 f.m
  let ex := bitsOf w f.m f.e
  let neg := bitsOf w (f.m + f.e) 1 == 1
  if f.top = .ieee ∧ ex = 2 ^ f.e - 1 then
    if frac = 0 then .inf neg else .nan (decide (frac < 2 ^ (f.m - 1)))
  else if f.top = .one ∧ ex = 2 ^ f.e - 1 ∧ frac = 2 ^ f.m - 1 then .nan false
  else if ex = 0 then .num neg frac f.emin
  else .num neg (2 ^ f.m + frac) (f.emin + ex - 1)

/-- A pattern without sign is largest finite (R260). -/
def Fmt.maxBits (f : Fmt) : Nat :=
  match f.top with
  | .ieee => (2 ^ f.e - 1) * 2 ^ f.m - 1
  | .one => 2 ^ (f.e + f.m) - 2
  | .none => 2 ^ (f.e + f.m) - 1
def Fmt.infBits (f : Fmt) : Nat := (2 ^ f.e - 1) * 2 ^ f.m
/-- The canonical NaN (R260, R276); a format without one answers +0. -/
def Fmt.nanBits (f : Fmt) : Nat :=
  match f.top with
  | .ieee => (2 ^ f.e - 1) * 2 ^ f.m + 2 ^ (f.m - 1)
  | .one => 2 ^ (f.e + f.m) - 1
  | .none => 0
def Fmt.signed (f : Fmt) (neg : Bool) (bits : Nat) : Nat := if neg then 2 ^ (f.e + f.m) + bits else bits

/-- `man · 2^exp` rounded to a multiple of `2^lsb`: the multiple and whether it is inexact (R276). -/
def roundAt (rm : Rm) (neg : Bool) (man : Nat) (exp lsb : Int) : Nat × Bool :=
  if lsb ≤ exp then (man * 2 ^ (exp - lsb).toNat, false)
  else
    let s := (lsb - exp).toNat
    let q := man / 2 ^ s
    let r := man % 2 ^ s
    let half := 2 ^ (s - 1)
    let up := match rm with
      | .rne => decide (half < r) || (decide (r = half) && decide (q % 2 = 1))
      | .rtz => false
      | .rdn => neg && decide (r ≠ 0)
      | .rup => !neg && decide (r ≠ 0)
      | .rmm => decide (half ≤ r)
    (if up then q + 1 else q, decide (r ≠ 0))

/-- A finite value rounded into a format: the pattern without sign if it is in range, inexact, tiny after rounding. -/
structure Rounded where
  bits : Nat
  ovf : Bool
  nx : Bool
  tiny : Bool
  deriving DecidableEq, Repr, Inhabited

/-- Rounding of a finite value to a format under a mode (R276). -/
def roundTo (f : Fmt) (rm : Rm) (neg : Bool) (man : Nat) (exp : Int) : Rounded :=
  if man = 0 then ⟨0, false, false, false⟩ else
  let top : Int := exp + Nat.log2 man          -- floor(log2 |value|)
  let lsb := max (top - f.m) f.emin
  let (q, nx) := roundAt rm neg man exp lsb
  let bits := (lsb - f.emin).toNat * 2 ^ f.m + q
  let (qu, _) := roundAt rm neg man exp (top - f.m)
  let topU := if 2 ^ (f.m + 1) ≤ qu then top + 1 else top
  ⟨bits, decide (f.maxBits < bits), nx, decide (topU < 1 - f.bias)⟩

/-- IEEE result of an exact value in one of the formats with infinities (R276): pattern and flags. -/
def packIeee (f : Fmt) (rm : Rm) : FVal → Nat × Fl
  | .nan s => (f.nanBits, { nv := s })
  | .inf neg => (f.signed neg f.infBits, {})
  | .num neg man exp =>
    let r := roundTo f rm neg man exp
    if r.ovf then
      (f.signed neg (if rm.towardZero neg then f.maxBits else f.infBits), { of := true, nx := true })
    else (f.signed neg r.bits, { uf := r.tiny && r.nx, nx := r.nx })

/-- An output conversion (R279): the rows of the float targets. Formats wider than eight bits but FP16 keep an
infinity under SAT. -/
def packSat (f : Fmt) (rm : Rm) (sat : Bool) : FVal → Nat × Fl
  | .nan s => if f.top = .none then (0, { nv := true }) else (f.nanBits, { nv := s })
  | .inf neg =>
    match f.top with
    | .ieee => if sat && (f == .e5m2 || f == .fp16) then (f.signed neg f.maxBits, { nv := true })
        else (f.signed neg f.infBits, {})
    | .one => if sat then (f.signed neg f.maxBits, { nv := true }) else (f.nanBits, { nv := true })
    | .none => (f.signed neg f.maxBits, { nv := true })
  | .num neg man exp =>
    let r := roundTo f rm neg man exp
    if r.ovf then
      let big := f.signed neg f.maxBits
      let b := match f.top with
        | .none => big
        | .ieee => if sat || rm.towardZero neg then big else f.signed neg f.infBits
        | .one => if sat || rm.towardZero neg then big else f.nanBits
      (b, { of := true, nx := true })
    else (f.signed neg r.bits, { uf := r.tiny && r.nx, nx := r.nx })

/-! ## Exact arithmetic -/

/-- Canonical zero and one. -/
def FVal.zero : FVal := .num false 0 0
def FVal.neg : FVal → FVal
  | .nan s => .nan s
  | .inf n => .inf !n
  | .num n m e => .num (!n) m e
def FVal.isNan : FVal → Bool
  | .nan _ => true
  | _ => false
def FVal.isSnan : FVal → Bool
  | .nan s => s
  | _ => false
def FVal.isZero : FVal → Bool
  | .num _ 0 _ => true
  | _ => false
/-- The mantissa with its sign, in units of `2^e` for an `e` no larger than the exponent. -/
def signedMan (neg : Bool) (man : Nat) (exp e : Int) : Int :=
  let k : Int := (man * 2 ^ (exp - e).toNat : Nat)
  if neg then -k else k
/-- An integer times `2^e` as a value; an exact zero takes the sign given. -/
def ofScaled (i : Int) (e : Int) (zneg : Bool) : FVal :=
  if i = 0 then .num zneg 0 0 else .num (decide (i < 0)) i.natAbs e

/-- The exact sum; an exact zero is −0 only for two −0 or under RDN (R276). -/
def addV (rm : Rm) (a b : FVal) : FVal × Fl :=
  match a, b with
  | .nan s, y => (.nan false, { nv := s || y.isSnan })
  | x, .nan s => (.nan false, { nv := s || x.isSnan })
  | .inf n, .inf k => if n = k then (.inf n, {}) else (.nan false, { nv := true })
  | .inf n, _ => (.inf n, {})
  | _, .inf n => (.inf n, {})
  | .num n m e, .num k p g =>
    let l := min e g
    let z := if m = 0 ∧ p = 0 ∧ n = k then n else decide (rm = .rdn)
    (ofScaled (signedMan n m e l + signedMan k p g l) l z, {})

/-- The exact product. -/
def mulV (a b : FVal) : FVal × Fl :=
  match a, b with
  | .nan s, y => (.nan false, { nv := s || y.isSnan })
  | x, .nan s => (.nan false, { nv := s || x.isSnan })
  | .inf n, .inf k => (.inf (n != k), {})
  | .inf n, .num k p _ => if p = 0 then (.nan false, { nv := true }) else (.inf (n != k), {})
  | .num k p _, .inf n => if p = 0 then (.nan false, { nv := true }) else (.inf (n != k), {})
  | .num n m e, .num k p g => (.num (n != k) (m * p) (e + g), {})

/-- The quotient to at least 64 bits, a non-zero remainder jammed into the last bit (R318). -/
def divV (a b : FVal) : FVal × Fl :=
  match a, b with
  | .nan s, y => (.nan false, { nv := s || y.isSnan })
  | x, .nan s => (.nan false, { nv := s || x.isSnan })
  | .inf _, .inf _ => (.nan false, { nv := true })
  | .inf n, .num k _ _ => (.inf (n != k), {})
  | .num n _ _, .inf k => (.num (n != k) 0 0, {})
  | .num n m e, .num k p g =>
    if p = 0 then (if m = 0 then (.nan false, { nv := true }) else (.inf (n != k), { dz := true }))
    else if m = 0 then (.num (n != k) 0 0, {})
    else
      let s := 66 + Nat.log2 p
      let q := m * 2 ^ s / p
      let r := m * 2 ^ s % p
      (.num (n != k) (2 * q + (if r = 0 then 0 else 1)) (e - g - s - 1), {})

/-- The integer square root by the digit method, `n` digits of base 4. -/
def sqrtLoop : Nat → Nat → Nat → Nat
  | 0, _, acc => acc
  | n + 1, v, acc => let t := acc + 2 ^ n; sqrtLoop n v (if t * t ≤ v then t else acc)

/-- The square root to at least 64 bits, a remainder jammed into the last bit (R318). -/
def sqrtV : FVal → FVal × Fl
  | .nan s => (.nan false, { nv := s })
  | .inf n => if n then (.nan false, { nv := true }) else (.inf false, {})
  | .num n m e =>
    if m = 0 then (.num n 0 0, {})
    else if n then (.nan false, { nv := true })
    else
      let odd : Nat := if e % 2 = 0 then 0 else 1
      let v := m * 2 ^ (odd + 140)
      let g := (e - (odd : Int) - 140) / 2
      let r := sqrtLoop (Nat.log2 v / 2 + 1) v 0
      (.num false (2 * r + (if r * r = v then 0 else 1)) (g - 1), {})

/-- `c + a · b` exactly (R318): 0 × Inf is invalid whatever `c` holds. -/
def fmaV (rm : Rm) (a b c : FVal) : FVal × Fl :=
  let (p, f) := mulV a b
  let (r, g) := addV rm c p
  (r, f.join g)

/-- Order of two numbers; none when either is a NaN. −0 equals +0 (R320). -/
def cmpV (a b : FVal) : Option Ordering :=
  match a, b with
  | .nan _, _ | _, .nan _ => none
  | .inf n, .inf k => some (if n = k then .eq else if n then .lt else .gt)
  | .inf n, _ => some (if n then .lt else .gt)
  | _, .inf n => some (if n then .gt else .lt)
  | .num n m e, .num k p g =>
    let l := min e g
    some (compare (signedMan n m e l) (signedMan k p g l))

/-- The sign of a value. -/
def FVal.signBit : FVal → Bool
  | .nan _ => false
  | .inf n => n
  | .num n _ _ => n

/-- Less than, with −0 less than +0 (R319). -/
def ltMin (a b : FVal) : Bool :=
  match cmpV a b with
  | some .lt => true
  | some .eq => a.signBit && !b.signBit
  | _ => false

/-! ## Swarm operations on patterns (R318 to R323) -/

/-- FMIN and FMAX (R319). -/
def fminmax (f : Fmt) (isMax : Bool) (a b : Nat) : Nat × Fl :=
  let x := unpack f a
  let y := unpack f b
  let nv : Fl := { nv := x.isSnan || y.isSnan }
  if x.isNan && y.isNan then (f.nanBits, nv)
  else if x.isNan then (b % 2 ^ f.width, nv)
  else if y.isNan then (a % 2 ^ f.width, nv)
  else
    let lt := ltMin x y
    (if (lt != isMax) then a % 2 ^ f.width else b % 2 ^ f.width, {})

/-- Comparisons (R320). -/
inductive FCmp where
  | eq | ne | lt | le
  deriving DecidableEq, Repr, Inhabited
def fcompare (f : Fmt) (op : FCmp) (a b : Nat) : Bool × Fl :=
  let x := unpack f a
  let y := unpack f b
  let snan := x.isSnan || y.isSnan
  let anan := x.isNan || y.isNan
  match op with
  | .eq => (decide (cmpV x y = some .eq), { nv := snan })
  | .ne => (decide (cmpV x y ≠ some .eq), { nv := snan })
  | .lt => (decide (cmpV x y = some .lt), { nv := anan })
  | .le => (decide (cmpV x y = some .lt) || decide (cmpV x y = some .eq), { nv := anan })

/-- FCLASS (R320): the bit number. -/
def fclassBit (f : Fmt) (a : Nat) : Nat :=
  let frac := bitsOf a 0 f.m
  let ex := bitsOf a f.m f.e
  let neg := bitsOf a (f.m + f.e) 1 == 1
  if ex = 2 ^ f.e - 1 then
    if frac = 0 then (if neg then 0 else 7) else if frac < 2 ^ (f.m - 1) then 8 else 9
  else if ex = 0 then
    if frac = 0 then (if neg then 3 else 4) else (if neg then 2 else 5)
  else if neg then 1 else 6

/-- A value rounded to an integer under a mode and held to a range (R277): NaN gives 0 with NV. -/
def toInt (rm : Rm) (lo hi : Int) : FVal → Int × Fl
  | .nan _ => (0, { nv := true })
  | .inf n => (if n then lo else hi, { nv := true })
  | .num n m e =>
    let (q, nx) := roundAt rm n m e 0
    let i : Int := if n then -(q : Int) else q
    if i < lo then (lo, { nv := true }) else if hi < i then (hi, { nv := true }) else (i, { nx := nx })

/-- An integer as an exact value. -/
def ofInt (i : Int) : FVal := ofScaled i 0 false

/-- A conversion between the six formats of FCVT and VCVT (R277, R323). -/
def fcvtBits (rm : Rm) (sat : Bool) (dst : Fmt) (v : FVal) : Nat × Fl :=
  if dst = .e4m3 ∨ dst = .e5m2 then packSat dst rm sat v else packIeee dst rm v

/-- A two-operand arithmetic form rounded once (R318). -/
inductive FBin where
  | add | sub | mul | div
  deriving DecidableEq, Repr, Inhabited
def farith (f : Fmt) (rm : Rm) (op : FBin) (a b : Nat) : Nat × Fl :=
  let x := unpack f a
  let y := unpack f b
  let (v, g) := match op with
    | .add => addV rm x y
    | .sub => addV rm x y.neg
    | .mul => mulV x y
    | .div => divV x y
  let (r, k) := packIeee f rm v
  (r, g.join k)
def fsqrtBits (f : Fmt) (rm : Rm) (a : Nat) : Nat × Fl :=
  let (v, g) := sqrtV (unpack f a)
  let (r, k) := packIeee f rm v
  (r, g.join k)
/-- `c + a · b` with one rounding (R318). -/
def ffma (f : Fmt) (rm : Rm) (a b c : Nat) : Nat × Fl :=
  let (v, g) := fmaV rm (unpack f a) (unpack f b) (unpack f c)
  let (r, k) := packIeee f rm v
  (r, g.join k)

/-- A floating-point dot product: exact products, exact sum, one rounding to binary32 (R350, R270). -/
def fdot (rm : Rm) (src : Fmt) (ps : List (Nat × Nat)) : Nat × Fl :=
  let prods := ps.map fun p => mulV (unpack src p.1) (unpack src p.2)
  let fl := prods.foldl (fun (f : Fl) p => f.join p.2) {}
  let vals := prods.map Prod.fst
  let pinf := vals.any fun v => decide (v = .inf false)
  let ninf := vals.any fun v => decide (v = .inf true)
  let both : Fl := { nv := pinf && ninf }
  let sum := match vals with
    | [] => FVal.zero
    | v :: t => t.foldl (fun a b => (addV rm a b).1) v
  let (r, k) := packIeee .f32 rm sum
  (r, (fl.join both).join k)

/-! ## Anvil arithmetic -/

/-- Round an exact value to FP36, nearest even, OF and NV alone (R269). -/
def rne36 (v : FVal) : BitVec 36 × Fl :=
  let (b, f) := packIeee .fp36 .rne v
  (BitVec.ofNat 36 b, f.accOnly)

/-- An anvil NaN is quiet (R260). -/
def FVal.quiet : FVal → FVal
  | .nan _ => .nan false
  | v => v

/-- The value of a lane read as FP36. -/
def fp36 (b : BitVec 36) : FVal := (unpack .fp36 b.toNat).quiet
/-- The value of a lane read as INT36 (R267). -/
def int36 (b : BitVec 36) : Int := sint b.toNat 36
/-- The limits of INT36 (R267). -/
def i36max : Int := 2 ^ 35 - 1
/-- A clamped INT36 result and whether it was clamped (R271). -/
def clamp36 (i : Int) : BitVec 36 × Bool :=
  let c := clampI (-i36max) i36max i
  (BitVec.ofInt 36 c, decide (c ≠ i))

/-- The product of exact factors (R268, R270): a NaN factor gives a NaN and no flag, 0 and Inf together one with NV. -/
def prodV (fs : List FVal) : FVal × Fl :=
  if fs.any FVal.isNan then (.nan false, {})
  else fs.foldl (fun p f => let (v, k) := mulV p.1 f; (v, p.2.join k)) (.num false 1 0, {})

/-- The exact sum of values (R273, R428): a NaN is not propagated with NV, opposite infinities are; zero is −0 only if
every value is. -/
def sumV (vs : List FVal) : FVal × Fl :=
  let pinf := vs.any fun v => decide (v = .inf false)
  let ninf := vs.any fun v => decide (v = .inf true)
  if vs.any FVal.isNan || (pinf && ninf) then (.nan false, { nv := pinf && ninf })
  else match vs with
    | [] => (.zero, {})
    | v :: t => (t.foldl (fun a b => (addV .rne a b).1) v, {})

/-- Sum of FP36-mode products into an accumulator lane (R269, R270). -/
def combine36 (acc : BitVec 36) (ps : List (FVal × Fl)) : BitVec 36 × Fl :=
  let fl : Fl := { nv := ps.any fun p => p.2.nv }
  let vals := ps.map Prod.fst
  let nan := vals.any FVal.isNan
  let pinf := vals.any fun v => decide (v = .inf false)
  let ninf := vals.any fun v => decide (v = .inf true)
  let canon := BitVec.ofNat 36 Fmt.fp36.nanBits
  if nan then (canon, { nv := fl.nv || (pinf && ninf) })
  else if pinf && ninf then (canon, fl.join { nv := true })
  else if pinf || ninf then
    let (v, g) := addV .rne (fp36 acc) (.inf ninf)
    let (r, k) := rne36 v
    (r, (fl.join { nv := g.nv }).join k)
  else
    let nz := vals.filterMap fun v => match v with
      | .num n m e => if m = 0 then none else some (n, m, e)
      | _ => none
    match nz with
    | [] => (acc, fl)
    | (_, m0, e0) :: t =>
      let emax := t.foldl (fun (a : Int) (q : Bool × Nat × Int) => max a (q.2.2 + Nat.log2 q.2.1)) (e0 + Nat.log2 m0)
      let u := emax - 48
      let cut (q : Bool × Nat × Int) : Int :=
        let k : Nat := if u ≤ q.2.2 then q.2.1 * 2 ^ (q.2.2 - u).toNat else q.2.1 / 2 ^ (u - q.2.2).toNat
        if q.1 then -(k : Int) else k
      let s := nz.foldl (fun (a : Int) q => a + cut q) 0
      let (v, g) := addV .rne (fp36 acc) (ofScaled s u false)
      let (r, k) := rne36 v
      (r, (fl.join { nv := g.nv }).join k)

/-- Sum of INT36-mode products into an accumulator lane and whether it was clamped (R271). -/
def combineInt (acc : BitVec 36) (ps : List Int) : BitVec 36 × Bool :=
  clamp36 (int36 acc + ps.foldl (· + ·) 0)

/-! ## Format codes (R258 to R264) -/

/-- Storage bits per element of a code 0 to 27 (R258, R262). -/
def codeBits : Nat → Nat
  | 0 | 1 => 16
  | 2 => 32
  | 3 | 4 | 5 | 6 | 8 | 9 | 16 | 17 | 18 | 19 | 24 => 8
  | 7 | 10 | 11 | 20 | 21 | 22 | 23 | 25 | 26 => 4
  | 12 | 14 | 15 | 27 => 2
  | 13 => 1
  | _ => 8

/-- Elements of a 64-byte tile row (R258). -/
def codeK (c : Nat) : Nat := 512 / codeBits c

/-- Bytes of a scale entry (R258). -/
def scaleBytes : Nat → Nat
  | 16 | 17 | 18 | 19 | 20 | 21 | 24 | 25 => 1
  | 22 | 23 | 26 | 27 => 2
  | _ => 0

/-- The float format of a code, if it is one. -/
def codeFmt : Nat → Option Fmt
  | 0 => some .fp16 | 1 => some .bf16 | 2 => some .e8m10
  | 3 | 16 => some .e4m3 | 4 | 17 => some .e5m2 | 5 | 18 => some .e3m2 | 6 | 19 => some .e2m3
  | 7 | 20 | 21 | 22 | 23 => some .e2m1
  | _ => none

/-- The integer a pattern of an integer code stands for (R261). -/
def codeInt (c w : Nat) : Int :=
  match c with
  | 8 | 24 => sint w 8
  | 9 => (w % 256 : Nat)
  | 10 | 25 | 26 => sint w 4
  | 11 => (w % 16 : Nat)
  | 12 | 27 => if w % 4 = 1 then 1 else if w % 4 = 3 then -1 else 0
  | 13 => if w % 2 = 1 then 1 else -1
  | 14 => sint w 2
  | 15 => (w % 4 : Nat)
  | _ => 0

/-- The value of an element pattern without its scale; E8M10 sits in bits 31:13 of its container (R260 to R262). -/
def elemVal (c w : Nat) : FVal :=
  match codeFmt c with
  | some f => (unpack f (if c = 2 then w / 2 ^ 13 else w)).quiet
  | none => ofInt (codeInt c w)

/-- The scale of a block from its entry (R263): an unscaled code has scale 1. -/
def scaleVal (c entry : Nat) : FVal :=
  let e8m0 := let e := entry % 256; if e = 255 then FVal.nan false else .num false 1 ((e : Int) - 127)
  let ue4m3 := if entry % 128 = 127 then FVal.nan false else (unpack .e4m3 (entry % 128)).quiet
  match c with
  | 16 | 17 | 18 | 19 | 20 | 22 | 24 | 25 => e8m0
  | 21 | 23 => ue4m3
  | 26 => (unpack .fp16 entry).quiet
  | 27 => (unpack .bf16 entry).quiet
  | _ => .num false 1 0

/-- An element with its block's entry: the E2M1X special stands for 0b1000 of codes 22 and 23 (R264). -/
def scaledElem (c w entry : Nat) : FVal × Fl :=
  let v := if (c = 22 ∨ c = 23) ∧ w = 8 then (unpack .e4m3 (entry / 256 % 256)).quiet else elemVal c w
  mulV v (scaleVal c entry)

/-- Element `k` of a row of bytes of a code (R259): FP6 ignores bits 7:6. -/
def elemAt (c : Nat) (row : List Byte) (k : Nat) : Nat :=
  let w := codeBits c
  if w < 8 then
    ((row.getD (k * w / 8) 0).toNat) / 2 ^ (k * w % 8) % 2 ^ w
  else
    let n := w / 8
    let v := (List.range n).foldl (fun a j => a + (row.getD (k * n + j) 0).toNat * 256 ^ j) 0
    if codeFmt c = some .e3m2 ∨ codeFmt c = some .e2m3 then v % 64 else v

/-- Patterns packed from the lowest address and bit (R259). -/
def packRow (w : Nat) (es : List Nat) : List Byte :=
  if w < 8 then
    let per := 8 / w
    (List.range ((es.length + per - 1) / per)).map fun i =>
      BitVec.ofNat 8 ((List.range per).foldl (fun a j => a + (es.getD (i * per + j) 0) % 2 ^ w * 2 ^ (j * w)) 0)
  else
    es.flatMap fun e => (List.range (w / 8)).map fun j => BitVec.ofNat 8 (e / 256 ^ j)

/-- Targets of a store (R279, R430): a code 0 to 15, FP32, RAW. -/
inductive Tgt where
  | code (c : Nat) | fp32 | raw
  deriving DecidableEq, Repr, Inhabited

/-- Bits of a stored element of a target. -/
def Tgt.bits : Tgt → Nat
  | .code c => codeBits c
  | .fp32 => 32
  | .raw => 64

/-- The range of an integer code (R261). -/
def intRange : Nat → Int × Int
  | 8 => (-128, 127) | 9 => (0, 255) | 10 => (-8, 7) | 11 => (0, 15) | 12 => (-1, 1) | 14 => (-2, 1) | 15 => (0, 3)
  | _ => (0, 0)

/-- One lane converted to a target under FPC.RM and FPC.SAT (R279). `int` says that the lane holds INT36. -/
def convertLane (t : Tgt) (rm : Rm) (sat int : Bool) (b : BitVec 36) : Nat × Fl :=
  let v := if int then ofInt (int36 b) else fp36 b
  match t with
  | .raw => (if int then wrapN 64 (int36 b) else b.toNat, {})
  | .fp32 => packSat .f32 rm sat v
  | .code 13 =>
    match v with
    | .nan _ => (1, { nv := true })
    | .inf n => (if n then 0 else 1, { nv := true })
    | .num n m _ => (if n && m != 0 then 0 else 1, {})
  | .code c =>
    match codeFmt c with
    | some f => let (r, k) := packSat f rm sat v; (if c = 2 then r * 2 ^ 13 else r, k)
    | none =>
      let (lo, hi) := intRange c
      let (i, k) := toInt rm lo hi v
      (wrapN (codeBits c) i, k)

/-- A finite FP36 or an integer lane rounded by R279 to a code and returned in FP36 (R426 WCVT MODE 2). -/
def roundTrip (c : Nat) (rm : Rm) (sat : Bool) (b : BitVec 36) : BitVec 36 × Fl :=
  let (p, k) := convertLane (.code c) rm sat false b
  ((rne36 (elemVal c p)).1, k)

/-! ## Special functions (R427) -/

/-- One, in fixed point with 128 fraction bits. -/
def fxOne : Nat := 2 ^ 128

/-- A magnitude as a ratio of naturals. -/
def ratioOf (m : Nat) (e : Int) : Nat × Nat := (m * 2 ^ e.toNat, 2 ^ (-e).toNat)

/-- A magnitude in fixed point, at most 128. -/
def fxOf (m : Nat) (e : Int) : Nat := let (a, b) := ratioOf m e; Nat.min (128 * fxOne) (a * fxOne / b)

/-- e^t for t from 0 to 256: the series at t / 512, then nine squarings. -/
def fxExp (t : Nat) : Nat :=
  let y := t / 512
  let s := (List.range 40).foldr (fun k a => fxOne + y * a / ((k + 1) * fxOne)) fxOne
  (List.range 9).foldl (fun a _ => a * a / fxOne) s

/-- ln t for t from 1 to 2: twice the area tangent of (t - 1) / (t + 1). -/
def fxLn (t : Nat) : Nat :=
  let z := (t - fxOne) * fxOne / (t + fxOne)
  let q := z * z / fxOne
  2 * (z * (List.range 44).foldr (fun k a => fxOne / (2 * k + 1) + q * a / fxOne) 0 / fxOne)

/-- A real result: sign, numerator, denominator. -/
structure Ratio where
  neg : Bool
  num : Nat
  den : Nat
  deriving DecidableEq, Repr, Inhabited

/-- The mathematical result of a special function at a finite operand, to far more bits than FP36 holds: WRCP exactly, the
others within 2^-50 of themselves (R427). -/
def specialVal (n : Nat) (neg : Bool) (m : Nat) (e : Int) : Ratio :=
  let (a, b) := ratioOf m e
  let x := fxOf m e
  match n with
  | 0 => if neg then ⟨false, fxOne, fxExp x⟩ else ⟨false, fxExp x, fxOne⟩
  | 1 =>
    let k := Nat.log2 m
    let v : Int := (e + k) * (fxLn (2 * fxOne) : Int) + (fxLn (m * fxOne / 2 ^ k) : Int)
    ⟨decide (v < 0), v.natAbs, fxOne⟩
  | 2 => ⟨neg, b, a⟩
  | 3 =>
    let h := e / 2
    let w := m * 2 ^ (e - 2 * h).toNat * fxOne * fxOne
    let r := sqrtLoop (Nat.log2 w / 2 + 1) w 0
    ⟨false, fxOne * 2 ^ (-h).toNat, r * 2 ^ h.toNat⟩
  | 4 => if a * 2 ^ 30 < b then ⟨neg, a, b⟩ else ⟨neg, fxExp (2 * x) - fxOne, fxExp (2 * x) + fxOne⟩
  | _ => ⟨false, if neg then fxOne else fxExp x, fxOne + fxExp x⟩

/-- A result beyond the finite range of FP36, and one below its normal range. -/
def Ratio.over (r : Ratio) : Bool := decide ((2 ^ 28 - 1) * 2 ^ 100 * r.den < r.num)
def Ratio.under (r : Ratio) : Bool := decide (2 ^ 126 * r.num < r.den)

/-- A pattern lies within the relative error of R427, widened by a part in 2^40 for what `specialVal` leaves off. -/
def Ratio.near (r : Ratio) (p : BitVec 36) : Bool :=
  match fp36 p with
  | .num neg m e =>
    let (a, b) := ratioOf m e
    let x := a * r.den
    let y := r.num * b
    neg == r.neg && decide ((Nat.max x y - Nat.min x y) * 2 ^ 62 ≤ y * (2 ^ 40 + 1))
  | _ => false

/-- The nearest FP36 pattern. -/
def Ratio.nearest (r : Ratio) : BitVec 36 :=
  let k := 64 + Nat.log2 r.den
  (rne36 (.num r.neg (r.num * 2 ^ k / r.den) (-(k : Nat)))).1

/-- A special function at a finite operand that is no special input (R427): WEXP overflows to +Inf with OF and falls to +0
below the normal range. The fixed algorithm is the hardware's: its value is free, and in the normal range it keeps the
relative error (log 7). -/
def specialOut (n : Nat) (p : BitVec 36) : BitVec 36 × BitVec 12 :=
  match fp36 p with
  | .num neg m e =>
    let r := specialVal n neg m e
    let f := Config.special n p
    if n = 0 ∧ r.over then (BitVec.ofNat 36 Fmt.fp36.infBits, ({ of := true } : Fl).fpc)
    else if n = 0 ∧ r.under then (0, 0)
    else if r.over || r.under || r.near f then (f, 0) else (r.nearest, 0)
  | _ => (Config.special n p, 0)

end Sys2Proof.Machine
end

