-- ==== Sys2Proof/WellFormed.lean ====
section
/-!
DEFINITION. Which instruction terms stand for an encoding that R283 and R289 accept: element types each vector form
takes (R344, R350), format and shift limits (R301 to R303), loop levels, masks and formats of anvil slots. Events carry
no encoding and every event term is well formed.
-/

namespace Sys2Proof

/-- Integer element types: ET 0 to 7 (R344). -/
def ETy.isInt : ETy → Bool
  | .i8 | .i16 | .i32 | .i64 | .ui8 | .ui16 | .ui32 | .ui64 => true
  | _ => false

/-- Float element types accepted by arithmetic: ET 8 to 11 (R344). -/
def ETy.isFloat : ETy → Bool
  | .f16 | .bf16 | .f32 | .f64 => true
  | _ => false

/-- Int or float (R344). -/
def ETy.isArith (t : ETy) : Bool := t.isInt || t.isFloat

/-- Types VHASH accepts: 2, 3, 6, 7 (R344). -/
def ETy.isHash : ETy → Bool
  | .i32 | .i64 | .ui32 | .ui64 => true
  | _ => false

/-- The pairs of R350. -/
def vdotPair : ETy → ETy → Bool
  | .i32, .i8 | .i32, .ui8 | .ui32, .i8 | .ui32, .ui8 => true
  | .i64, .i16 | .i64, .ui16 | .ui64, .i16 | .ui64, .ui16 => true
  | .f32, .f16 | .f32, .bf16 | .f32, .e4m3 | .f32, .e5m2 => true
  | _, _ => false

/-- MOD 0 to 3 of OPF: every form but FCVT (R303). -/
def FFmt.isArith : FFmt → Bool
  | .f16 | .bf16 | .f32 | .f64 => true
  | _ => false

/-- A target field of STC and STCW: code 0 to 15, FP32 or RAW with FMT zero (R430). -/
def storeFmtOk (fmt : Fin 32) (tk : Fin 4) : Bool :=
  (tk == 0 && decide (fmt.val < 16)) || ((tk == 1 || tk == 2) && fmt == 0)

/-- The terms that stand for an accepted encoding. -/
def Instr.wellFormed : Instr → Bool
  | .fadd f .. | .fsub f .. | .fmul f .. | .fdiv f .. | .fsqrt f .. | .fma f .. | .fmin f .. | .fmax f ..
  | .feq f .. | .flt f .. | .fle f .. | .fclass f .. | .fsgnj f .. | .fsgnjn f .. | .ftoi f .. | .ftou f ..
  | .itof f .. | .utof f .. => f.isArith
  | .fcvt dst src .. => dst != src
  | .extu _ _ w _ | .exts _ _ w _ | .ins _ _ w _ => decide (w ≤ 64)
  | .slli _ _ w n | .srli _ _ w n | .srai _ _ w n | .rori _ _ w n => !w || decide (n.val < 32)
  | .vadd t .. | .vsub t .. | .vmul t .. | .vfma t .. | .vmin t .. | .vmax t .. => t.isArith
  | .vcmpeq t .. | .vcmpne t .. | .vcmplt t .. | .vcmple t .. => t.isArith
  | .vredsum t .. | .vredmax t .. | .vredmin t .. => t.isArith
  | .vadds t .. | .vsubs t .. | .vand t .. | .vor t .. | .vxor t .. | .vsll t .. | .vsrl t .. | .vsra t .. => t.isInt
  | .vperm t .. => t.isInt
  | .vdiv t .. | .vsqrt t .. => t.isFloat
  | .vhash t .. => t.isHash
  | .vcvt t s .. => t != s
  | .vdot t s _ a _ => vdotPair t s && decide (a.val % 2 = 0)
  | .loop l .. | .lstr l .. | .lext l .. | .lgate l => decide (l.val < 6)
  | .waitq _ mask => mask != 0
  | .wcvt _ _ fmt mode =>
    if mode = 2 then decide (fmt.val < 16) else if mode = 3 then false else fmt == 0
  | .stc _ _ _ fmt tk _ => storeFmtOk fmt tk
  | .stcw _ _ _ fmt tk _ => storeFmtOk fmt tk
  | _ => true

end Sys2Proof
end

