-- ==== Sys2Proof/Decode.lean ====
section
/-!
DEFINITION. Decoding of swarm words and anvil slots, and the encoder written from the same tables (R281 to R283, R287,
R301 to R308, chapter 13). A word that R283 rejects decodes to none; so does a slot whose UNIT, FN or operand bits R289
rejects. A word is read as a number, bit 0 the least significant.
-/

namespace Sys2Proof

/-! ## Fields -/

/-- The field of `len` bits from bit `lo`. -/
def fld (w lo len : Nat) : Nat := w / 2 ^ lo % 2 ^ len

def xf (w lo : Nat) : XReg := Fin.ofNat 32 (fld w lo 5)
def vf (w lo : Nat) : VReg := Fin.ofNat 16 (fld w lo 4)
def mf (w lo : Nat) : MReg := Fin.ofNat 4 (fld w lo 2)
def sf (w lo : Nat) : Fin 16 := Fin.ofNat 16 (fld w lo 4)
def hf (w lo : Nat) : Fin 8 := Fin.ofNat 8 (fld w lo 3)
def bit (w n : Nat) : Bool := fld w n 1 == 1
def imm16 (w : Nat) : BitVec 16 := BitVec.ofNat 16 (fld w 0 16)

/-- Number of a Bool field. -/
def b2n (b : Bool) : Nat := if b then 1 else 0

/-- Scope numbers of R304: 0 CLU, 1 DEV, 2 SYS. -/
def Scope.code : Scope → Nat
  | .clu => 0 | .dev => 1 | .sys => 2
def Scope.ofCode : Nat → Option Scope
  | 0 => some .clu | 1 => some .dev | 2 => some .sys | _ => none

/-- Format numbers of R303. -/
def FFmt.code : FFmt → Nat
  | .f16 => 0 | .bf16 => 1 | .f32 => 2 | .f64 => 3 | .e4m3 => 4 | .e5m2 => 5
def FFmt.ofCode : Nat → Option FFmt
  | 0 => some .f16 | 1 => some .bf16 | 2 => some .f32 | 3 => some .f64 | 4 => some .e4m3 | 5 => some .e5m2 | _ => none

/-- ET numbers of R305. -/
def ETy.code : ETy → Nat
  | .i8 => 0 | .i16 => 1 | .i32 => 2 | .i64 => 3 | .ui8 => 4 | .ui16 => 5 | .ui32 => 6 | .ui64 => 7
  | .f16 => 8 | .bf16 => 9 | .f32 => 10 | .f64 => 11 | .e4m3 => 12 | .e5m2 => 13
def ETy.ofCode : Nat → Option ETy
  | 0 => some .i8 | 1 => some .i16 | 2 => some .i32 | 3 => some .i64 | 4 => some .ui8 | 5 => some .ui16
  | 6 => some .ui32 | 7 => some .ui64 | 8 => some .f16 | 9 => some .bf16 | 10 => some .f32 | 11 => some .f64
  | 12 => some .e4m3 | 13 => some .e5m2 | _ => none

/-- ME and MS of the V form (R305): MS is zero while ME is clear. -/
def predOf (w : Nat) : Option Pred :=
  if bit w 6 then some (some (mf w 4)) else if fld w 4 2 = 0 then some none else none
def predBits : Pred → Nat
  | none => 0
  | some m => 64 + 16 * m.val

/-- The class field of R307: MOD 0 to 3 a class, 4 the context's own. -/
def clsOf (w : Nat) : Option ClsSel :=
  if fld w 8 3 < 4 then some (some (Fin.ofNat 4 (fld w 8 3))) else if fld w 8 3 = 4 then some none else none
def clsBits : ClsSel → Nat
  | none => 4 * 256
  | some c => 256 * c.val

/-- A decoded term that passes the checks of WellFormed. -/
def accept (i : Instr) : Option Instr := if i.wellFormed then some i else none

/-! ## Swarm words -/

/-- OP (R302). -/
def decodeOp (w : Nat) : Option Instr :=
  let d := xf w 21; let a := xf w 16; let b := xf w 11; let m := bit w 8
  if fld w 9 2 ≠ 0 then none else
  match fld w 0 8 with
  | 0 => some (.add d a b m)
  | 1 => some (.sub d a b m)
  | 2 => some (.and d a b m)
  | 3 => some (.or d a b m)
  | 4 => some (.xor d a b m)
  | 5 => some (.sll d a b m)
  | 6 => some (.srl d a b m)
  | 7 => some (.sra d a b m)
  | 8 => some (.ror d a b m)
  | 9 => some (.slt d a b m)
  | 10 => some (.sltu d a b m)
  | 11 => some (.min d a b m)
  | 12 => some (.max d a b m)
  | 13 => some (.minu d a b m)
  | 14 => some (.maxu d a b m)
  | 15 => if m then none else some (.selnz d a b)
  | 16 => some (.mul d a b m)
  | 17 => some (.mulh d a b m)
  | 18 => some (.mulhu d a b m)
  | 19 => some (.div d a b m)
  | 20 => some (.divu d a b m)
  | 21 => some (.rem d a b m)
  | 22 => some (.remu d a b m)
  | 24 => if b = 0 then some (.clz d a m) else none
  | 25 => if b = 0 then some (.ctz d a m) else none
  | 26 => if b = 0 then some (.popc d a m) else none
  | 27 => if b = 0 then some (.bswap d a m) else none
  | _ => none

/-- OPF (R303). -/
def decodeOpf (w : Nat) : Option Instr := do
  let d := xf w 21; let a := xf w 16; let b := xf w 11
  let f ← FFmt.ofCode (fld w 8 3)
  match fld w 0 8 with
  | 0 => accept (.fadd f d a b)
  | 1 => accept (.fsub f d a b)
  | 2 => accept (.fmul f d a b)
  | 3 => accept (.fdiv f d a b)
  | 4 => if b = 0 then accept (.fsqrt f d a) else none
  | 5 => accept (.fma f d a b)
  | 6 => accept (.fmin f d a b)
  | 7 => accept (.fmax f d a b)
  | 8 => accept (.feq f d a b)
  | 9 => accept (.flt f d a b)
  | 10 => accept (.fle f d a b)
  | 11 => if b = 0 then accept (.fclass f d a) else none
  | 12 => accept (.fsgnj f d a b)
  | 13 => accept (.fsgnjn f d a b)
  | 16 => if b = 0 then accept (.ftoi f d a) else none
  | 17 => if b = 0 then accept (.ftou f d a) else none
  | 18 => if b = 0 then accept (.itof f d a) else none
  | 19 => if b = 0 then accept (.utof f d a) else none
  | 20 => do let s ← FFmt.ofCode (fld w 11 5); accept (.fcvt f s d a)
  | _ => none

/-- EXTU, EXTS, INS (R316). -/
def decodeBits (w : Nat) : Option Instr :=
  let d := xf w 21; let a := xf w 16; let n := fld w 6 7; let o : Fin 64 := Fin.ofNat 64 (fld w 0 6)
  if bit w 13 then none else
  match fld w 14 2 with
  | 0 => accept (.extu d a n o)
  | 1 => accept (.exts d a n o)
  | 2 => accept (.ins d a n o)
  | _ => none

/-- SLLI, SRLI, SRAI, RORI (R315). -/
noncomputable def decodeShift (w : Nat) : Option Instr :=
  let d := xf w 21; let a := xf w 16; let m := bit w 8; let n : Fin 64 := Fin.ofNat 64 (fld w 0 6)
  if fld w 9 7 ≠ 0 then none else
  match fld w 6 2 with
  | 0 => accept (.slli d a m n)
  | 1 => accept (.srli d a m n)
  | 2 => accept (.srai d a m n)
  | _ => accept (.rori d a m n)

/-- ORD (R304). -/
noncomputable def decodeOrd (w : Nat) : Option Instr := do
  let d := xf w 21; let a := xf w 16; let b := xf w 11
  let s ← Scope.ofCode (fld w 8 3)
  match fld w 0 8 with
  | 0 => if b = 0 then some (.lda d a s false) else none
  | 1 => if b = 0 then some (.lda d a s true) else none
  | 2 => if b = 0 then some (.ldaF d a s false) else none
  | 3 => if b = 0 then some (.ldaF d a s true) else none
  | 4 => if d = 0 then some (.stl a b s false) else none
  | 5 => if d = 0 then some (.stl a b s true) else none
  | 16 => if d = 0 ∧ a = 0 ∧ b = 0 then some (.fence s) else none
  | 17 => if d = 0 ∧ a = 0 ∧ b = 0 then some (.fenceRel s) else none
  | 18 => if d = 0 ∧ a = 0 ∧ b = 0 then some (.fenceAcq s) else none
  | _ => none

/-- AMO (R304). -/
noncomputable def decodeAmo (w : Nat) : Option Instr :=
  let d := xf w 21; let a := xf w 16; let b := xf w 11; let m := bit w 8
  if fld w 9 2 ≠ 0 then none else
  match fld w 0 8 with
  | 0 => some (.amoadd d a b m)
  | 1 => some (.amoand d a b m)
  | 2 => some (.amoor d a b m)
  | 3 => some (.amoxor d a b m)
  | 4 => some (.amoswap d a b m)
  | 5 => some (.amomin d a b m)
  | 6 => some (.amomax d a b m)
  | 7 => some (.amominu d a b m)
  | 8 => some (.amomaxu d a b m)
  | 9 => some (.amocas d a b m)
  | 16 => some (.ramoadd d a b m)
  | 17 => some (.ramoswap d a b m)
  | 24 => if d = 0 ∧ m = false then some (.rsd a b) else none
  | 25 => if d = 0 ∧ m = false ∧ bit w 15 = false then some (.rsq a (vf w 11)) else none
  | _ => none

/-- FE (R304). -/
noncomputable def decodeFe (w : Nat) : Option Instr :=
  let d := xf w 21; let a := xf w 16; let b := xf w 11
  if fld w 8 3 ≠ 0 then none else
  match fld w 0 8 with
  | 0 => if b = 0 then some (.ldfe d a) else none
  | 1 => if b = 0 then some (.ldff d a) else none
  | 2 => if d = 0 then some (.stef a b) else none
  | 3 => if d = 0 then some (.stff a b) else none
  | _ => none

/-- BMANY, BMNONE, BMALL (R301, R325). -/
noncomputable def decodeBm (w : Nat) : Option Instr :=
  if fld w 16 5 ≠ 0 then none else
  match fld w 23 3 with
  | 0 => some (.bmany (mf w 21) (imm16 w))
  | 1 => some (.bmnone (mf w 21) (imm16 w))
  | 2 => some (.bmall (mf w 21) (imm16 w))
  | _ => none

/-- The high bit of each v field is zero (R282). -/
def v3 (w : Nat) : Bool := !bit w 25 && !bit w 20 && !bit w 15

/-- VOP (R305). -/
noncomputable def decodeVop (w : Nat) : Option Instr := do
  let d := vf w 21; let a := vf w 16; let b := vf w 11
  let t ← ETy.ofCode (fld w 7 4)
  let p ← predOf w
  if v3 w = false then none else
  match fld w 0 4 with
  | 0 => accept (.vadd t d a b p)
  | 1 => accept (.vsub t d a b p)
  | 2 => accept (.vmul t d a b p)
  | 3 => accept (.vfma t d a b p)
  | 4 => accept (.vmin t d a b p)
  | 5 => accept (.vmax t d a b p)
  | 6 => accept (.vadds t d a b p)
  | 7 => accept (.vsubs t d a b p)
  | 8 => accept (.vand t d a b p)
  | 9 => accept (.vor t d a b p)
  | 10 => accept (.vxor t d a b p)
  | 11 => accept (.vsll t d a b p)
  | 12 => accept (.vsrl t d a b p)
  | 13 => accept (.vsra t d a b p)
  | 14 => accept (.vdiv t d a b p)
  | _ => if b = 0 then accept (.vsqrt t d a p) else none

/-- VCMP (R305). -/
noncomputable def decodeVcmp (w : Nat) : Option Instr := do
  let t ← ETy.ofCode (fld w 7 4)
  let p ← predOf w
  let a := vf w 16; let b := vf w 11
  let src := !bit w 20 && !bit w 15
  let mm := fld w 23 3 = 0 ∧ fld w 18 3 = 0 ∧ fld w 4 7 = 0
  match fld w 0 4 with
  | 0 => if fld w 23 3 = 0 ∧ src then accept (.vcmpeq t (mf w 21) a b p) else none
  | 1 => if fld w 23 3 = 0 ∧ src then accept (.vcmpne t (mf w 21) a b p) else none
  | 2 => if fld w 23 3 = 0 ∧ src then accept (.vcmplt t (mf w 21) a b p) else none
  | 3 => if fld w 23 3 = 0 ∧ src then accept (.vcmple t (mf w 21) a b p) else none
  | 4 => match p with
    | some k => if src ∧ bit w 25 = false then accept (.vsel t (vf w 21) a b k) else none
    | none => none
  | 5 => if mm ∧ fld w 13 3 = 0 then some (.mand (mf w 21) (mf w 16) (mf w 11)) else none
  | 6 => if mm ∧ fld w 13 3 = 0 then some (.mor (mf w 21) (mf w 16) (mf w 11)) else none
  | 7 => if mm ∧ fld w 13 3 = 0 then some (.mxor (mf w 21) (mf w 16) (mf w 11)) else none
  | 8 => if mm ∧ fld w 11 5 = 0 then some (.mnot (mf w 21) (mf w 16)) else none
  | 9 => if fld w 23 3 = 0 ∧ fld w 4 7 = 0 ∧ fld w 11 5 = 0 then some (.mfromx (mf w 21) (xf w 16)) else none
  | 10 => if fld w 18 3 = 0 ∧ fld w 4 7 = 0 ∧ fld w 11 5 = 0 then some (.mtox (xf w 21) (mf w 16)) else none
  | 11 => if fld w 18 3 = 0 ∧ fld w 4 7 = 0 ∧ fld w 11 5 = 0 then some (.mpopc (xf w 21) (mf w 16)) else none
  | _ => none

/-- VXF (R305). -/
noncomputable def decodeVxf (w : Nat) : Option Instr := do
  let t ← ETy.ofCode (fld w 7 4)
  let p ← predOf w
  let dv := bit w 25 = false
  let av := bit w 20 = false
  let bv := bit w 15 = false
  let me0 := fld w 4 3 = 0
  match fld w 0 4 with
  | 0 => if dv ∧ av ∧ bv then do let s ← ETy.ofCode (fld w 11 4); accept (.vcvt t s (vf w 21) (vf w 16) p) else none
  | 1 => if dv ∧ av ∧ bv then do let s ← ETy.ofCode (fld w 11 4); accept (.vdot t s (vf w 21) (vf w 16) p) else none
  | 2 => if dv ∧ av ∧ bv then accept (.vperm t (vf w 21) (vf w 16) (vf w 11) p) else none
  | 3 => if dv ∧ av ∧ bv then accept (.vhash t (vf w 21) (vf w 16) (vf w 11) p) else none
  | 4 => if dv ∧ av ∧ me0 ∧ fld w 13 3 = 0 then accept (.vnzc t (vf w 21) (vf w 16) (mf w 11)) else none
  | 5 => if dv ∧ fld w 11 5 = 0 then accept (.vsplat t (vf w 21) (xf w 16) p) else none
  | 6 => if av ∧ me0 then accept (.vext t (xf w 21) (vf w 16) (xf w 11)) else none
  | 7 => if dv ∧ me0 then accept (.vins t (vf w 21) (xf w 16) (xf w 11)) else none
  | 8 => if av ∧ fld w 11 5 = 0 then accept (.vredsum t (xf w 21) (vf w 16) p) else none
  | 9 => if av ∧ fld w 11 5 = 0 then accept (.vredmax t (xf w 21) (vf w 16) p) else none
  | 10 => if av ∧ fld w 11 5 = 0 then accept (.vredmin t (xf w 21) (vf w 16) p) else none
  | 11 => if dv ∧ av ∧ fld w 11 5 = 0 ∧ fld w 7 4 = 0 then some (.vmov (vf w 21) (vf w 16) p) else none
  | _ => none

/-- CELL (R306). -/
noncomputable def decodeCell (w : Nat) : Option Instr :=
  let d := xf w 21; let a := xf w 16; let b := xf w 11; let m := fld w 8 3
  let nod := d = 0
  match fld w 0 8 with
  | 0 => if m = 0 then some (.copen d a b) else none
  | 1 => if nod then (if m = 0 then some (.cputD a b)
      else if m = 1 ∧ bit w 15 = false then some (.cputQ a (vf w 11)) else none) else none
  | 2 => if nod ∧ m = 1 ∧ bit w 15 = false then some (.cputR a (vf w 11)) else none
  | 3 => if nod then do let s ← Scope.ofCode m; some (.seal a b s) else none
  | 4 => if nod then do let s ← Scope.ofCode m; some (.sealm a b s) else none
  | 5 => if nod ∧ m = 0 then some (.csett a b) else none
  | 6 => if m = 0 ∧ b = 0 then some (.cld d a) else none
  | 7 => if m = 0 ∧ b = 0 then some (.cldAcq d a) else none
  | 8 => if nod ∧ m = 0 ∧ b = 0 then some (.cretire a) else none
  | 9 => if nod ∧ m = 0 ∧ b = 0 then some (.done a) else none
  | 10 => if m = 0 then some (.cstat d a b) else none
  | 16 => if nod ∧ m = 0 then some (.cbinit a b) else none
  | 17 => if m = 0 ∧ b = 0 then some (.cbpop d a) else none
  | 18 => if nod ∧ m = 0 then some (.cbfree a b) else none
  | 24 => if nod ∧ m = 0 then some (.binit a b) else none
  | 25 => if m = 0 then some (.barrv d a b) else none
  | 26 => if nod ∧ m = 0 then some (.bwait a b) else none
  | 27 => if nod ∧ m = 0 ∧ b = 0 then some (.bretire a) else none
  | _ => none

/-- XFER (R307). -/
noncomputable def decodeXfer (w : Nat) : Option Instr :=
  let a := xf w 16
  if fld w 21 5 ≠ 0 ∨ fld w 8 8 ≠ 0 then none else
  match fld w 0 8 with
  | 0 => some (.xfer a)
  | 1 => some (.xgather a)
  | 2 => some (.xscatter a)
  | 8 => some (.xrestart a)
  | 9 => some (.xdiscard a)
  | _ => none

/-- MSG (R307). -/
noncomputable def decodeMsg (w : Nat) : Option Instr :=
  let a := xf w 16; let b := xf w 11; let v := vf w 21
  let vok := bit w 25 = false
  let rcv := vok ∧ bit w 21 = false ∧ fld w 8 13 = 0
  let pair : Fin 8 := Fin.ofNat 8 (fld w 22 3)
  let bare := fld w 8 18 = 0
  match fld w 0 8 with
  | 0 => if vok then do let c ← clsOf w; some (.send v a b c) else none
  | 1 => if vok then do let c ← clsOf w; some (.sendRel v a b c .clu) else none
  | 2 => if vok then do let c ← clsOf w; some (.sendRel v a b c .dev) else none
  | 3 => if vok then do let c ← clsOf w; some (.sendRel v a b c .sys) else none
  | 4 => if vok then do let c ← clsOf w; some (.activate v a b c) else none
  | 5 => if vok then do let c ← clsOf w; some (.activateRel v a b c .clu) else none
  | 6 => if vok then do let c ← clsOf w; some (.activateRel v a b c .dev) else none
  | 7 => if vok then do let c ← clsOf w; some (.activateRel v a b c .sys) else none
  | 8 => if vok then do let c ← clsOf w; some (.spawn v a b c) else none
  | 9 => if vok then do let c ← clsOf w; some (.spawnRel v a b c .clu) else none
  | 10 => if vok then do let c ← clsOf w; some (.spawnRel v a b c .dev) else none
  | 11 => if vok then do let c ← clsOf w; some (.spawnRel v a b c .sys) else none
  | 16 => if rcv then some (.recv pair) else none
  | 17 => if rcv then some (.recvAcq pair) else none
  | 18 => if rcv then some (.tryrecv pair) else none
  | 19 => if rcv then some (.tryrecvAcq pair) else none
  | 20 => if bare then some .waitmsg else none
  | 21 => if bare then some .msgmaskClr else if fld w 8 18 = 1 then some .msgmaskSet else none
  | 22 => if bare then some .mret else none
  | 23 => if bare then some .exit else none
  | _ => none

/-- SYS (R307). -/
noncomputable def decodeSys (w : Nat) : Option Instr :=
  let d := xf w 21; let a := xf w 16; let b := xf w 11
  let bare := fld w 11 15 = 0
  if fld w 8 3 ≠ 0 then none else
  match fld w 0 8 with
  | 0 => if bare then some .tret else none
  | 1 => if bare then some .brk else none
  | 2 => some (.faultwait d a b)
  | 16 => if bare then some .sret else none
  | 17 => if d = 0 ∧ b = 0 then some (.kill a) else none
  | 18 => if d = 0 ∧ b = 0 then some (.tlbinv a) else none
  | 19 => if d = 0 then some (.grpw a b) else none
  | 20 => if d = 0 then some (.keyld a b) else none
  | _ => none

/-- AVC (R307). -/
noncomputable def decodeAvc (w : Nat) : Option Instr :=
  let d := xf w 21; let a := xf w 16; let b := xf w 11
  if fld w 8 3 ≠ 0 then none else
  match fld w 0 8 with
  | 0 => if d = 0 then some (.avload a b) else none
  | 1 => if d = 0 then some (.avstart a b) else none
  | 2 => if d = 0 ∧ b = 0 then some (.avstop a) else none
  | 3 => if d = 0 then some (.avpost a b) else none
  | 4 => if b = 0 then some (.avstat d a) else none
  | _ => none

/-- ENG (R307). -/
noncomputable def decodeEng (w : Nat) : Option Instr :=
  let d := xf w 21; let a := xf w 16; let b := xf w 11
  if fld w 8 3 ≠ 0 then none else
  match fld w 0 8 with
  | 0 => if d = 0 ∧ b = 0 then some (.coll a) else none
  | 1 => if b = 0 then some (.viewget d a) else none
  | 2 => if d = 0 ∧ b = 0 then some (.mtrap a) else none
  | 3 => if d = 0 then some (.admitS a b) else none
  | _ => none

/-- The swarm instruction a 32-bit word stands for (R281, R283, R301). -/
noncomputable def decodeSwarm (w : Nat) : Option Instr :=
  let d := xf w 21; let a := xf w 16; let i := imm16 w
  match fld w 26 6 with
  | 0x01 => decodeOp w
  | 0x02 => decodeOpf w
  | 0x03 => decodeBits w
  | 0x04 => some (.addi d a i)
  | 0x05 => some (.andi d a i)
  | 0x06 => some (.ori d a i)
  | 0x07 => some (.xori d a i)
  | 0x08 => some (.slti d a i)
  | 0x09 => some (.sltiu d a i)
  | 0x0a => if a = 0 then some (.lui d i) else none
  | 0x0b => decodeShift w
  | 0x0c => some (.shori d a i)
  | 0x0d => if a = 0 then some (.auipc d i) else none
  | 0x10 => some (.lb d a i)
  | 0x11 => some (.lbu d a i)
  | 0x12 => some (.lh d a i)
  | 0x13 => some (.lhu d a i)
  | 0x14 => some (.lw d a i)
  | 0x15 => some (.lwu d a i)
  | 0x16 => some (.ld d a i)
  | 0x17 => if bit w 25 then none else some (.vld (vf w 21) a i)
  | 0x18 => some (.sb d a i)
  | 0x19 => some (.sh d a i)
  | 0x1a => some (.sw d a i)
  | 0x1b => some (.sd d a i)
  | 0x1c => if bit w 25 then none else some (.vst (vf w 21) a i)
  | 0x1d => decodeOrd w
  | 0x1e => decodeAmo w
  | 0x1f => decodeFe w
  | 0x20 => some (.beq a d i)
  | 0x21 => some (.bne a d i)
  | 0x22 => some (.blt a d i)
  | 0x23 => some (.bge a d i)
  | 0x24 => some (.bltu a d i)
  | 0x25 => some (.bgeu a d i)
  | 0x26 => decodeBm w
  | 0x27 => some (.jal d (BitVec.ofNat 21 (fld w 0 21)))
  | 0x28 => some (.jalr d a i)
  | 0x2a => decodeVop w
  | 0x2b => decodeVcmp w
  | 0x2c => decodeVxf w
  | 0x30 => decodeCell w
  | 0x31 => decodeXfer w
  | 0x32 => decodeMsg w
  | 0x33 => decodeSys w
  | 0x34 => if fld w 16 10 = 0 then some (.trap i) else none
  | 0x35 => if fld w 16 10 = 0 then some (.svc i) else none
  | 0x36 => if fld w 12 9 = 0 then some (.gsr d (BitVec.ofNat 12 (fld w 0 12))) else none
  | 0x37 => if fld w 12 4 = 0 ∧ fld w 21 5 = 0 then some (.ssr a (BitVec.ofNat 12 (fld w 0 12))) else none
  | 0x38 => decodeAvc w
  | 0x39 => decodeEng w
  | _ => none

/-! ## Anvil slots -/

/-- Operation named by FN of a SEQ slot and its operand bits (R397 to R412). -/
def decodeSeq (w : Nat) : Option Instr :=
  let z (lo len : Nat) : Bool := fld w lo len == 0
  match fld w 19 5 with
  | 0x00 => if z 0 19 then some .nop else none
  | 0x01 => if z 0 19 then some .halt else none
  | 0x02 => if z 14 5 then some (.br (BitVec.ofNat 14 (fld w 0 14))) else none
  | 0x03 => if z 18 1 then some (.brz (sf w 14) (BitVec.ofNat 14 (fld w 0 14))) else none
  | 0x04 => if z 18 1 then some (.brnz (sf w 14) (BitVec.ofNat 14 (fld w 0 14))) else none
  | 0x05 => accept (.loop (hf w 16) (Fin.ofNat 4 (fld w 14 2)) (sf w 10) (BitVec.ofNat 10 (fld w 0 10)))
  | 0x06 => accept (.lstr (hf w 16) (Fin.ofNat 4 (fld w 14 2)) (sf w 10) (BitVec.ofNat 10 (fld w 0 10)))
  | 0x07 => if z 14 2 && z 0 10 then accept (.lext (hf w 16) (sf w 10)) else none
  | 0x08 => if z 0 16 then accept (.lgate (hf w 16)) else none
  | 0x09 => if z 8 6 then
      accept (.waitq (if bit w 14 then some (sf w 15) else none) (BitVec.ofNat 8 (fld w 0 8))) else none
  | 0x0a => if z 2 17 then some (.waittrg (Fin.ofNat 4 (fld w 0 2))) else none
  | 0x0b => if z 0 7 then
      (let f := if bit w 7 then some (sf w 8) else none
       if fld w 12 4 < 8 then some (.popq (hf w 16) (some (hf w 12)) f)
       else if fld w 12 4 = 8 then some (.popq (hf w 16) none f) else none) else none
  | 0x0c => if z 15 1 && z 0 12 then some (.pushq (hf w 16) (hf w 12)) else none
  | 0x0d => if z 0 5 then
      (if bit w 5 then some (.trgset (Fin.ofNat 4 (fld w 17 2)) (some (hf w 14, sf w 10, sf w 6)))
       else if z 6 11 then some (.trgset (Fin.ofNat 4 (fld w 17 2)) none) else none) else none
  | 0x0e => if z 0 13 then some (.anvilAdmit (sf w 15) (Fin.ofNat 4 (fld w 13 2))) else none
  | 0x0f => if z 0 16 then some (.anvilDone (hf w 16)) else none
  | 0x10 => some (.sli (sf w 15) (BitVec.ofNat 15 (fld w 0 15)))
  | 0x11 => if bit w 10 then some (.sadd (sf w 15) (sf w 11) (.inr (BitVec.ofNat 10 (fld w 0 10))))
      else if z 0 6 then some (.sadd (sf w 15) (sf w 11) (.inl (sf w 6))) else none
  | 0x12 => if bit w 10 then some (.ssub (sf w 15) (sf w 11) (.inr (BitVec.ofNat 10 (fld w 0 10))))
      else if z 0 6 then some (.ssub (sf w 15) (sf w 11) (.inl (sf w 6))) else none
  | 0x13 => if bit w 10 then some (.sand (sf w 15) (sf w 11) (.inr (BitVec.ofNat 10 (fld w 0 10))))
      else if z 0 6 then some (.sand (sf w 15) (sf w 11) (.inl (sf w 6))) else none
  | 0x14 => if z 6 5 then some (.sshl (sf w 15) (sf w 11) (BitVec.ofNat 6 (fld w 0 6))) else none
  | 0x15 => if z 0 15 then some (.fpcr (sf w 15)) else none
  | 0x16 => if z 15 4 && z 0 11 then some (.fpcw (sf w 11)) else none
  | _ => none

/-- LDT slots (R415). -/
def decodeLdt (w : Nat) : Option Instr :=
  let z (lo len : Nat) : Bool := fld w lo len == 0
  let n : Fin 4 := Fin.ofNat 4 (fld w 16 2)
  match fld w 19 5 with
  | 0 => if z 0 9 then some (.ldt (bit w 18) n (hf w 13) (sf w 9)) else none
  | 1 => if z 0 8 then some (.ldth (bit w 18) n (hf w 13) (sf w 9) (Fin.ofNat 2 (fld w 8 1))) else none
  | 2 => if z 16 2 && z 0 9 then some (.ldts (bit w 18) (hf w 13) (sf w 9)) else none
  | 3 => if z 0 8 then some (.ldw (sf w 15) (hf w 12) (sf w 8)) else none
  | _ => none

/-- Operand fields of MMA and MMAH (R416). -/
def mmaOps (w : Nat) : MmaOps where
  acc := Fin.ofNat 4 (fld w 17 2)
  a := Fin.ofNat 4 (fld w 15 2)
  b := Fin.ofNat 4 (fld w 13 2)
  zs := bit w 12
  kt := sf w 8
  ba := Fin.ofNat 4 (fld w 6 2)
  bb := Fin.ofNat 4 (fld w 4 2)
  int := bit w 3
  te := bit w 2

/-- MMA slots (R416). -/
def decodeMma (w : Nat) : Option Instr :=
  match fld w 19 5 with
  | 0 => if fld w 0 2 = 0 then some (.mma (mmaOps w)) else none
  | 1 => some (.mmah (mmaOps w) (Fin.ofNat 2 (fld w 1 1)) (Fin.ofNat 2 (fld w 0 1)))
  | _ => none

/-- VGA slots (R420, R423 to R425). -/
def decodeVga (w : Nat) : Option Instr :=
  let z (lo len : Nat) : Bool := fld w lo len == 0
  match fld w 19 5 with
  | 0 => if z 0 7 then some (.vga (Fin.ofNat 4 (fld w 17 2)) (hf w 14) (hf w 11) (sf w 7)) else none
  | 1 => if z 0 19 then some .vgwait else none
  | 2 => if z 0 9 then some (.scan (sf w 15) (hf w 12) (hf w 9)) else none
  | 3 => if z 0 19 then some .scanwait else none
  | _ => none

/-- VEC slots (R426, R427). -/
def decodeVec (w : Nat) : Option Instr :=
  let z (lo len : Nat) : Bool := fld w lo len == 0
  let d := sf w 15; let a := sf w 11; let b := sf w 7; let int := bit w 6
  match fld w 19 5 with
  | 0 => if z 0 6 then some (.wadd d a b int) else none
  | 1 => if z 0 6 then some (.wsub d a b int) else none
  | 2 => if z 0 6 then some (.wmul d a b int) else none
  | 3 => if z 0 6 then some (.wfma d a b int) else none
  | 4 => if z 0 6 then some (.wmax d a b int) else none
  | 5 => if z 0 6 then some (.wmin d a b int) else none
  | 6 => if z 0 4 then accept (.wcvt d a (Fin.ofNat 32 (fld w 6 5)) (Fin.ofNat 4 (fld w 4 2))) else none
  | 8 => if z 0 11 then some (.wexp d a) else none
  | 9 => if z 0 11 then some (.wlog d a) else none
  | 10 => if z 0 11 then some (.wrcp d a) else none
  | 11 => if z 0 11 then some (.wrsq d a) else none
  | 12 => if z 0 11 then some (.wtanh d a) else none
  | 13 => if z 0 11 then some (.wsig d a) else none
  | _ => none

/-- RED slots (R428). -/
def decodeRed (w : Nat) : Option Instr :=
  let z (lo len : Nat) : Bool := fld w lo len == 0
  let pl : Fin 4 := Fin.ofNat 4 (fld w 17 2)
  match fld w 19 5 with
  | 0 => if z 0 7 then some (.red pl (sf w 13) (bit w 12) (Fin.ofNat 32 (fld w 7 5))) else none
  | 1 => if z 0 7 then some (.redmax pl (sf w 13) (bit w 12) (Fin.ofNat 32 (fld w 7 5))) else none
  | 2 => if z 0 16 then some (.redclr pl (bit w 16)) else none
  | _ => none

/-- STC slots (R430, R431). -/
def decodeStc (w : Nat) : Option Instr :=
  let z (lo len : Nat) : Bool := fld w lo len == 0
  match fld w 19 5 with
  | 0 => if z 0 2 then accept (.stc (Fin.ofNat 4 (fld w 17 2)) (hf w 14) (sf w 10) (Fin.ofNat 32 (fld w 5 5))
      (Fin.ofNat 4 (fld w 3 2)) (bit w 2)) else none
  | 1 => accept (.stcw (sf w 15) (hf w 12) (sf w 8) (Fin.ofNat 32 (fld w 3 5)) (Fin.ofNat 4 (fld w 1 2)) (bit w 0))
  | 2 => if z 0 11 then some (.post (hf w 16) (if bit w 11 then some (sf w 12) else none)) else none
  | _ => none

/-- MOV slots (R429). -/
def decodeMov (w : Nat) : Option Instr :=
  let z (lo len : Nat) : Bool := fld w lo len == 0
  match fld w 19 5 with
  | 0 => if z 0 12 then some (.mov (sf w 15) (Fin.ofNat 4 (fld w 13 2)) (bit w 12)) else none
  | 1 => if z 0 7 then some (.mova (bit w 18) (Fin.ofNat 4 (fld w 16 2)) (sf w 12) (sf w 8) (bit w 7)) else none
  | 2 => if z 0 11 then some (.movs (bit w 18) (sf w 14) (hf w 11)) else none
  | 3 => if z 0 17 then some (.zacc (Fin.ofNat 4 (fld w 17 2))) else none
  | _ => none

/-- A slot: STOP, UNIT, GATE and the operation (R287). -/
structure Slot where
  stop : Bool
  unit : Nat
  gate : Nat
  op : Instr
  deriving DecidableEq, Repr, Inhabited

/-- The operation of a slot word (R287, R308). -/
def decodeSlotOp (w : Nat) : Option Instr :=
  match fld w 27 4 with
  | 0 => decodeSeq w
  | 1 => decodeLdt w
  | 2 => decodeMma w
  | 3 => decodeVga w
  | 4 => decodeVec w
  | 5 => decodeRed w
  | 6 => decodeStc w
  | 7 => decodeMov w
  | _ => none

/-- A slot word (R287). -/
def decodeSlot (w : Nat) : Option Slot :=
  (decodeSlotOp w).map fun i => { stop := bit w 31, unit := fld w 27 4, gate := fld w 24 3, op := i }

/-! ## Words of instructions -/

/-- The R form (R281). -/
def encR (major d a b md fn : Nat) : Nat := major * 2 ^ 26 + d * 2 ^ 21 + a * 2 ^ 16 + b * 2 ^ 11 + md * 2 ^ 8 + fn
/-- The I, S and B forms (R281). -/
def encI (major d a i : Nat) : Nat := major * 2 ^ 26 + d * 2 ^ 21 + a * 2 ^ 16 + i
/-- The V form (R281). -/
def encV (major d a b et p fn : Nat) : Nat :=
  major * 2 ^ 26 + d * 2 ^ 21 + a * 2 ^ 16 + b * 2 ^ 11 + et * 2 ^ 7 + p + fn
/-- A slot header: unit and function (R287). -/
def encU (unit fn ops : Nat) : Nat := unit * 2 ^ 27 + fn * 2 ^ 19 + ops
/-- The second operand of SADD, SSUB and SAND (R397). -/
def seqB : Fin 16 ⊕ BitVec 10 → Nat
  | .inl b => b.val * 2 ^ 6
  | .inr i => 2 ^ 10 + i.toNat
/-- MMA operands (R416). -/
def encMma (o : MmaOps) : Nat :=
  o.acc.val * 2 ^ 17 + o.a.val * 2 ^ 15 + o.b.val * 2 ^ 13 + b2n o.zs * 2 ^ 12 + o.kt.val * 2 ^ 8 + o.ba.val * 2 ^ 6
    + o.bb.val * 2 ^ 4 + b2n o.int * 2 ^ 3 + b2n o.te * 2 ^ 2

/-- Words of OP (R302). -/
def encodeInt : Instr → Option Nat
  | .add d a b m => some (encR 1 d a b (b2n m) 0)
  | .sub d a b m => some (encR 1 d a b (b2n m) 1)
  | .and d a b m => some (encR 1 d a b (b2n m) 2)
  | .or d a b m => some (encR 1 d a b (b2n m) 3)
  | .xor d a b m => some (encR 1 d a b (b2n m) 4)
  | .sll d a b m => some (encR 1 d a b (b2n m) 5)
  | .srl d a b m => some (encR 1 d a b (b2n m) 6)
  | .sra d a b m => some (encR 1 d a b (b2n m) 7)
  | .ror d a b m => some (encR 1 d a b (b2n m) 8)
  | .slt d a b m => some (encR 1 d a b (b2n m) 9)
  | .sltu d a b m => some (encR 1 d a b (b2n m) 10)
  | .min d a b m => some (encR 1 d a b (b2n m) 11)
  | .max d a b m => some (encR 1 d a b (b2n m) 12)
  | .minu d a b m => some (encR 1 d a b (b2n m) 13)
  | .maxu d a b m => some (encR 1 d a b (b2n m) 14)
  | .selnz d a b => some (encR 1 d a b 0 15)
  | .mul d a b m => some (encR 1 d a b (b2n m) 16)
  | .mulh d a b m => some (encR 1 d a b (b2n m) 17)
  | .mulhu d a b m => some (encR 1 d a b (b2n m) 18)
  | .div d a b m => some (encR 1 d a b (b2n m) 19)
  | .divu d a b m => some (encR 1 d a b (b2n m) 20)
  | .rem d a b m => some (encR 1 d a b (b2n m) 21)
  | .remu d a b m => some (encR 1 d a b (b2n m) 22)
  | .clz d a m => some (encR 1 d a 0 (b2n m) 24)
  | .ctz d a m => some (encR 1 d a 0 (b2n m) 25)
  | .popc d a m => some (encR 1 d a 0 (b2n m) 26)
  | .bswap d a m => some (encR 1 d a 0 (b2n m) 27)
  | _ => none

/-- Words of OPF (R303). -/
def encodeFp : Instr → Option Nat
  | .fadd f d a b => some (encR 2 d a b f.code 0)
  | .fsub f d a b => some (encR 2 d a b f.code 1)
  | .fmul f d a b => some (encR 2 d a b f.code 2)
  | .fdiv f d a b => some (encR 2 d a b f.code 3)
  | .fsqrt f d a => some (encR 2 d a 0 f.code 4)
  | .fma f d a b => some (encR 2 d a b f.code 5)
  | .fmin f d a b => some (encR 2 d a b f.code 6)
  | .fmax f d a b => some (encR 2 d a b f.code 7)
  | .feq f d a b => some (encR 2 d a b f.code 8)
  | .flt f d a b => some (encR 2 d a b f.code 9)
  | .fle f d a b => some (encR 2 d a b f.code 10)
  | .fclass f d a => some (encR 2 d a 0 f.code 11)
  | .fsgnj f d a b => some (encR 2 d a b f.code 12)
  | .fsgnjn f d a b => some (encR 2 d a b f.code 13)
  | .ftoi f d a => some (encR 2 d a 0 f.code 16)
  | .ftou f d a => some (encR 2 d a 0 f.code 17)
  | .itof f d a => some (encR 2 d a 0 f.code 18)
  | .utof f d a => some (encR 2 d a 0 f.code 19)
  | .fcvt f s d a => some (encR 2 d a s.code f.code 20)
  | _ => none

/-- Words of the immediate forms (R301). -/
def encodeImm : Instr → Option Nat
  | .extu d a n o => some (encI 3 d a (0 * 2 ^ 14 + n * 2 ^ 6 + o))
  | .exts d a n o => some (encI 3 d a (1 * 2 ^ 14 + n * 2 ^ 6 + o))
  | .ins d a n o => some (encI 3 d a (2 * 2 ^ 14 + n * 2 ^ 6 + o))
  | .addi d a i => some (encI 4 d a i.toNat)
  | .andi d a i => some (encI 5 d a i.toNat)
  | .ori d a i => some (encI 6 d a i.toNat)
  | .xori d a i => some (encI 7 d a i.toNat)
  | .slti d a i => some (encI 8 d a i.toNat)
  | .sltiu d a i => some (encI 9 d a i.toNat)
  | .lui d i => some (encI 10 d 0 i.toNat)
  | .slli d a m n => some (encI 11 d a (b2n m * 2 ^ 8 + 0 * 2 ^ 6 + n))
  | .srli d a m n => some (encI 11 d a (b2n m * 2 ^ 8 + 1 * 2 ^ 6 + n))
  | .srai d a m n => some (encI 11 d a (b2n m * 2 ^ 8 + 2 * 2 ^ 6 + n))
  | .rori d a m n => some (encI 11 d a (b2n m * 2 ^ 8 + 3 * 2 ^ 6 + n))
  | .shori d a i => some (encI 12 d a i.toNat)
  | .auipc d i => some (encI 13 d 0 i.toNat)
  | _ => none

/-- Words of loads and stores (R301). -/
def encodeMem : Instr → Option Nat
  | .lb d a i => some (encI 16 d a i.toNat)
  | .lbu d a i => some (encI 17 d a i.toNat)
  | .lh d a i => some (encI 18 d a i.toNat)
  | .lhu d a i => some (encI 19 d a i.toNat)
  | .lw d a i => some (encI 20 d a i.toNat)
  | .lwu d a i => some (encI 21 d a i.toNat)
  | .ld d a i => some (encI 22 d a i.toNat)
  | .vld d a i => some (encI 23 d a i.toNat)
  | .sb d a i => some (encI 24 d a i.toNat)
  | .sh d a i => some (encI 25 d a i.toNat)
  | .sw d a i => some (encI 26 d a i.toNat)
  | .sd d a i => some (encI 27 d a i.toNat)
  | .vst d a i => some (encI 28 d a i.toNat)
  | _ => none

/-- Words of ORD, AMO and FE (R304). -/
def encodeOrd : Instr → Option Nat
  | .lda d a s m => some (encR 0x1d d a 0 s.code (b2n m))
  | .ldaF d a s m => some (encR 0x1d d a 0 s.code (2 + b2n m))
  | .stl a b s m => some (encR 0x1d 0 a b s.code (4 + b2n m))
  | .fence s => some (encR 0x1d 0 0 0 s.code 16)
  | .fenceRel s => some (encR 0x1d 0 0 0 s.code 17)
  | .fenceAcq s => some (encR 0x1d 0 0 0 s.code 18)
  | .amoadd d a b m => some (encR 0x1e d a b (b2n m) 0)
  | .amoand d a b m => some (encR 0x1e d a b (b2n m) 1)
  | .amoor d a b m => some (encR 0x1e d a b (b2n m) 2)
  | .amoxor d a b m => some (encR 0x1e d a b (b2n m) 3)
  | .amoswap d a b m => some (encR 0x1e d a b (b2n m) 4)
  | .amomin d a b m => some (encR 0x1e d a b (b2n m) 5)
  | .amomax d a b m => some (encR 0x1e d a b (b2n m) 6)
  | .amominu d a b m => some (encR 0x1e d a b (b2n m) 7)
  | .amomaxu d a b m => some (encR 0x1e d a b (b2n m) 8)
  | .amocas d a b m => some (encR 0x1e d a b (b2n m) 9)
  | .ramoadd d a b m => some (encR 0x1e d a b (b2n m) 16)
  | .ramoswap d a b m => some (encR 0x1e d a b (b2n m) 17)
  | .rsd a b => some (encR 0x1e 0 a b 0 24)
  | .rsq a b => some (encR 0x1e 0 a b 0 25)
  | .ldfe d a => some (encR 0x1f d a 0 0 0)
  | .ldff d a => some (encR 0x1f d a 0 0 1)
  | .stef a b => some (encR 0x1f 0 a b 0 2)
  | .stff a b => some (encR 0x1f 0 a b 0 3)
  | _ => none

/-- Words of branches and jumps (R301). -/
def encodeCtl : Instr → Option Nat
  | .beq a b i => some (encI 32 b a i.toNat)
  | .bne a b i => some (encI 33 b a i.toNat)
  | .blt a b i => some (encI 34 b a i.toNat)
  | .bge a b i => some (encI 35 b a i.toNat)
  | .bltu a b i => some (encI 36 b a i.toNat)
  | .bgeu a b i => some (encI 37 b a i.toNat)
  | .bmany m i => some (0x26 * 2 ^ 26 + 0 * 2 ^ 23 + m * 2 ^ 21 + i.toNat)
  | .bmnone m i => some (0x26 * 2 ^ 26 + 1 * 2 ^ 23 + m * 2 ^ 21 + i.toNat)
  | .bmall m i => some (0x26 * 2 ^ 26 + 2 * 2 ^ 23 + m * 2 ^ 21 + i.toNat)
  | .jal d i => some (0x27 * 2 ^ 26 + d * 2 ^ 21 + i.toNat)
  | .jalr d a i => some (encI 0x28 d a i.toNat)
  | _ => none

/-- Words of VOP (R305). -/
def encodeVec : Instr → Option Nat
  | .vadd t d a b p => some (encV 0x2a d a b t.code (predBits p) 0)
  | .vsub t d a b p => some (encV 0x2a d a b t.code (predBits p) 1)
  | .vmul t d a b p => some (encV 0x2a d a b t.code (predBits p) 2)
  | .vfma t d a b p => some (encV 0x2a d a b t.code (predBits p) 3)
  | .vmin t d a b p => some (encV 0x2a d a b t.code (predBits p) 4)
  | .vmax t d a b p => some (encV 0x2a d a b t.code (predBits p) 5)
  | .vadds t d a b p => some (encV 0x2a d a b t.code (predBits p) 6)
  | .vsubs t d a b p => some (encV 0x2a d a b t.code (predBits p) 7)
  | .vand t d a b p => some (encV 0x2a d a b t.code (predBits p) 8)
  | .vor t d a b p => some (encV 0x2a d a b t.code (predBits p) 9)
  | .vxor t d a b p => some (encV 0x2a d a b t.code (predBits p) 10)
  | .vsll t d a b p => some (encV 0x2a d a b t.code (predBits p) 11)
  | .vsrl t d a b p => some (encV 0x2a d a b t.code (predBits p) 12)
  | .vsra t d a b p => some (encV 0x2a d a b t.code (predBits p) 13)
  | .vdiv t d a b p => some (encV 0x2a d a b t.code (predBits p) 14)
  | .vsqrt t d a p => some (encV 0x2a d a 0 t.code (predBits p) 15)
  | _ => none

/-- Words of VCMP and VXF (R305). -/
def encodeMsk : Instr → Option Nat
  | .vcmpeq t d a b p => some (encV 0x2b d a b t.code (predBits p) 0)
  | .vcmpne t d a b p => some (encV 0x2b d a b t.code (predBits p) 1)
  | .vcmplt t d a b p => some (encV 0x2b d a b t.code (predBits p) 2)
  | .vcmple t d a b p => some (encV 0x2b d a b t.code (predBits p) 3)
  | .vsel t d a b m => some (encV 0x2b d a b t.code (predBits (some m)) 4)
  | .mand d a b => some (encV 0x2b d a b 0 0 5)
  | .mor d a b => some (encV 0x2b d a b 0 0 6)
  | .mxor d a b => some (encV 0x2b d a b 0 0 7)
  | .mnot d a => some (encV 0x2b d a 0 0 0 8)
  | .mfromx d a => some (encV 0x2b d a 0 0 0 9)
  | .mtox d a => some (encV 0x2b d a 0 0 0 10)
  | .mpopc d a => some (encV 0x2b d a 0 0 0 11)
  | .vcvt t s d a p => some (encV 0x2c d a s.code t.code (predBits p) 0)
  | .vdot t s d a p => some (encV 0x2c d a s.code t.code (predBits p) 1)
  | .vperm t d a b p => some (encV 0x2c d a b t.code (predBits p) 2)
  | .vhash t d a b p => some (encV 0x2c d a b t.code (predBits p) 3)
  | .vnzc t d a m => some (encV 0x2c d a m t.code 0 4)
  | .vsplat t d a p => some (encV 0x2c d a 0 t.code (predBits p) 5)
  | .vext t d a b => some (encV 0x2c d a b t.code 0 6)
  | .vins t d a b => some (encV 0x2c d a b t.code 0 7)
  | .vredsum t d a p => some (encV 0x2c d a 0 t.code (predBits p) 8)
  | .vredmax t d a p => some (encV 0x2c d a 0 t.code (predBits p) 9)
  | .vredmin t d a p => some (encV 0x2c d a 0 t.code (predBits p) 10)
  | .vmov d a p => some (encV 0x2c d a 0 0 (predBits p) 11)
  | _ => none

/-- Words of CELL (R306). -/
def encodeCell : Instr → Option Nat
  | .copen d a b => some (encR 0x30 d a b 0 0)
  | .cputD a b => some (encR 0x30 0 a b 0 1)
  | .cputQ a b => some (encR 0x30 0 a b 1 1)
  | .cputR a b => some (encR 0x30 0 a b 1 2)
  | .seal a b s => some (encR 0x30 0 a b s.code 3)
  | .sealm a b s => some (encR 0x30 0 a b s.code 4)
  | .csett a b => some (encR 0x30 0 a b 0 5)
  | .cld d a => some (encR 0x30 d a 0 0 6)
  | .cldAcq d a => some (encR 0x30 d a 0 0 7)
  | .cretire a => some (encR 0x30 0 a 0 0 8)
  | .done a => some (encR 0x30 0 a 0 0 9)
  | .cstat d a b => some (encR 0x30 d a b 0 10)
  | .cbinit a b => some (encR 0x30 0 a b 0 16)
  | .cbpop d a => some (encR 0x30 d a 0 0 17)
  | .cbfree a b => some (encR 0x30 0 a b 0 18)
  | .binit a b => some (encR 0x30 0 a b 0 24)
  | .barrv d a b => some (encR 0x30 d a b 0 25)
  | .bwait a b => some (encR 0x30 0 a b 0 26)
  | .bretire a => some (encR 0x30 0 a 0 0 27)
  | _ => none

/-- Words of XFER and MSG (R307). -/
def encodeMsg : Instr → Option Nat
  | .xfer a => some (encR 0x31 0 a 0 0 0)
  | .xgather a => some (encR 0x31 0 a 0 0 1)
  | .xscatter a => some (encR 0x31 0 a 0 0 2)
  | .xrestart a => some (encR 0x31 0 a 0 0 8)
  | .xdiscard a => some (encR 0x31 0 a 0 0 9)
  | .send d a b c => some (0x32 * 2 ^ 26 + d * 2 ^ 21 + a * 2 ^ 16 + b * 2 ^ 11 + clsBits c + 0)
  | .sendRel d a b c s => some (0x32 * 2 ^ 26 + d * 2 ^ 21 + a * 2 ^ 16 + b * 2 ^ 11 + clsBits c + 1 + s.code)
  | .activate d a b c => some (0x32 * 2 ^ 26 + d * 2 ^ 21 + a * 2 ^ 16 + b * 2 ^ 11 + clsBits c + 4)
  | .activateRel d a b c s => some (0x32 * 2 ^ 26 + d * 2 ^ 21 + a * 2 ^ 16 + b * 2 ^ 11 + clsBits c + 5 + s.code)
  | .spawn d a b c => some (0x32 * 2 ^ 26 + d * 2 ^ 21 + a * 2 ^ 16 + b * 2 ^ 11 + clsBits c + 8)
  | .spawnRel d a b c s => some (0x32 * 2 ^ 26 + d * 2 ^ 21 + a * 2 ^ 16 + b * 2 ^ 11 + clsBits c + 9 + s.code)
  | .recv d => some (0x32 * 2 ^ 26 + d * 2 ^ 22 + 16)
  | .recvAcq d => some (0x32 * 2 ^ 26 + d * 2 ^ 22 + 17)
  | .tryrecv d => some (0x32 * 2 ^ 26 + d * 2 ^ 22 + 18)
  | .tryrecvAcq d => some (0x32 * 2 ^ 26 + d * 2 ^ 22 + 19)
  | .waitmsg => some (0x32 * 2 ^ 26 + 20)
  | .msgmaskSet => some (0x32 * 2 ^ 26 + 2 ^ 8 + 21)
  | .msgmaskClr => some (0x32 * 2 ^ 26 + 21)
  | .mret => some (0x32 * 2 ^ 26 + 22)
  | .exit => some (0x32 * 2 ^ 26 + 23)
  | _ => none

/-- Words of SYS, traps, state registers, AVC and ENG (R301, R307). -/
def encodeSys : Instr → Option Nat
  | .tret => some (0x33 * 2 ^ 26)
  | .brk => some (0x33 * 2 ^ 26 + 1)
  | .faultwait d a b => some (encR 0x33 d a b 0 2)
  | .sret => some (0x33 * 2 ^ 26 + 16)
  | .kill a => some (encR 0x33 0 a 0 0 17)
  | .tlbinv a => some (encR 0x33 0 a 0 0 18)
  | .grpw a b => some (encR 0x33 0 a b 0 19)
  | .keyld a b => some (encR 0x33 0 a b 0 20)
  | .trap i => some (encI 0x34 0 0 i.toNat)
  | .svc i => some (encI 0x35 0 0 i.toNat)
  | .gsr d n => some (encI 0x36 d 0 n.toNat)
  | .ssr a n => some (encI 0x37 0 a n.toNat)
  | .avload a b => some (encR 0x38 0 a b 0 0)
  | .avstart a b => some (encR 0x38 0 a b 0 1)
  | .avstop a => some (encR 0x38 0 a 0 0 2)
  | .avpost a b => some (encR 0x38 0 a b 0 3)
  | .avstat d a => some (encR 0x38 d a 0 0 4)
  | .coll a => some (encR 0x39 0 a 0 0 0)
  | .viewget d a => some (encR 0x39 d a 0 0 1)
  | .mtrap a => some (encR 0x39 0 a 0 0 2)
  | .admitS a b => some (encR 0x39 0 a b 0 3)
  | _ => none

/-- Words of SEQ slots (R308). -/
def encodeSeq : Instr → Option Nat
  | .nop => some 0
  | .halt => some (encU 0 1 0)
  | .br t => some (encU 0 2 t.toNat)
  | .brz a t => some (encU 0 3 (a * 2 ^ 14 + t.toNat))
  | .brnz a t => some (encU 0 4 (a * 2 ^ 14 + t.toNat))
  | .loop l st t e => some (encU 0 5 (l * 2 ^ 16 + st * 2 ^ 14 + t * 2 ^ 10 + e.toNat))
  | .lstr l k r d => some (encU 0 6 (l * 2 ^ 16 + k * 2 ^ 14 + r * 2 ^ 10 + d.toNat))
  | .lext l a => some (encU 0 7 (l * 2 ^ 16 + a * 2 ^ 10))
  | .lgate l => some (encU 0 8 (l * 2 ^ 16))
  | .waitq d k => some (encU 0 9 ((match d with | none => 0 | some r => r.val * 2 ^ 15 + 2 ^ 14) + k.toNat))
  | .waittrg t => some (encU 0 10 t)
  | .popq h q f => some (encU 0 11 (h * 2 ^ 16 + (match q with | none => 8 * 2 ^ 12 | some n => n.val * 2 ^ 12)
      + (match f with | none => 0 | some r => r.val * 2 ^ 8 + 2 ^ 7)))
  | .pushq h q => some (encU 0 12 (h * 2 ^ 16 + q * 2 ^ 12))
  | .trgset t arm => some (encU 0 13 (t * 2 ^ 17 + (match arm with
      | none => 0 | some (q, n, f) => q.val * 2 ^ 14 + n.val * 2 ^ 10 + f.val * 2 ^ 6 + 2 ^ 5)))
  | .anvilAdmit n l => some (encU 0 14 (n * 2 ^ 15 + l * 2 ^ 13))
  | .anvilDone h => some (encU 0 15 (h * 2 ^ 16))
  | .sli d i => some (encU 0 16 (d * 2 ^ 15 + i.toNat))
  | .sadd d a b => some (encU 0 17 (d * 2 ^ 15 + a * 2 ^ 11 + seqB b))
  | .ssub d a b => some (encU 0 18 (d * 2 ^ 15 + a * 2 ^ 11 + seqB b))
  | .sand d a b => some (encU 0 19 (d * 2 ^ 15 + a * 2 ^ 11 + seqB b))
  | .sshl d a n => some (encU 0 20 (d * 2 ^ 15 + a * 2 ^ 11 + n.toNat))
  | .fpcr d => some (encU 0 21 (d * 2 ^ 15))
  | .fpcw a => some (encU 0 22 (a * 2 ^ 11))
  | _ => none

/-- Words of LDT, MMA and VGA slots (R308). -/
def encodeUnit : Instr → Option Nat
  | .ldt t n h r => some (encU 1 0 (b2n t * 2 ^ 18 + n * 2 ^ 16 + h * 2 ^ 13 + r * 2 ^ 9))
  | .ldth t n h r k => some (encU 1 1 (b2n t * 2 ^ 18 + n * 2 ^ 16 + h * 2 ^ 13 + r * 2 ^ 9 + k * 2 ^ 8))
  | .ldts t h r => some (encU 1 2 (b2n t * 2 ^ 18 + h * 2 ^ 13 + r * 2 ^ 9))
  | .ldw r h k => some (encU 1 3 (r * 2 ^ 15 + h * 2 ^ 12 + k * 2 ^ 8))
  | .mma o => some (encU 2 0 (encMma o))
  | .mmah o ha hb => some (encU 2 1 (encMma o + ha * 2 + hb))
  | .vga c hs ha k => some (encU 3 0 (c * 2 ^ 17 + hs * 2 ^ 14 + ha * 2 ^ 11 + k * 2 ^ 7))
  | .vgwait => some (encU 3 1 0)
  | .scan d hs ho => some (encU 3 2 (d * 2 ^ 15 + hs * 2 ^ 12 + ho * 2 ^ 9))
  | .scanwait => some (encU 3 3 0)
  | _ => none

/-- Words of VEC slots (R308). -/
def encodeRow : Instr → Option Nat
  | .wadd d a b n => some (encU 4 0 (d * 2 ^ 15 + a * 2 ^ 11 + b * 2 ^ 7 + b2n n * 2 ^ 6))
  | .wsub d a b n => some (encU 4 1 (d * 2 ^ 15 + a * 2 ^ 11 + b * 2 ^ 7 + b2n n * 2 ^ 6))
  | .wmul d a b n => some (encU 4 2 (d * 2 ^ 15 + a * 2 ^ 11 + b * 2 ^ 7 + b2n n * 2 ^ 6))
  | .wfma d a b n => some (encU 4 3 (d * 2 ^ 15 + a * 2 ^ 11 + b * 2 ^ 7 + b2n n * 2 ^ 6))
  | .wmax d a b n => some (encU 4 4 (d * 2 ^ 15 + a * 2 ^ 11 + b * 2 ^ 7 + b2n n * 2 ^ 6))
  | .wmin d a b n => some (encU 4 5 (d * 2 ^ 15 + a * 2 ^ 11 + b * 2 ^ 7 + b2n n * 2 ^ 6))
  | .wcvt d a f md => some (encU 4 6 (d * 2 ^ 15 + a * 2 ^ 11 + f * 2 ^ 6 + md * 2 ^ 4))
  | .wexp d a => some (encU 4 8 (d * 2 ^ 15 + a * 2 ^ 11))
  | .wlog d a => some (encU 4 9 (d * 2 ^ 15 + a * 2 ^ 11))
  | .wrcp d a => some (encU 4 10 (d * 2 ^ 15 + a * 2 ^ 11))
  | .wrsq d a => some (encU 4 11 (d * 2 ^ 15 + a * 2 ^ 11))
  | .wtanh d a => some (encU 4 12 (d * 2 ^ 15 + a * 2 ^ 11))
  | .wsig d a => some (encU 4 13 (d * 2 ^ 15 + a * 2 ^ 11))
  | _ => none

/-- Words of RED, STC and MOV slots (R308). -/
def encodeOut : Instr → Option Nat
  | .red p r n l => some (encU 5 0 (p * 2 ^ 17 + r * 2 ^ 13 + b2n n * 2 ^ 12 + l * 2 ^ 7))
  | .redmax p r n l => some (encU 5 1 (p * 2 ^ 17 + r * 2 ^ 13 + b2n n * 2 ^ 12 + l * 2 ^ 7))
  | .redclr p n => some (encU 5 2 (p * 2 ^ 17 + b2n n * 2 ^ 16))
  | .stc c h r f k n => some (encU 6 0 (c * 2 ^ 17 + h * 2 ^ 14 + r * 2 ^ 10 + f * 2 ^ 5 + k * 2 ^ 3 + b2n n * 2 ^ 2))
  | .stcw r h o f k n => some (encU 6 1 (r * 2 ^ 15 + h * 2 ^ 12 + o * 2 ^ 8 + f * 2 ^ 3 + k * 2 + b2n n))
  | .post h r => some (encU 6 2 (h * 2 ^ 16 + (match r with | none => 0 | some k => k.val * 2 ^ 12 + 2 ^ 11)))
  | .mov r p c => some (encU 7 0 (r * 2 ^ 15 + p * 2 ^ 13 + b2n c * 2 ^ 12))
  | .mova t c r k l => some (encU 7 1 (b2n t * 2 ^ 18 + c * 2 ^ 16 + r * 2 ^ 12 + k * 2 ^ 8 + b2n l * 2 ^ 7))
  | .movs t r h => some (encU 7 2 (b2n t * 2 ^ 18 + r * 2 ^ 14 + h * 2 ^ 11))
  | .zacc c => some (encU 7 3 (c * 2 ^ 17))
  | _ => none

/-- The word of a swarm instruction or of an anvil slot with STOP and GATE clear; none for an event. -/
def encode (i : Instr) : Option Nat :=
  encodeInt i <|> encodeFp i <|> encodeImm i <|> encodeMem i <|> encodeOrd i <|> encodeCtl i <|> encodeVec i <|> encodeMsk i <|>
  encodeCell i <|> encodeMsg i <|> encodeSys i <|> encodeSeq i <|> encodeUnit i <|> encodeRow i <|> encodeOut i

/-- The instruction word, or 0 for an event. -/
def encodeWord (i : Instr) : Nat := (encode i).getD 0

/-- A swarm instruction, as opposed to an anvil slot or an event. -/
noncomputable def Instr.isSwarm (i : Instr) : Bool :=
  match encode i with
  | some w => decide (decodeSwarm w = some i)
  | none => false

/-! ## Bytes -/

/-- The number a list of bytes stands for, least significant first. -/
def leNat : List Byte → Nat
  | [] => 0
  | b :: t => b.toNat + 256 * leNat t

/-- The first `n` bytes of a number, least significant first. -/
def leBytes : Nat → Nat → List Byte
  | 0, _ => []
  | n + 1, w => BitVec.ofNat 8 w :: leBytes n (w / 256)

/-- The swarm instruction at the head of a list of bytes and the bytes after it (R281). -/
noncomputable def decodeBytes (bs : List Byte) : Option (Instr × List Byte) :=
  if bs.length < 4 then none else (decodeSwarm (leNat (bs.take 4))).map fun i => (i, bs.drop 4)

/-- The instruction the decoder reads from a word whose bits are numbered as spec/opcode_table.json numbers them. -/
noncomputable def decodeTableWord (nbits w : Nat) : Option Instr :=
  (decodeBytes (leBytes 4 (w % 2 ^ nbits))).map Prod.fst

end Sys2Proof
end

