-- ==== Sys2Proof/Machine/Crypto.lean ====
section
/-!
DEFINITION. The two published standards that the manual names: SHA-256 (R43, R44, R75) and AES-XTS-256 over a 64-byte line
with the line's physical address as its tweak (R45). The manual gives their names alone; what they compute is taken from
FIPS 180-4, FIPS 197 and IEEE 1619 (log 6, log 8).
-/

namespace Sys2Proof.Machine

/-! ## SHA-256 -/

abbrev Sha32 := BitVec 32

/-- The first primes, from which the standard takes its constants. -/
def shaPrimes : List Nat :=
  (List.range 312).filter fun p => decide (2 ≤ p) && (List.range 18).all fun q => decide (q < 2) || decide (p ≤ q) || p % q != 0

/-- The largest `r` of `k` bits with `r ^ e ≤ n`, bit by bit from above. -/
def rootBits (e n : Nat) : Nat → Nat → Nat
  | 0, r => r
  | k + 1, r => rootBits e n k (if (r + 2 ^ k) ^ e ≤ n then r + 2 ^ k else r)

/-- The first 32 bits of the fraction of a prime's `e`-th root. -/
def shaFraction (e p : Nat) : Sha32 := BitVec.ofNat 32 (rootBits e (p * 2 ^ (32 * e)) 37 0)

/-- The constants of the rounds, from cube roots, and the digest before the first block, from square roots. -/
def shaK : List Sha32 := shaPrimes.map (shaFraction 3)
def shaH : List Sha32 := (shaPrimes.take 8).map (shaFraction 2)

/-- A word turned right by each of several amounts, the results added bit by bit. -/
def turns (l : List Nat) (x : Sha32) : Sha32 := l.foldl (fun y n => y ^^^ x.rotateRight n) 0

/-- `k` further words of a message schedule, whose words are listed youngest first. -/
def shaSchedule : Nat → List Sha32 → List Sha32
  | 0, w => w
  | k + 1, w =>
    let at_ (i : Nat) : Sha32 := w.getD i 0
    let late := turns [17, 19] (at_ 1) ^^^ at_ 1 >>> 10
    let early := turns [7, 18] (at_ 14) ^^^ at_ 14 >>> 3
    shaSchedule k ((late + at_ 6 + early + at_ 15) :: w)

/-- One round, from the constant and the schedule word added. -/
def shaRound (v : List Sha32) (kw : Sha32 × Sha32) : List Sha32 :=
  let at_ (i : Nat) : Sha32 := v.getD i 0
  let t1 := at_ 7 + turns [6, 11, 25] (at_ 4) + ((at_ 4 &&& at_ 5) ^^^ (~~~(at_ 4) &&& at_ 6)) + kw.1 + kw.2
  let t2 := turns [2, 13, 22] (at_ 0) + ((at_ 0 &&& at_ 1) ^^^ (at_ 0 &&& at_ 2) ^^^ (at_ 1 &&& at_ 2))
  [t1 + t2, at_ 0, at_ 1, at_ 2, at_ 3 + t1, at_ 4, at_ 5, at_ 6]

/-- A number of `n` bytes, most significant byte first. -/
def beBytes (n v : Nat) : List Byte := (leBytes n v).reverse
def beNat (bs : List Byte) : Nat := leNat bs.reverse

/-- The digest goes through `n` blocks of 64 bytes. -/
def shaBlocks : Nat → List Sha32 → List Byte → List Sha32
  | 0, h, _ => h
  | n + 1, h, bs =>
    let w := (List.range 16).map fun i => BitVec.ofNat 32 (beNat ((bs.drop (4 * i)).take 4))
    let v := (shaK.zip (shaSchedule 48 w.reverse).reverse).foldl shaRound h
    shaBlocks n (h.zipWith (· + ·) v) (bs.drop 64)

/-- SHA-256 of bytes: 32 bytes. -/
def sha256 (bs : List Byte) : List Byte :=
  let zeros := (119 - bs.length % 64) % 64
  let m := bs ++ [0x80] ++ List.replicate zeros 0 ++ beBytes 8 (8 * bs.length)
  (shaBlocks (m.length / 64) shaH m).flatMap fun x => beBytes 4 x.toNat

/-! ## AES-256 -/

def xtime (a : Byte) : Byte := a <<< 1 ^^^ (if a.msb then 0x1B else 0)

/-- Product in the field of 256 elements, bit by bit of the second factor. -/
def gmul (a b : Byte) : Byte :=
  ((List.range 8).foldl (fun (p : Byte × Byte) i => (if b.getLsbD i then p.1 ^^^ p.2 else p.1, xtime p.2)) (0, a)).1

/-- The inverse, as the 254th power; of 0 it is 0. -/
def ginv (a : Byte) : Byte :=
  ((List.range 7).foldl (fun (p : Byte × Byte) _ => let q := gmul p.2 p.2; (gmul p.1 q, q)) (1, a)).1

def subByte (a : Byte) : Byte :=
  let b := ginv a
  b ^^^ b.rotateLeft 1 ^^^ b.rotateLeft 2 ^^^ b.rotateLeft 3 ^^^ b.rotateLeft 4 ^^^ 0x63
def unsubByte (a : Byte) : Byte := ginv (a.rotateLeft 1 ^^^ a.rotateLeft 3 ^^^ a.rotateLeft 6 ^^^ 0x05)

def xorBytes (a b : List Byte) : List Byte := a.zipWith (· ^^^ ·) b

/-- `k` further words of a key schedule, whose words are listed youngest first; word `i` comes next. -/
def aesSchedule : Nat → Nat → Byte → List (List Byte) → List (List Byte)
  | 0, _, _, w => w
  | k + 1, i, rcon, w =>
    let last := w.headD []
    let f := if i % 8 = 0 then xorBytes ((last.drop 1 ++ last.take 1).map subByte) [rcon, 0, 0, 0]
      else if i % 8 = 4 then last.map subByte else last
    aesSchedule k (i + 1) (if i % 8 = 0 then xtime rcon else rcon) (xorBytes (w.getD 7 []) f :: w)

/-- The fifteen round keys of a key of 32 bytes. -/
def aesKeys (key : List Byte) : List (List Byte) :=
  let w0 := (List.range 8).map fun i => (key.drop (4 * i)).take 4
  let w := (aesSchedule 52 8 1 w0.reverse).reverse
  (List.range 15).map fun r => ((w.drop (4 * r)).take 4).flatten

/-- Bytes of a block moved within their rows: row r by `k` × r columns. -/
def aesRows (k : Nat) (b : List Byte) : List Byte := (List.range 16).map fun i => b.getD ((i + 4 * k * (i % 4)) % 16) 0

/-- Each column times a fixed polynomial, given by its coefficients. -/
def aesColumns (c : List Byte) (b : List Byte) : List Byte :=
  (List.range 16).map fun i =>
    (List.range 4).foldl (fun x j => x ^^^ gmul (c.getD j 0) (b.getD (i / 4 * 4 + (i + j) % 4) 0)) 0

/-- The block cipher and its inverse on 16 bytes. -/
def aesEncrypt (key b : List Byte) : List Byte :=
  let ks := aesKeys key
  let mid := (ks.drop 1).take 13
  let s := mid.foldl (fun s k => xorBytes (aesColumns [2, 3, 1, 1] (aesRows 1 (s.map subByte))) k) (xorBytes b (ks.getD 0 []))
  xorBytes (aesRows 1 (s.map subByte)) (ks.getD 14 [])

def aesDecrypt (key b : List Byte) : List Byte :=
  let ks := aesKeys key
  let mid := ((ks.drop 1).take 13).reverse
  let s := mid.foldl (fun s k => aesColumns [14, 11, 13, 9] (xorBytes ((aesRows 3 s).map unsubByte) k)) (xorBytes b (ks.getD 14 []))
  xorBytes ((aesRows 3 s).map unsubByte) (ks.getD 0 [])

/-! ## AES-XTS-256 over a line (R45) -/

/-- The tweak of the next block. -/
def xtsNext (t : List Byte) : List Byte :=
  let n := 2 * leNat t
  leBytes 16 (if n < 2 ^ 128 then n else (n % 2 ^ 128).xor 0x87)

/-- A line block by block, through a cipher under the data key. -/
def xtsBlocks (f : List Byte → List Byte) : Nat → List Byte → List Byte → List Byte
  | 0, _, _ => []
  | n + 1, t, bs => xorBytes (f (xorBytes (bs.take 16) t)) t ++ xtsBlocks f n (xtsNext t) (bs.drop 16)

/-- The tweak of a line: its physical address, enciphered under the tweak key. -/
def xtsTweak (tweak : BitVec 256) (line : Nat) : List Byte := aesEncrypt (leBytes 32 tweak.toNat) (leBytes 16 (64 * line))

def xtsEncrypt (data tweak : BitVec 256) (line : Nat) (bs : List Byte) : List Byte :=
  xtsBlocks (aesEncrypt (leBytes 32 data.toNat)) 4 (xtsTweak tweak line) bs
def xtsDecrypt (data tweak : BitVec 256) (line : Nat) (bs : List Byte) : List Byte :=
  xtsBlocks (aesDecrypt (leBytes 32 data.toNat)) 4 (xtsTweak tweak line) bs

end Sys2Proof.Machine
end

