-- ==== Sys2Proof/Machine/Ops.lean ====
section
/-!
DEFINITION. The named operations every meaning is written with: sparse tables, memory, registers, event records, the
bellows, messages, the end of an activation, and taking a trap (chapters 1, 3, 5, 6). An operation acts on the whole
state and names the slot, cluster, anvil or die it acts on by number.
-/

namespace Sys2Proof.Machine

/-- What a meaning answers with. -/
abbrev Out := Host.Outcome State Fault Refusal

/-! ## Sparse tables and sets -/

def fget {α : Type} : FMap α → Nat → Option α
  | [], _ => none
  | (a, v) :: t, k => if a = k then some v else fget t k

def fset {α : Type} : FMap α → Nat → α → FMap α
  | [], k, v => [(k, v)]
  | (a, w) :: t, k, v =>
    if a < k then (a, w) :: fset t k v else if a = k then (k, v) :: t else (k, v) :: (a, w) :: t

def fdel {α : Type} (m : FMap α) (k : Nat) : FMap α := m.filter fun p => p.1 != k

def nins : NSet → Nat → NSet
  | [], k => [k]
  | a :: t, k => if a < k then a :: nins t k else if a = k then a :: t else k :: a :: t

def nrem (m : NSet) (k : Nat) : NSet := m.filter (· != k)

/-- The first place at which a predicate holds. -/
def firstIdx {α : Type} (p : α → Bool) : List α → Option Nat
  | [] => none
  | a :: t => if p a then some 0 else (firstIdx p t).map (· + 1)

/-- A list without its first element that satisfies a predicate. -/
def dropFirst {α : Type} (p : α → Bool) : List α → List α
  | [] => []
  | a :: t => if p a then t else a :: dropFirst p t

/-- An element enters a list that rises by a rank, behind those of its own rank. -/
def insBy {α : Type} (f : α → Nat) : List α → α → List α
  | [], x => [x]
  | a :: t, x => if f a ≤ f x then a :: insBy f t x else x :: a :: t

/-- A list in order of a rank. -/
def inOrder {α : Type} (f : α → Nat) (l : List α) : List α := l.foldl (insBy f) []

/-- The lowest number in a range of `n` numbers that a predicate accepts. -/
def lowest (n : Nat) (p : Nat → Bool) : Option Nat := (List.range n).find? p

/-! ## Bit fields -/

/-- A number with one of its fields replaced. -/
def setFld (w lo len v : Nat) : Nat := w - fld w lo len * 2 ^ lo + v % 2 ^ len * 2 ^ lo

/-- A number as a 64-bit word. -/
def wd (n : Nat) : Word := BitVec.ofNat 64 n

/-- A count that sticks at its largest value. -/
def sat (n bits : Nat) : Nat := Nat.min n (2 ^ bits - 1)

/-! ## Memory: one sparse table of bytes under unified keys (R17, R202, R223, R291) -/

abbrev Mem := List Host.Cell

/-- A byte; one that nothing has written reads as zero (R46, R205, log 4). -/
def memGet (m : Mem) (a : Nat) : Byte := (fget m a).getD 0

/-- Writing a byte keeps the list canonical: no entry is zero. -/
def memSet (m : Mem) (a : Nat) (b : Byte) : Mem := if b = 0 then fdel m a else fset m a b

def memRead (m : Mem) : Nat → Nat → List Byte
  | _, 0 => []
  | a, n + 1 => memGet m a :: memRead m (a + 1) n

def memWrite (m : Mem) (a : Nat) : List Byte → Mem
  | [] => m
  | b :: t => memWrite (memSet m a b) (a + 1) t

/-- The canonical form: addresses strictly rising, no entry zero. -/
abbrev Memory.wf (m : Mem) : Prop := m.Pairwise (fun p q => p.1 < q.1) ∧ ∀ p ∈ m, p.2 ≠ 0

/-- Key of a comb byte. -/
def combKey (cl off : Nat) : Nat := 2 ^ 52 + cl * 2 ^ 22 + off
/-- Key of a byte of anvil instruction memory. -/
def imemKey (av off : Nat) : Nat := 2 ^ 53 + av * 2 ^ 16 + off

def combBytes (s : State) (cl off n : Nat) : List Byte := memRead s.mem (combKey cl off) n
def combNat (s : State) (cl off n : Nat) : Nat := leNat (combBytes s cl off n)
def combPut (s : State) (cl off : Nat) (bs : List Byte) : State :=
  { s with mem := memWrite s.mem (combKey cl off) bs }
def combPutNat (s : State) (cl off n v : Nat) : State := combPut s cl off (leBytes n v)

/-! ## Units by number -/

def ctxOf (s : State) (n : Nat) : Ctx := (fget s.ctxs n).getD {}
def modCtx (s : State) (n : Nat) (f : Ctx → Ctx) : State := { s with ctxs := fset s.ctxs n (f (ctxOf s n)) }
/-- The context whose instruction is in hand. -/
def cur (s : State) : Ctx := ctxOf s s.cx
def modCur (s : State) (f : Ctx → Ctx) : State := modCtx s s.cx f
def coreOf (s : State) (k : Nat) : Core := (fget s.cores k).getD {}
def modCore (s : State) (k : Nat) (f : Core → Core) : State := { s with cores := fset s.cores k (f (coreOf s k)) }
def clOf (s : State) (c : Nat) : Cluster := (fget s.clusters c).getD {}
def modCl (s : State) (c : Nat) (f : Cluster → Cluster) : State :=
  { s with clusters := fset s.clusters c (f (clOf s c)) }
def avOf (s : State) (a : Nat) : Anvil := (fget s.anvils a).getD {}
def modAv (s : State) (a : Nat) (f : Anvil → Anvil) : State := { s with anvils := fset s.anvils a (f (avOf s a)) }
def dieOf (s : State) (d : Nat) : Die := (fget s.dies d).getD {}
def modDie (s : State) (d : Nat) (f : Die → Die) : State := { s with dies := fset s.dies d (f (dieOf s d)) }
def portOf (s : State) (p : Nat) : Port := (fget s.ports p).getD {}
def modPort (s : State) (p : Nat) (f : Port → Port) : State := { s with ports := fset s.ports p (f (portOf s p)) }
def viewOf (s : State) (n : Nat) : ViewSlot := (fget s.views n).getD {}
def modView (s : State) (n : Nat) (f : ViewSlot → ViewSlot) : State :=
  { s with views := fset s.views n (f (viewOf s n)) }
def cellOf (s : State) (cl i : Nat) : Cell := (fget (clOf s cl).cells i).getD {}
def modCell (s : State) (cl i : Nat) (f : Cell → Cell) : State :=
  modCl s cl fun c => { c with cells := fset c.cells i (f ((fget c.cells i).getD {})) }
/-- The anvil context in hand: A or B of an anvil. -/
def avCtx (a : Anvil) (c : Nat) : AvCtx := if c = 0 then a.a else a.b
def modAvCtx (s : State) (av c : Nat) (f : AvCtx → AvCtx) : State :=
  modAv s av fun a => if c = 0 then { a with a := f a.a } else { a with b := f a.b }

/-- Cluster, core and die of a barrel slot; the die of a cluster (R4, R5). -/
def slotCl (n : Nat) : Nat := n / 128
def slotCore (n : Nat) : Nat := n / 16
def clDie (c : Nat) : Nat := c / 64
/-- Row 6 and 7 name no cluster (R4). -/
def clusterOk (c : Nat) : Bool := decide (c < 256) && decide (c / 8 % 8 < 6)
/-- Name of a context: generation and origin CXA (R6). -/
def nameOf (c : Ctx) : Nat := c.nameGen * 65536 + c.nameCxa
/-- Cluster of the context's CXA (R201). -/
def ownCl (c : Ctx) : Nat := c.nameCxa / 128 % 256

/-- The current cycle of the cluster a slot issues in. -/
def cycOf (s : State) (n : Nat) : Nat := (clOf s (slotCl n)).cyc

/-- The number of a context's next load, in order of issue. -/
def Ctx.nextNum (c : Ctx) : Nat := (c.loads.getLast?.map (·.num + 1)).getD 0

/-- A fresh index for a free value. -/
def draw (s : State) : Nat × State := (s.fresh, { s with fresh := s.fresh + 1 })

/-- A happening enters the agenda. -/
def later (s : State) (i : Instr) : State := { s with agenda := s.agenda ++ [i] }

/-- A serial number for order of arrival. -/
def serial (s : State) : Nat × State := (s.seq, { s with seq := s.seq + 1 })

/-! ## Registers of the context in hand (R284, R168) -/

def Ctx.getX (c : Ctx) (r : XReg) : Word :=
  if r.val = 0 then 0
  else if c.mhInh && decide (24 ≤ r.val) then c.shadow[r.val - 24]!
  else c.x[r.val]!

def Ctx.setX (c : Ctx) (r : XReg) (v : Word) : Ctx :=
  if r.val = 0 then c
  else if c.mhInh && decide (24 ≤ r.val) then { c with shadow := c.shadow.set! (r.val - 24) v }
  else { c with x := c.x.set! r.val v }

def Ctx.getV (c : Ctx) (r : VReg) : VWord := c.v[r.val]!
def Ctx.setV (c : Ctx) (r : VReg) (v : VWord) : Ctx := { c with v := c.v.set! r.val v }
def Ctx.getM (c : Ctx) (r : MReg) : BitVec 16 := c.m[r.val]!
def Ctx.setM (c : Ctx) (r : MReg) (v : BitVec 16) : Ctx := { c with m := c.m.set! r.val v }

def rx (s : State) (r : XReg) : Word := (cur s).getX r
def rv (s : State) (r : VReg) : VWord := (cur s).getV r
def rm (s : State) (r : MReg) : BitVec 16 := (cur s).getM r

/-- An instruction completes: the pc moves and no wait is left (R168, R188). -/
def Ctx.goto (c : Ctx) (pc : Word) : Ctx :=
  { c with pc := pc, wait := .none, waitSince := none, parked := false, fencing := false, ranTrap := true, ranHnd := true }

def goto (s : State) (pc : Word) : State := modCur s (·.goto pc)
/-- The next instruction follows. -/
def next (s : State) : State := modCur s fun c => c.goto (c.pc + 4)
/-- Slot `n` completes the instruction it waits in. -/
def nextAt (s : State) (n : Nat) : State := modCtx s n fun c => c.goto (c.pc + 4)

/-- Write a register and go on. -/
def wbX (s : State) (r : XReg) (v : Word) : State := modCur s fun c => (c.setX r v).goto (c.pc + 4)
def wbV (s : State) (r : VReg) (v : VWord) : State := modCur s fun c => (c.setV r v).goto (c.pc + 4)
def wbM (s : State) (r : MReg) (v : BitVec 16) : State := modCur s fun c => (c.setM r v).goto (c.pc + 4)

/-- PTS after a release (R239). -/
def Ctx.released (c : Ctx) (sc : Scope) : Ctx := if sc = .clu then c else { c with pts := Nat.max c.pts c.mts }

/-- A send is accepted, and leaves behind what it pledged: the clock of its release, LAST_C0, NXTDL (R152, R239, R375). -/
def pledged (s : State) (n : Nat) : State :=
  match (ctxOf s n).pledge with
  | none => s
  | some p =>
    let t := modCtx s n fun c =>
      let c := match p.rel with | some sc => c.released sc | none => c
      let keep := p.demoted || !p.c0
      { c with pledge := none, lastC0 := if keep then c.lastC0 else some p.gtc, c0Short := keep && c.c0Short,
               nxtdl := if p.dl then 0 else c.nxtdl }
    if p.demoted then modCl t (slotCl n) fun k => { k with demoted := sat (k.demoted + 1) 16 } else t

/-- The send that slot `n` is held at is accepted. -/
def acceptedAt (s : State) (n : Nat) : State := nextAt (pledged s n) n

/-- The cluster cycle at which an instruction that parks was issued: kept while it is retried, and not counted from an
interlock that held it before (R171, R206, R334). -/
def Ctx.issuedAt (c : Ctx) (cyc : Nat) : Nat := if c.parked then c.waitSince.getD cyc else cyc

/-- The context parks or waits for an answer; the cycle of issue is kept while an instruction is retried. -/
def park (s : State) (w : Wait) : State :=
  modCur s fun c =>
    { c with wait := w, waitSince := some (c.issuedAt (cycOf s s.cx)), parked := true, fencing := c.fencing || w == .fenceSys,
             ranTrap := true, ranHnd := true }

/-- The instruction issues again later (an interlock of R310): nothing changes but the note of when it first issued. -/
def hold (s : State) : State :=
  modCur s fun c => { c with waitSince := some (c.waitSince.getD (cycOf s s.cx)) }

/-! ## Event records and the two host queues (R122 to R124, R37, R38) -/

/-- A record of `n` bytes from its fields: first byte, length, value. -/
def record (n : Nat) (fs : List (Nat × Nat × Nat)) : List Byte :=
  leBytes n (fs.foldl (fun w f => w + f.2.2 % 256 ^ f.2.1 * 256 ^ f.1) 0)

/-- Source number of a unit (R38). -/
def unitSrc (kind inst : Nat) : Nat := 0x8000 + kind * 2048 + inst

def HostQ.full (q : HostQ) : Bool := decide (2 ^ q.logsize ≤ (q.prod + 2 ^ 32 - q.cons) % 2 ^ 32)

/-- The vector of a queue is signalled, or owed until MODERATE microseconds have passed (R122). -/
def HostQ.signal (s : State) (q : HostQ) : HostQ × FMap Nat :=
  if q.moderate == 0 || (match q.lastIrq with | none => true | some t => decide (t + q.moderate * 1000 ≤ s.gtc)) then
    ({ q with lastIrq := some s.gtc, owedIrq := false }, fset s.irqs q.vector ((fget s.irqs q.vector).getD 0 + 1))
  else ({ q with owedIrq := true }, s.irqs)

/-- A record goes into host memory, PROD advances, the vector is signalled (R122). -/
def ringPut (s : State) (ev : Bool) (bs : List Byte) : State :=
  let q := if ev then s.evq else s.fsq
  let a := 2 ^ 48 + q.base + q.prod % 2 ^ q.logsize * 64
  let (q', irqs) := HostQ.signal s { q with prod := (q.prod + 1) % 2 ^ 32 }
  let t := { s with mem := memWrite s.mem a bs, irqs := irqs }
  if ev then { t with evq := q' } else { t with fsq := q' }

/-- An event record: held while the ring is full or disabled, dropped beyond 256 (R123). -/
def eventBytes (s : State) (bs : List Byte) : State :=
  if s.evq.en && !s.evq.full && s.evq.held.isEmpty && s.evq.dropped == 0 then ringPut s true bs
  else if s.evq.held.length < 256 then { s with evq := { s.evq with held := s.evq.held ++ [bs] } }
  else { s with evq := { s.evq with dropped := s.evq.dropped + 1 } }

/-- An event record of a type (R124). -/
def event (s : State) (src type : Nat) (fs : List (Nat × Nat × Nat)) : State :=
  eventBytes s (record 64 ([(0, 8, s.gtc), (8, 2, src), (10, 2, s.devid), (12, 1, type)] ++ fs))

/-- An event record that may stand among the held ones until the next nanosecond, so that what takes another path can come
before it (R470). -/
def eventSoon (s : State) (wait : Bool) (src type : Nat) (fs : List (Nat × Nat × Nat)) : State :=
  let bs := record 64 ([(0, 8, s.gtc), (8, 2, src), (10, 2, s.devid), (12, 1, type)] ++ fs)
  if wait && decide (s.evq.held.length < 256) then { s with evq := { s.evq with held := s.evq.held ++ [bs] } }
  else eventBytes s bs

/-- Held records go out while there is room, then one of type 0x24 that carries the count (R123). -/
def eventDrain : Nat → State → State
  | 0, s => s
  | k + 1, s =>
    if !s.evq.en || s.evq.full then s else
    match s.evq.held with
    | b :: t => eventDrain k (ringPut { s with evq := { s.evq with held := t } } true b)
    | [] =>
      if s.evq.dropped = 0 then s
      else ringPut { s with evq := { s.evq with dropped := 0 } } true
        (record 64 [(0, 8, s.gtc), (8, 2, unitSrc 9 0), (10, 2, s.devid), (12, 1, 0x24), (16, 4, sat s.evq.dropped 32)])

/-- A discarded launch record (R115, type 0x22). -/
def launchDiscard (s : State) (reason : Nat) (r : LRec) : State :=
  event s (unitSrc 9 0) 0x22 [(16, 1, reason), (24, 8, r.hdr.toNat), (32, 8, r.tgtWord.toNat), (40, 8, r.tag.toNat)]

/-! ## The bellows (R22 to R29) -/

/-- EU per cycle of a rate level (R25). -/
def rate (l : Nat) : Nat := l % 4 + 1

/-- The class a waiting request counts as (R27). -/
def effClass (win : Nat) (r : AdReq) : Nat := if r.cls = 0 then 0 else Nat.max 1 (r.cls - (win - r.win) / 16)

/-- The cluster cycle that governs a holder's grant. -/
def holderCyc (s : State) : Holder → Nat
  | .ctx n => cycOf s n
  | .anvil av _ => (clOf s (av / 2)).cyc
  | .te cl _ => (clOf s cl).cyc

/-- The amount a transfer command moves (R369). -/
def TeCmd.amount (m : TeCmd) : Nat := if m.kind = 0 then m.len else m.rows * m.len
/-- The next segment that a grant of the TE pays for, and its charge (R26). -/
def TeCmd.segment (m : TeCmd) : Nat := Nat.min (2 ^ 24) (m.amount - m.charged)
def TeCmd.segEu (m : TeCmd) : Nat := (m.segment + 255) / 256
/-- A segment's charge is debited from the grant given for it (R26). -/
def TeCmd.paid (m : TeCmd) (left : Nat) : TeCmd :=
  { m with grant := some (left - m.segEu), charged := m.charged + m.segment, waitGrant := false }

/-- A grant is given; the waiting instruction completes (R25, R27, R412, R387). -/
def giveGrant (s : State) (r : AdReq) : State :=
  let g : Grant := { left := r.n * rate r.lvl, endCyc := holderCyc s r.who + r.n }
  match r.who with
  | .ctx n => modCtx s n fun c =>
      if c.wait = .forGrant then { c.goto (c.pc + 4) with grant := some g } else { c with grant := some g }
  | .anvil av k => modAvCtx s av k fun c => { c with grant := some g, admitted := true }
  | .te cl id => later (modCl s cl fun c =>
      { c with te := c.te.map fun t => if t.id = id then t.paid g.left else t }) (.teChunk cl)

/-- One request is considered: granted if it fits (R27). -/
def tryGrant (s : State) (d : Nat) (r : AdReq) : State :=
  let die := dieOf s d
  let a : Int := (r.n * rate r.lvl : Nat)
  let fits := if r.cls = 0 then decide (0 ≤ die.level - a) else decide ((12 * die.b : Nat) ≤ 100 * (die.level - a))
  if s.gtcRun && decide (0 ≤ die.level) && fits then
    giveGrant (modDie s d fun e => { e with level := e.level - a, reqs := e.reqs.filter (·.who != r.who) }) r
  else s

/-- The order of preference: class, then arrival (R27). -/
def prefer (win : Nat) (rs : List AdReq) : List AdReq :=
  (List.range 4).flatMap fun c => rs.filter fun r => effClass win r == c

/-- The bellows goes through its waiting requests (R27). -/
def bellows (s : State) (d : Nat) : State :=
  (prefer (dieOf s d).win (dieOf s d).reqs).foldl (fun t r => tryGrant t d r) s

/-- Unused allowance returns to the die's level (R26). -/
def returnEu (s : State) (d left : Nat) : State :=
  bellows (modDie s d fun e => { e with level := e.level + left }) d

/-- The grant of a holder ends (R26). -/
def endGrant (s : State) : Holder → State
  | .ctx n =>
    match (ctxOf s n).grant with
    | none => s
    | some g => returnEu (modCtx s n fun c => { c with grant := none }) (clDie (slotCl n)) g.left
  | .anvil av k =>
    match (avCtx (avOf s av) k).grant with
    | none => s
    | some g => returnEu (modAvCtx s av k fun c => { c with grant := none }) (clDie (av / 2)) g.left
  | .te cl id =>
    match (clOf s cl).te.find? (·.id == id) with
    | none => s
    | some t => match t.grant with
      | none => s
      | some e =>
        returnEu (modCl s cl fun c => { c with te := c.te.map fun u => if u.id = id then { u with grant := none } else u })
          (clDie cl) e

/-- A request is withdrawn (R29). -/
def withdraw (s : State) (d : Nat) (who : Holder) : State :=
  modDie s d fun e => { e with reqs := e.reqs.filter (·.who != who) }

/-- The mesh cycle of the moment: 1.6 GHz beside the 1 GHz of the GTC (R19). -/
def meshCyc (s : State) : Nat := s.gtc * 8 / 5

/-- Source number of a requester (R38). -/
def holderSrc (s : State) : Holder → Nat
  | .ctx n => (ctxOf s n).nameCxa % 32768
  | .anvil av _ => unitSrc 0 av
  | .te cl _ => unitSrc 1 cl

/-- Waiting requests stand in order of arrival: by mesh cycle, within one by source number (R27, R29). -/
def insReq : List AdReq → AdReq → List AdReq
  | [], r => [r]
  | a :: t, r => if a.mesh < r.mesh ∨ (a.mesh = r.mesh ∧ a.src ≤ r.src) then a :: insReq t r else r :: a :: t

/-- A request for a grant arrives (R25, R27, R29). The caller has ended any grant held. A request that is granted on
arrival was the last to arrive in its mesh cycle (log 76). -/
def askGrant (s : State) (d : Nat) (who : Holder) (cls n lvl : Nat) : State :=
  let m := Nat.max (meshCyc s) (dieOf s d).nextMesh
  let r : AdReq := { who := who, cls := cls, n := Nat.min n 16384, lvl := lvl % 4, win := (dieOf s d).win, mesh := m,
                     src := holderSrc s who }
  let t := bellows (modDie s d fun e => { e with reqs := insReq e.reqs r }) d
  if (dieOf t d).reqs.contains r then t else modDie t d fun e => { e with nextMesh := m + 1 }

/-! ## Energy meters (R34, R35) -/

/-- Energy metered in a cluster, and outside the clusters of a die. -/
def meterCl (s : State) (c e : Nat) : State := modCl s c fun k => { k with meter := (k.meter + e) % 2 ^ 64 }
def meterDie (s : State) (d e : Nat) : State := modDie s d fun k => { k with meter := (k.meter + e) % 2 ^ 64 }

/-! ## Messages (R163 to R167) -/

def msgSource (m : Msg) : Nat := fld m.w0.toNat 36 28
def msgCls (m : Msg) : Nat := fld m.w0.toNat 34 2
def msgKind (m : Msg) : Nat := fld m.w0.toNat 30 4
def msgIsBounce (m : Msg) : Bool := bit m.w0.toNat 29
def msgIsRemote (m : Msg) : Bool := bit m.w0.toNat 28
def msgTsv (m : Msg) : Bool := bit m.w0.toNat 27
def msgTs (m : Msg) : Nat := fld m.w0.toNat 0 24
/-- A unit sent it: SOURCE bit 15 (R163). -/
def msgFromUnit (m : Msg) : Bool := bit (msgSource m) 15

/-- Word 0 of a message (R163). -/
def msgHead (src cls kind : Nat) (ts : Option Nat) : Word :=
  wd (src * 2 ^ 36 + cls % 4 * 2 ^ 34 + kind * 2 ^ 30 +
    (match ts with | none => 0 | some t => 2 ^ 27 + t % 2 ^ 24))

/-- A message of this device. -/
def mkMsg (s : State) (src cls kind : Nat) (ts : Option Nat) (w1 w2 w3 : Word) : Msg :=
  ⟨msgHead src cls kind ts, w1, w2, w3, s.devid⟩

/-- A message sets out for a name of this device. -/
def sendMsg (s : State) (dest : Nat) (m : Msg) : State := later s (.messageDelivery dest m none)

/-- A message of a unit (R164). -/
def unitMsg (s : State) (src cls kind dest : Nat) (ts : Option Nat) (w1 w2 w3 : Word) : State :=
  sendMsg s dest (mkMsg s src cls kind ts w1 w2 w3)

/-- A dead letter in a cluster (R167). -/
def deadLetter (s : State) (cl dest sender : Nat) (word : Word) : State :=
  event (modCl s cl fun c => { c with deadltr := sat (c.deadltr + 1) 32 }) (unitSrc 4 cl) 0x23
    [(16, 4, dest), (20, 4, sender), (24, 8, word.toNat)]

/-- Queue a packet at the port its route names; the classes share one queue in order (R51, R59). -/
def txPut (s : State) (port : Nat) (p : Packet) : State := modPort s port fun q => { q with txq := q.txq ++ [p] }

/-- Where a packet for a device leaves: none without a valid entry, some none when only a FAILED or DOWN port is left,
else the port (R58, R59, R72). -/
def routeOf (s : State) (dev : Nat) : Option (Option Nat) :=
  let e := ((fget s.routes dev).getD 0).toNat
  let p := fld e 0 4
  let alt := fld e 4 4
  if !bit e 15 || decide (12 ≤ p) then none
  else
    let dead (q : Nat) : Bool := match (portOf s q).st with | .down | .failed => true | _ => false
    if !dead p then some (some p)
    else if bit e 14 && decide (alt < 12) && !dead alt then some (some alt)
    else some none

/-- In BOOT_FAIL the host port does nothing but serve BAR0's status and firmware-load registers (R43). -/
def hostShut (s : State) : Bool := s.devst == .bootFail

/-- The bytes of a message as a MSG packet carries them (R52). -/
def msgBytes (m : Msg) : List Byte :=
  leBytes 8 m.w0.toNat ++ leBytes 8 m.w1.toNat ++ leBytes 8 m.w2.toNat ++ leBytes 8 m.w3.toNat

/-- A MSG packet to a context of another device (R52). -/
def msgPacket (s : State) (dev dest cls : Nat) (m : Msg) : Packet :=
  { kind := 8, cls := cls, hops := 0, dest := dev, source := s.devid, tag := 0, addr := wd (dest % 2 ^ 28),
    data := msgBytes m, resv := false, ce := none }

/-- A message that cannot be delivered in a cluster returns to its sender, or is a dead letter (R165, R167). -/
def bounce (s : State) (cl dest : Nat) (m : Msg) (reason : Nat) : State :=
  if msgFromUnit m || msgIsBounce m then deadLetter s cl dest (msgSource m) m.w1
  else
    let w := m.w0.toNat
    let w := setFld (setFld (setFld w 36 28 dest) 29 1 1) 24 2 reason
    let b : Msg := { m with w0 := wd w }
    if msgIsRemote m && m.dev == s.devid then later s (.inMsg 0xFF (msgPacket s m.dev (msgSource m) (msgCls m) b))
    else if msgIsRemote m then
      match routeOf s m.dev with
      | some (some p) => txPut s p (msgPacket s m.dev (msgSource m) (msgCls m) b)
      | _ => deadLetter s cl dest (msgSource m) m.w1
    else sendMsg s (msgSource m) b

/-! ## Finding a context by name (R150, R158) -/

/-- A slot holds the active context of a name. -/
def holds (s : State) (n name : Nat) : Bool :=
  let c := ctxOf s n
  c.active && !c.dying && decide (nameOf c = name)

/-- An entry of an origin cluster is for a name (R150, R151). -/
def Fwd.of (name : Nat) (f : Fwd) : Bool := f.gen == name / 65536 % 4096 && f.origin == name % 128

/-- The entry by which the origin cluster forwards a name. -/
def fwdEntry (s : State) (name : Nat) : Option Fwd :=
  ((clOf s (name / 128 % 256)).fwd.find? fun p => p.2.of name).map Prod.snd

/-- The slot where the active context of a name issues. -/
def whereIs (s : State) (name : Nat) : Option Nat :=
  let own := name % 32768
  if holds s own name then some own
  else match fwdEntry s name with
    | some f => if holds s f.here name then some f.here else none
    | none => none

/-- A SAVED context of a name (R158). -/
def savedAs (s : State) (name : Nat) : Option Nat :=
  (s.saved.find? fun p => p.2.gen * 65536 + p.2.cxa == name).map Prod.fst

/-! ## Barrier slots in comb (R173, R154) -/

/-- A barrier slot as a number of 128 bits. -/
def barGet (s : State) (cl off : Nat) : Nat := combNat s cl off 16
def barPut (s : State) (cl off w : Nat) : State := combPutNat s cl off 16 w

/-- Members of a group: its MEMBERS field (R119). -/
def groupOf (s : State) (g : Nat) : Group := (fget s.groups g).getD {}

/-- A bank starts or ends the boost of its barrier slot (R154, R155). -/
def boostCheck (s : State) (cl off : Nat) : State :=
  let w := barGet s cl off
  let g := fld w 64 8
  let members := (groupOf s g).members
  let on := (clOf s cl).bars.contains off && bit w 62 && decide (members ≠ 0) && decide (3 * members ≤ 4 * fld w 16 15)
  let was := (clOf s cl).boosts.any (·.off == off)
  if on && !was then later s (.boost cl off)
  else if was && !on then later s (.release cl off)
  else s

/-- WAITERS of a slot changes (R174). -/
def barWaiters (s : State) (cl off n : Nat) : State := boostCheck (barPut s cl off (setFld (barGet s cl off) 16 15 n)) cl off

/-! ## Leaving a wait -/

/-- The waits that a message handler abandons (R168, R171, R177, R365, R373, R380). -/
def Wait.byHandler : Wait → Bool
  | .fe _ | .copen .. | .cretire .. | .bwait .. | .cbpop .. | .cbfree .. | .seal | .send .. | .launch .. | .te _ _ true
  | .avstart _ | .avload _ false => true
  | _ => false

/-- The waits that a pre-emption abandons (R196, R333, R370). -/
def Wait.byPreempt (w : Wait) : Bool :=
  w.byHandler || (match w with
    | .recv .. | .waitmsg | .te .. | .forGrant | .fenceSys | .faultid | .fetch .. | .coll | .combAmo .. | .keyld _ => true
    | _ => false)

/-- A context gives up the wait it is in, without effect (R168, R196, R29): BWAIT leaves WAITERS, a request at a bank
or a bellows is withdrawn, the last parked retirer leaves its cell SEALED. -/
def leaveWait (s : State) (n : Nat) : State :=
  let t := modCtx s n fun c => { c with wait := .none, waitSince := none, parked := false, fencing := false, pledge := none }
  match (ctxOf s n).wait with
  | .bwait cl off =>
    let w := barGet s cl off
    if (clOf s cl).bars.contains off then barWaiters t cl off (fld w 16 15 - 1) else t
  | .fe _ => { t with clusters := t.clusters.map fun p => (p.1, { p.2 with fe := p.2.fe.filter (·.cxa != n) }) }
  | .cretire cl i =>
    if s.ctxs.any fun p => p.1 != n && decide (p.2.wait = .cretire cl i) then t
    else modCell t cl i fun c => if c.st = .retiring then { c with st := .sealed } else c
  | .combAmo .. =>
    { t with clusters := t.clusters.map fun p => (p.1, { p.2 with defer := p.2.defer.map fun d =>
        match d.who with
        | .ctx m _ => if m = n then { d with who := .nobody } else d
        | _ => d }) }
  | .forGrant => withdraw t (clDie (slotCl n)) (.ctx n)
  | .keyld _ =>
    -- the keys have been handed over: the slot is loaded whatever becomes of the issuer (R391)
    match fget t.keyReqs n with
    | some (slot, k) => { t with keys := fset t.keys slot k, keyReqs := fdel t.keyReqs n }
    | none => t
  | .tlbinv =>
    -- the invalidation under way is nobody's any more (R391)
    { t with tlbReq := t.tlbReq.map fun r => if r.2 = some n then (r.1, none) else r }
  | .avload av false => modAv t av fun a => { a with loads := a.loads.filter (·.cxa != n) }
  | _ => t

/-! ## Idle members and idle notices (R135, R136) -/

/-- The groups in a context's valid slots (R121, R162). -/
def groupsOf (c : Ctx) : List Nat :=
  ((List.range 4).filter fun i => c.grpValid.getLsbD i).map fun i => (c.grp[i]!).toNat

/-- The slot is enabled (R31). -/
def slotOn (s : State) (n : Nat) : Bool := !(coreOf s (slotCore n)).off.getLsbD (n % 16)

/-- A slot that can take an activation. -/
def idle (s : State) (n : Nat) : Bool :=
  !(ctxOf s n).active && slotOn s n && (fget s.saved n).isNone

/-- The idle members of a group in a cluster. -/
def idleMembers (s : State) (cl g : Nat) : List Nat :=
  (s.ctxs.filter fun p => slotCl p.1 == cl && (groupsOf p.2).contains g && idle s p.1).map Prod.fst

/-- Notices for the groups of a slot whose number of idle members changed between zero and non-zero (R136). -/
def idleNoticesFor (s : State) (cl : Nat) (gs : List Nat) : State :=
  gs.foldl (fun t g =>
    let some? := !(idleMembers t cl g).isEmpty
    if some? == (clOf t cl).told.contains g then t
    else later (modCl t cl fun c => { c with told := if some? then nins c.told g else nrem c.told g })
      (.idleNotice g cl some?)) s

def idleNotices (s : State) (n : Nat) : State := idleNoticesFor s (slotCl n) (groupsOf (ctxOf s n))

/-! ## The end of an activation (R160, R161) -/

/-- A held CTXGRP write applies (R121). -/
def Ctx.applyGrp (c : Ctx) : Ctx :=
  match c.grpHeld with
  | none => c
  | some w => { c with
      grpValid := BitVec.ofNat 4 (fld w.toNat 32 4),
      grp := Vector.ofFn fun i : Fin 4 => BitVec.ofNat 8 (fld w.toNat (8 * i.val) 8),
      grpHeld := none }

/-- The CORESCHED bits of a slot apply as written (R134). -/
def Core.applyBits (k : Core) (i : Nat) : Core :=
  let m : BitVec 16 := BitVec.ofNat 16 (2 ^ i)
  { k with poolEff := (k.poolEff &&& ~~~m) ||| (k.pool &&& m), c0resEff := (k.c0resEff &&& ~~~m) ||| (k.c0res &&& m) }

/-- The messages spilled for a name, in the cluster where it stands and at its origin, in order of arrival (R166). -/
def spilledFor (s : State) (cl name : Nat) : List Spilled :=
  let org := name / 128 % 256
  inOrder Spilled.num (((clOf s cl).spill ++ if org = cl then [] else (clOf s org).spill).filter (·.dest == name))

/-- Spilled messages leave the spill areas of a cluster and of the name's origin. -/
def unspill (s : State) (cl name : Nat) (p : Spilled → Bool) : State :=
  let t := modCl s cl fun c => { c with spill := c.spill.filter fun e => !(e.dest == name && p e) }
  modCl t (name / 128 % 256) fun c => { c with spill := c.spill.filter fun e => !(e.dest == name && p e) }

/-- Every message held for a context returns to its sender: mailbox, then spill area (R160). -/
def bounceAll (s : State) (n name : Nat) : State :=
  let cl := slotCl n
  let box := (ctxOf s n).mailbox
  let held := spilledFor s cl name
  let t := unspill (modCtx s n fun c => { c with mailbox := [] }) cl name fun _ => true
  (box ++ held.map Spilled.msg).foldl (fun u m => bounce u cl name m 0) t

/-- The restart entries of an issuer are freed, in every TE that holds one (R191). -/
def freeRestarts (s : State) (name : Nat) : State :=
  { s with clusters := s.clusters.map fun (p : Nat × Cluster) => (p.1, { p.2 with restarts := p.2.restarts.map fun r =>
    match r.2.cmd with
    | some t => if t.issuer = name then (r.1, { r.2 with cmd := none }) else r
    | none => r }) }

/-- The cells a context owns pause or go on with their seal deadlines (R199, R201). -/
def pauseCells (s : State) (name : Nat) (p : Bool) : State :=
  { s with clusters := s.clusters.map fun c => (c.1, { c.2 with cells := c.2.cells.map fun e =>
      if e.2.owner = name ∧ e.2.st = .opn ∧ e.2.dlv then (e.1, { e.2 with dlp := p }) else e }) }

/-- The seal deadlines of a context's cells pause (R196, R201). -/
def pauseOf (s : State) (n : Nat) : State :=
  modCtx (pauseCells s (nameOf (ctxOf s n)) true) n fun c => { c with dlPaused := true }

/-- They go on: the context issues again, or has ended (R200, R160). -/
def unpause (s : State) (n : Nat) : State :=
  if (ctxOf s n).dlPaused then modCtx (pauseCells s (nameOf (ctxOf s n)) false) n fun c => { c with dlPaused := false } else s

/-- A record leaves its queue. -/
def lqDrop (s : State) (q : Nat) : State :=
  { s with clusters := s.clusters.map fun (p : Nat × Cluster) => (p.1, { p.2 with lq := p.2.lq.filter (·.seq != q) }) }

/-- A field of a queued record changes. -/
def lqMap (s : State) (f : LRec → LRec) : State :=
  { s with clusters := s.clusters.map fun (p : Nat × Cluster) => (p.1, { p.2 with lq := p.2.lq.map f }) }

/-- The forwarding entry of a name is cleared (R151). -/
def clearFwd (s : State) (name : Nat) : State :=
  modCl s (name / 128 % 256) fun c => { c with fwd := c.fwd.filter fun p => !p.2.of name }

/-- Steps 2 to 4 of R160: messages return, grant and request end, deadline and forwarding entry go; paused seal deadlines run
on. -/
def endEffects (s : State) (n : Nat) : State :=
  let name := nameOf (ctxOf s n)
  let t := leaveWait s n
  let t := bounceAll t n name
  let t := withdraw (endGrant t (.ctx n)) (clDie (slotCl n)) (.ctx n)
  let t := unpause (freeRestarts t name) n
  clearFwd (modCtx t n fun c => { c with deadline := none, pendDl := false, faultDone := none, loads := [] }) name

/-- The kill record of R161 and R124. -/
def killRecord (s : State) (n : Nat) (cause tval epc : Nat) : State :=
  let c := ctxOf s n
  let (f, s) := draw s
  eventSoon s ((Config.freeWord f).getLsbD 0) (c.nameCxa % 32768) 0x20
    [(16, 4, nameOf c), (20, 1, cause), (21, 1, c.tcause1.toNat), (22, 1, c.tcause2.toNat),
     (23, 1, (groupsOf c).headD 0), (24, 8, epc), (32, 8, c.tepc1.toNat), (40, 8, c.tepc2.toNat), (48, 8, tval),
     (56, 8, c.tag.toNat)]

/-- The KILL message to the supervisor of the first group (R161). -/
def killMessage (s : State) (n : Nat) (cause : Nat) : State :=
  let c := ctxOf s n
  match groupsOf c with
  | [] => s
  | g :: _ =>
    unitMsg s (unitSrc 4 (slotCl n)) c.cls 9 (groupOf s g).supervisor none
      (wd (nameOf c + s.devid * 2 ^ 28))
      (wd (cause % 256 + c.tcause1.toNat % 256 * 256 + c.tcause2.toNat % 256 * 65536 + g * 2 ^ 24)) (wd s.gtc)

/-- Generation of the slot that a name counts in. -/
def bumpGen (s : State) (name : Nat) : State :=
  modCtx s (name % 32768) fun c => if c.gen = name / 65536 % 4096 then { c with gen := (c.gen + 1) % 4096 } else c

end Sys2Proof.Machine
end

