-- ==== Sys2Proof/Machine/Ecc.lean ====
section
/-!
DEFINITION. The physical map of HBM and host memory (R17, R18, R108, R223), and what an access to a line finds of the errors
that stand in it (R39, R42).
-/

namespace Sys2Proof.Machine

/-! ## The physical map -/

/-- HBM lies below 2^40 (R223). -/
def isHbm (pa : Nat) : Bool := decide (pa < 2 ^ 40)

/-- Stack and offset of an HBM address, when one of the two windows of R17 backs it. -/
def stackOf (s : State) (pa : Nat) : Option (Nat × Nat) :=
  let gib := s.hbmLocal
  if pa < 2 ^ 39 then
    if pa < 8 * (48 - gib) * 2 ^ 30 then
      some ((fld pa 12 3).xor ((fld pa 15 3).xor (fld pa 18 3)), fld pa 15 24 * 4096 + fld pa 0 12)
    else none
  else if pa < 2 ^ 40 then
    let la := pa - 2 ^ 39
    let off := fld la 13 24 * 4096 + fld la 0 12
    if off < gib * 2 ^ 30 then some (2 * fld la 37 2 + fld la 12 1, (48 - gib) * 2 ^ 30 + off) else none
  else none

/-- An address that some memory backs (R223). -/
def backed (s : State) (pa : Nat) : Bool :=
  if isHbm pa then (stackOf s pa).isSome else decide (2 ^ 48 ≤ pa) && decide (pa < 2 ^ 52)

/-- Home slice of a line, counted over the device: die × 16 + slice (R18, R108). -/
def sliceOf (s : State) (line : Nat) : Nat :=
  let pa := 64 * line
  if isHbm pa then
    match stackOf s pa with
    | some (st, off) => st / 2 * 16 + (fld off 6 4).xor ((fld off 10 4).xor (st % 2 * 8))
    | none => 0
  else
    let h := pa - 2 ^ 48
    ((fld h 12 2).xor (fld h 20 2)) * 16 + (fld h 6 4).xor (fld h 14 4)

/-! ## Errors in HBM lines (R39, R42) -/

/-- The record of an error in a line: who found it, its PA range and its LOCATION word, zero for a host line. -/
def lineRecord (s : State) (src line kind sev count synd : Nat) : List Byte :=
  let pa := 64 * line
  let loc := match stackOf s pa with
    | some (st, off) => st * 2 ^ 29 + ((fld off 6 6).xor (fld off 12 6)) * 2 ^ 23 + fld off 13 23
    | none => 0
  record 64 [(0, 8, s.gtc), (8, 2, src), (10, 2, s.devid), (12, 1, kind), (13, 1, sev), (14, 2, sat count 16),
    (16, 8, pa), (24, 8, pa + 63), (32, 8, pa / 65536), (40, 4, loc), (44, 4, synd)]

/-- The record of an HBM controller. -/
def hbmRecord (s : State) (line kind sev count synd : Nat) : List Byte :=
  let st := match stackOf s (64 * line) with | some (k, _) => k | none => 0
  lineRecord s (unitSrc 3 st) line kind sev count synd

/-- The record of an error in the data that an L2 slice holds. -/
def l2Record (s : State) (line sev synd : Nat) : List Byte := lineRecord s (unitSrc 2 (sliceOf s line)) line 3 sev 1 synd

/-- Pseudo-channel of a line, over the device. -/
def chanOf (s : State) (line : Nat) : Nat :=
  match stackOf s (64 * line) with
  | some (st, off) => st * 64 + (fld off 6 6).xor (fld off 12 6)
  | none => 0

/-- A corrected error: one record per pseudo-channel and ms, the others counted in the next (R42). -/
def eccCorrected (s : State) (line synd : Nat) : State :=
  let ch := chanOf s line
  let quiet := match fget s.eccLast ch with | some (t, _) => decide (s.gtc < t + 1000000) | none => false
  if quiet then
    match fget s.eccLast ch with
    | some (t, k) => { s with eccLast := fset s.eccLast ch (t, k + 1) }
    | none => s
  else
    let k := match fget s.eccLast ch with | some (_, k) => k | none => 0
    eventBytes { s with eccLast := fset s.eccLast ch (s.gtc, 0) } (hbmRecord s line 1 0 (k + 1) synd)

/-- An uncorrectable error: a record, and the line is poisoned. -/
def eccPoison (s : State) (line synd : Nat) : State :=
  eventBytes { s with poison := nins s.poison line } (hbmRecord s line 1 1 1 synd)

/-- What the controller finds when it reads a line (R39): an error no access has met yet shows now (log 19). -/
def hbmDetect (s : State) (line : Nat) : State :=
  match fget s.latent line with
  | none => s
  | some r =>
    let t := { s with latent := fdel s.latent line }
    match r with
    | .clean => t
    | .corrected y => eccCorrected t line y.toNat
    | .uncorrectable y => eccPoison t line y.toNat

/-- What an L2 slice finds when it reads the data it holds for a line (R42): the line is corrected or poisoned. -/
def l2Detect (s : State) (line : Nat) : State :=
  match fget s.latentL2 line with
  | none => s
  | some r =>
    let t := { s with latentL2 := fdel s.latentL2 line }
    match r with
    | .clean => t
    | .corrected y => eventBytes t (l2Record t line 0 y.toNat)
    | .uncorrectable y => eventBytes { t with poison := nins t.poison line } (l2Record t line 1 y.toNat)

/-- What an access to a line at its home finds: in the L2's data when the line is there, else in HBM. -/
def lineDetect (s : State) (line : Nat) : State :=
  if (fget s.home line).isSome then l2Detect s line
  else if isHbm (64 * line) then hbmDetect s line else s

end Sys2Proof.Machine
end

