-- ==== Sys2Proof/Machine/Trap.lean ====
section
/-!
DEFINITION. Activation (R118), the end of an activation (R160, R161), the saved image and resume (R197, R200), taking
a trap and returning from one (R182, R183), and asynchronous traps (R188).
-/

namespace Sys2Proof.Machine

/-! ## Time bases -/

/-- BTS (R230, R253). -/
def btsOf (s : State) : Nat := s.btsN * 2 ^ 23

/-! ## Memory as held under a key (R45, R216) -/

/-- The key under which a line's contents stand; the key of slot 0 where none is noted (R46). -/
def lineKeyOf (s : State) (line : Nat) : KeyVal := (fget s.lineKey line).getD (.boot s.resets)

/-- The data key and the tweak key of a key value. -/
def keyBits : KeyVal → BitVec 256 × BitVec 256
  | .boot n => Config.bootKey n
  | .loaded d t => (d, t)

/-- What 64 bytes written under one key read as under another: their ciphertext under the first, deciphered under the
second (R45, R216). -/
def recipher (k0 k : KeyVal) (line : Nat) (raw : List Byte) : List Byte :=
  xtsDecrypt (keyBits k).1 (keyBits k).2 line (xtsEncrypt (keyBits k0).1 (keyBits k0).2 line raw)

/-- What a line's 64 bytes read as under a key. -/
def lineUnder (s : State) (k : KeyVal) (line : Nat) : List Byte :=
  let raw := memRead s.mem (64 * line) 64
  if lineKeyOf s line = k then raw else recipher (lineKeyOf s line) k line raw

/-- A byte of HBM or host memory under a key slot. Host memory and comb carry no key (R45). -/
def byteUnder (s : State) (key pa : Nat) : Byte :=
  if isHbm pa then
    match fget s.keys key with
    | some k => if lineKeyOf s (pa / 64) = k then memGet s.mem pa else (lineUnder s k (pa / 64)).getD (pa % 64) 0
    | none => memGet s.mem pa
  else memGet s.mem pa

def readUnder (s : State) (key pa n : Nat) : List Byte := (List.range n).map fun i => byteUnder s key (pa + i)

/-- A line passes under another key: it is refetched and deciphered under that key (R216). -/
def rekeyLine (s : State) (key line : Nat) : State :=
  match fget s.keys key with
  | none => s
  | some k =>
    if !isHbm (64 * line) || lineKeyOf s line == k then s
    else { s with mem := memWrite s.mem (64 * line) (lineUnder s k line), lineKey := fset s.lineKey line k }

/-- Bytes written within one line, under a key slot. A whole line written clears poison (R39). -/
def writeUnder (s : State) (key pa : Nat) (bs : List Byte) : State :=
  let t := rekeyLine s key (pa / 64)
  let t := { t with mem := memWrite t.mem pa bs }
  if bs.length = 64 then { t with poison := nrem t.poison (pa / 64), latent := fdel t.latent (pa / 64), latentL2 := fdel t.latentL2 (pa / 64) } else t

/-- Bytes written over several lines. -/
def writeSpan (s : State) (key : Nat) : Nat → Nat → List Byte → State
  | 0, _, _ => s
  | k + 1, pa, bs =>
    let n := 64 - pa % 64
    if bs.isEmpty then s else writeSpan (writeUnder s key pa (bs.take n)) key k (pa + n) (bs.drop n)

/-! ## Activation (R118, R159) -/

/-- The deadline record of R128: LATE and TRAPPED. -/
def deadlineRecord (s : State) (name src gtc : Nat) (tag : Word) (late trapped : Bool) : State :=
  event s src 0x21 [(16, 4, name), (20, 1, b2n late + 2 * b2n trapped), (24, 8, gtc), (32, 8, tag.toNat)]

/-- The registers of an activated context (R118). -/
def Ctx.activated (c : Ctx) (n : Nat) (r : LRec) (pc gtc devid : Nat) : Ctx :=
  let g := (c.gen + 1) % 4096
  let pts := Nat.max c.pts r.ts
  { c with
    active := true, gen := g, nameCxa := n, nameGen := g, asid := r.asid, cls := r.cls, pc := wd pc,
    x := ((Vector.replicate 32 (0 : Word)).set! 4 r.a0).set! 5 r.a1,
    v := Vector.replicate 16 0, m := Vector.replicate 4 0, shadow := Vector.replicate 8 0, fcsr := 0,
    priv := .u, tl := 0, meter := 0, pts := pts, mts := pts, mrts := pts,
    tvec := 0, tepc1 := 0, tepc2 := 0, tcause1 := 0, tcause2 := 0, tval1 := 0, tval2 := 0,
    tscr := Vector.replicate 4 0, mhEn := false, mhInh := false, mhMask := false, mhvec := 0, mepc := 0,
    masked := 0, mtrapm := 0, nxtdl := 0, msgdev := devid, pendMask := false, pendDl := false, pendView := 0,
    drift := 0, deadline := none, tag := r.tag, born := gtc, mailbox := [], sb := [], loads := [], fetched := none, busy := [], wait := .none,
    waitSince := none, parked := false, fencing := false, pledge := none, dlPaused := false, grant := none, unacked := 0, lost := [],
    ranTrap := false, ranHnd := false, lastIssue := none, readySince := none, preempt := none, offAfter := false, dying := false, moving := none,
    faultDone := none }

/-- A record starts the context of slot `n` (R118, R128, R129). -/
def activate (s : State) (n : Nat) (r : LRec) : State :=
  let pc := if r.pc = 0 ∧ r.form = .group then (groupOf s r.target).entrypc
    else if r.pc = 0 ∧ r.form = .named then 0 else r.pc
  let t := modCtx s n fun c => c.activated n r pc s.gtc s.devid
  let t := match r.deadline with
    | none => t
    | some d =>
      if d ≤ s.gtc then
        deadlineRecord (modCtx t n fun c => { c with deadline := some ⟨d, r.dltrap, true⟩, pendDl := r.dltrap })
          (nameOf (ctxOf t n)) (n % 32768) d r.tag true r.dltrap
      else modCtx t n fun c => { c with deadline := some ⟨d, r.dltrap, false⟩ }
  idleNotices t n

/-! ## The saved image (R197, R198) -/

/-- Physical address of the image of a slot. -/
def imageAddr (s : State) (n : Nat) : Nat := s.ctxsaveBase + n % 32768 * 1024

/-- A register bank as bytes, `n` bytes each. -/
def bankBytes (n : Nat) (ws : List Nat) : List Byte := ws.flatMap (leBytes n)

/-- The 1,024 bytes of R197. The code of PARK KIND is not stated: a free value (log 20). -/
def imageOf (s : State) (n : Nat) (resume : Word) (amo : Bool) : List Byte :=
  let c := ctxOf s n
  let kind := (Config.freeWord s.fresh).toNat % 32
  let box := c.mailbox.flatMap msgBytes
  bankBytes 8 ((c.x.toList.drop 1).map BitVec.toNat) ++ leBytes 8 resume.toNat ++
  bankBytes 16 (c.v.toList.map BitVec.toNat) ++ bankBytes 8 (c.shadow.toList.map BitVec.toNat) ++
  (box ++ List.replicate (256 - box.length) 0) ++
  bankBytes 2 (c.m.toList.map BitVec.toNat) ++
  leBytes 8 (c.fcsr.toNat + c.tl * 2 ^ 32 + (if c.priv = .s then 2 ^ 34 else 0) + b2n c.mhEn * 2 ^ 35
    + b2n c.mhInh * 2 ^ 36 + b2n c.mhMask * 2 ^ 37 + c.masked % 2 ^ 13 * 2 ^ 38 + kind * 2 ^ 51
    + b2n c.pendMask * 2 ^ 56 + b2n c.pendDl * 2 ^ 57 + b2n (c.pendView != 0) * 2 ^ 58) ++
  leBytes 8 (c.pts + c.mts * 2 ^ 24) ++
  leBytes 8 (c.mrts + c.lastC0.getD 0 % 2 ^ 32 * 2 ^ 32) ++ leBytes 8 (btsOf s) ++
  leBytes 8 c.tvec.toNat ++ leBytes 8 c.tepc1.toNat ++ leBytes 8 c.tepc2.toNat ++
  leBytes 8 (c.tcause1.toNat % 2 ^ 32 + c.tcause2.toNat % 2 ^ 32 * 2 ^ 32) ++
  leBytes 8 c.tval1.toNat ++ leBytes 8 c.tval2.toNat ++ bankBytes 8 (c.tscr.toList.map BitVec.toNat) ++
  leBytes 8 c.mhvec.toNat ++ leBytes 8 c.mepc.toNat ++ leBytes 8 c.sepc.toNat ++ leBytes 8 c.meter ++
  leBytes 8 ((c.deadline.map DeadlineRec.gtc).getD 0) ++ leBytes 8 c.nxtdl.toNat ++
  leBytes 8 (c.cls + c.asid * 4 + nameOf c * 2 ^ 16 + c.msgdev * 2 ^ 44) ++
  leBytes 8 ((match c.wait with | .faultwait q => q | _ => 0) + b2n c.faultDone.isSome * 2 ^ 12
    + (if c.faultDone = some false then 2 ^ 13 else 0) + fld c.svcvec.toNat 2 46 * 2 ^ 15) ++
  leBytes 8 (c.mtrapm.toNat + c.pendView.toNat * 2 ^ 16 + b2n c.deadline.isSome * 2 ^ 32
    + b2n ((c.deadline.map DeadlineRec.trap).getD false) * 2 ^ 33 + b2n amo * 2 ^ 34
    + Nat.min c.mailbox.length 8 * 2 ^ 35)

/-- A timestamp of an image under the present base (R200). -/
def rebased (s : State) (savedBts off : Nat) : Nat := Nat.max (savedBts + off) (btsOf s) - btsOf s

/-- The messages of an image, their timestamps under the present base (R200, R245). -/
def imageBox (s : State) (img : List Byte) (sv : Saved) : List Msg :=
  let q (o len : Nat) : Nat := leNat ((img.drop o).take len)
  (List.range (fld (q 0x3F8 8) 35 4)).map fun i =>
    let w := q (0x240 + 32 * i) 8
    ⟨wd (if bit w 27 then setFld w 0 24 (rebased s (q 0x360 8) (fld w 0 24)) else w), wd (q (0x248 + 32 * i) 8),
      wd (q (0x250 + 32 * i) 8), wd (q (0x258 + 32 * i) 8), sv.devs.getD i s.devid⟩

/-- The context an image holds, on top of what stays with the slot (R197, R200). -/
def ofImage (s : State) (n : Nat) (img : List Byte) (sv : Saved) : Ctx :=
  let q (o len : Nat) : Nat := leNat ((img.drop o).take len)
  let c := ctxOf s n
  let st := q 0x348 8
  let id := q 0x3E8 8
  let fw := q 0x3F0 8
  let mt := q 0x3F8 8
  let b := q 0x360 8
  { c with
    active := true, nameCxa := sv.cxa, nameGen := sv.gen, asid := fld id 2 12, cls := fld id 0 2,
    x := Vector.ofFn fun i : Fin 32 => if i.val = 0 then 0 else wd (q (8 * (i.val - 1)) 8),
    pc := wd (q 0xF8 8),
    v := Vector.ofFn fun i : Fin 16 => BitVec.ofNat 128 (q (0x100 + 16 * i.val) 16),
    shadow := Vector.ofFn fun i : Fin 8 => wd (q (0x200 + 8 * i.val) 8),
    mailbox := imageBox s img sv,
    m := Vector.ofFn fun i : Fin 4 => BitVec.ofNat 16 (q (0x340 + 2 * i.val) 2),
    fcsr := BitVec.ofNat 9 st, tl := fld st 32 2, priv := if bit st 34 then .s else .u, mhEn := bit st 35,
    mhInh := bit st 36, mhMask := bit st 37, masked := fld st 38 13, pendMask := bit st 56, pendDl := bit st 57,
    pts := rebased s b (q 0x350 3), mts := rebased s b (q 0x353 3), mrts := rebased s b (q 0x358 3),
    lastC0 := some (q 0x35C 4), c0Short := true, pledge := none, dlPaused := true,
    tvec := wd (q 0x368 8), tepc1 := wd (q 0x370 8), tepc2 := wd (q 0x378 8), tcause1 := wd (q 0x380 4),
    tcause2 := wd (q 0x384 4), tval1 := wd (q 0x388 8), tval2 := wd (q 0x390 8),
    tscr := Vector.ofFn fun i : Fin 4 => wd (q (0x398 + 8 * i.val) 8),
    mhvec := wd (q 0x3B8 8), mepc := wd (q 0x3C0 8), sepc := wd (q 0x3C8 8), meter := q 0x3D0 8,
    nxtdl := wd (q 0x3E0 8), msgdev := fld id 44 12, svcvec := wd (fld fw 15 46 * 4),
    mtrapm := BitVec.ofNat 16 mt, pendView := BitVec.ofNat 16 (fld mt 16 16),
    deadline := if bit mt 32 then some ⟨q 0x3D8 8, bit mt 33, (sv.deadline.map DeadlineRec.done).getD false⟩ else none,
    drift := 0, tag := sv.tag, born := sv.born, sb := [], loads := [], fetched := none, busy := [], wait := .none, waitSince := none,
    parked := false, fencing := false, grant := none,
    unacked := sv.unacked, lost := sv.lost, ranTrap := sv.ranTrap, ranHnd := sv.ranHnd, lastIssue := none, readySince := none,
    preempt := none, dying := false, moving := none,
    faultDone := if bit fw 12 then some (fld fw 13 2 == 0) else none }

/-- Spilled messages of a name enter the mailbox while it has room, the oldest first (R166, R200). -/
def refill (s : State) (n name : Nat) : Nat → State
  | 0 => s
  | k + 1 =>
    if 8 ≤ (ctxOf s n).mailbox.length then s
    else match spilledFor s (slotCl n) name with
      | [] => s
      | p :: _ =>
        let t := unspill s (slotCl n) name fun e => e.num == p.num
        refill (modCtx t n fun c => { c with mailbox := c.mailbox ++ [p.msg] }) n name k

/-- The kill of a SAVED context: its image is discarded (R200, R161). -/
def killSaved (s : State) (n cause tval : Nat) : State :=
  match fget s.saved n with
  | none => s
  | some sv =>
    let name := sv.gen * 65536 + sv.cxa
    let img := readUnder s 0 (imageAddr s n) 1024
    let q (o len : Nat) : Nat := leNat ((img.drop o).take len)
    let g := (groupsOf (ctxOf s n)).headD 0
    let t := { s with saved := fdel s.saved n }
    let t := event t (sv.cxa % 32768) 0x20
      [(16, 4, name), (20, 1, cause), (21, 1, q 0x380 1), (22, 1, q 0x384 1), (23, 1, g), (24, 8, q 0xF8 8),
       (32, 8, q 0x370 8), (40, 8, q 0x378 8), (48, 8, tval), (56, 8, sv.tag.toNat)]
    let t := match groupsOf (ctxOf s n) with
      | [] => t
      | h :: _ => unitMsg t (unitSrc 4 (slotCl n)) (fld (q 0x3E8 8) 0 2) 9 (groupOf s h).supervisor none
          (wd (name + s.devid * 2 ^ 28)) (wd (cause + q 0x380 1 * 256 + q 0x384 1 * 65536 + h * 2 ^ 24)) (wd s.gtc)
    let cl := slotCl n
    let held := spilledFor t cl name
    let t := unspill t cl name fun _ => true
    let t := (imageBox t img sv ++ held.map Spilled.msg).foldl (fun u m => bounce u cl name m 0) t
    idleNotices (bumpGen (pauseCells (clearFwd (freeRestarts t name) name) name false) name) n

/-- A pre-empted command is queued again: te_issue with the issuer's clocks, over what it has written (R247). An acquiring
one at SYS scope starts once the remote writes that its issuer has made before are acknowledged. -/
def TeCmd.requeued (c : Ctx) (now : Nat) (m : TeCmd) : TeCmd :=
  let clk := if m.acq then Nat.max c.pts (Nat.max c.mts c.mrts) else c.pts
  { m with running := false, clock := clk, wmax := Nat.max m.wmax clk, after := if m.acq && m.scope == 2 then now else 0 }

/-- The restart entries of a pre-empted issuer in a cluster, with its commands in issue order. -/
def preemptedOf (s : State) (cl name : Nat) : List Nat × List TeCmd :=
  let mine := (clOf s cl).restarts.filter fun (p : Nat × Restart) =>
    p.2.preempted && (p.2.cmd.map TeCmd.issuer) == some name
  (mine.map Prod.fst, inOrder TeCmd.seq (mine.filterMap fun (p : Nat × Restart) => p.2.cmd))

/-- Restart entries are freed. -/
def Cluster.freed (c : Cluster) (ids : List Nat) : Cluster :=
  { c with restarts := c.restarts.map fun (p : Nat × Restart) =>
      if ids.contains p.1 then (p.1, { p.2 with cmd := none, preempted := false }) else p }

/-- A line of a saved image whose back-invalidation is unanswered: what reads or writes the image waits (R107). -/
def imagePend (s : State) (n : Nat) : Option Nat :=
  ((List.range 16).map fun i => imageAddr s n / 64 + i).find? fun line => (fget s.backInv line).isSome

/-- A context is resumed once the line has come back. -/
def imageWait (s : State) (line n : Nat) : State :=
  match fget s.backInv line with
  | some b => { s with backInv := fset s.backInv line { b with retry := b.retry ++ [.preemptSaveDone n] } }
  | none => s

/-- A SAVED context resumes on its slot (R200); the seal deadlines of its cells go on when it issues. A poisoned image kills
it. -/
def resumeSaved (s : State) (n : Nat) : State :=
  match fget s.saved n with
  | none => s
  | some sv =>
    if sv.amo.isSome then s else
    let a := imageAddr s n
    match imagePend s n with
    | some line => imageWait s line n
    | none =>
    let s := (List.range 16).foldl (fun u i => lineDetect u (a / 64 + i)) s
    if (List.range 16).any fun i => s.poison.contains (a / 64 + i) then
      killSaved { s with fresh := s.fresh + 1 } n 0x0C (Config.freeWord s.fresh).toNat
    else
      let name := sv.gen * 65536 + sv.cxa
      let c := ofImage s n (readUnder s 0 a 1024) sv
      let t := { modCtx s n (fun _ => c) with saved := fdel s.saved n }
      let t := refill t n name 8
      let t := match sv.faultReq with
        | some q => if c.faultDone.isSome then t else modCtx t n fun d => { d with wait := .faultwait q }
        | none => t
      let cl := slotCl n
      let (ids, cmds) := preemptedOf t cl name
      let t := modCl t cl fun k => { k.freed ids with te := cmds.map (TeCmd.requeued c t.seq) ++ k.te }
      if (clOf t cl).te.isEmpty then t else later t (.teCommandStart cl)

/-! ## The end of an activation (R160, R161) -/

/-- The record that has chosen a context of a slot starts there (R140, R157). A GROUP record whose group has ended meanwhile is
discarded (R120), and a SAVED context of the slot resumes. -/
def startChosen (s : State) (n : Nat) (r : LRec) : State :=
  if r.form = .group ∧ !(groupOf s r.target).valid then
    idleNotices (resumeSaved (launchDiscard (lqDrop s r.seq) 0x16 r) n) n
  else activate (lqDrop s r.seq) n r

/-- The slot turns IDLE; a record that had chosen its context as victim starts there, or a SAVED context resumes
(R157, R160, R200). -/
def finishIdle (s : State) (n : Nat) : State :=
  let c := ctxOf s n
  let t := modCtx s n fun d =>
    { d.applyGrp with active := false, dying := false, offAfter := false, wait := .none, waitSince := none, parked := false, fencing := false, moving := none, preempt := none,
                      lastIssue := none, readySince := none }
  let t := modCore t (slotCore n) fun k => k.applyBits (n % 16)
  let t := { t with ctxs := t.ctxs.map fun (p : Nat × Ctx) =>
    if p.2.wait = .killing (nameOf c) then (p.1, p.2.goto (p.2.pc + 4)) else p }
  match c.preempt with
  | some r => startChosen (idleNotices t n) n r
  | none => idleNotices (resumeSaved t n) n

/-- A kill (R161): record, KILL message, the effects of R160; the slot turns IDLE when the store buffer has drained. -/
def killCtx (s : State) (n cause tval epc : Nat) : State :=
  let name := nameOf (ctxOf s n)
  let t := killMessage (killRecord s n cause tval epc) n cause
  let t := bumpGen (endEffects t n) name
  let t := modCtx t n fun c => { c with dying := true }
  if (ctxOf t n).sb.isEmpty then finishIdle t n else t

/-- EXIT once its release has completed (R160). -/
def exitCtx (s : State) (n : Nat) : State := finishIdle (endEffects s n) n

/-! ## Traps (R181 to R188) -/

/-- A trap to be taken. `next` says that TEPC names the next instruction; `abnd` that it ended a wait. -/
structure Trap where
  cause : Nat
  tval : Nat
  async : Bool := false
  next : Bool := false
  abnd : Bool := false
  deriving DecidableEq, Repr, Inhabited

/-- take_trap of R182 for slot `n`. A trap at S or at TL2, or one that would enter address 0, kills (R184, R327). -/
def takeTrapAt (s : State) (n : Nat) (t : Trap) : State :=
  let c := ctxOf s n
  let epc := if t.next then c.pc + 4 else c.pc
  if c.priv = .s ∨ c.tl = 2 ∨ (c.tl = 0 ∧ c.tvec = 0) then killCtx (leaveWait s n) n t.cause t.tval epc.toNat
  else
    let w := wd (t.cause % 256 + b2n t.async * 256 + b2n c.mhInh * 512 + b2n t.abnd * 1024)
    modCtx s n fun c =>
      let c := { c with wait := .none, waitSince := none, parked := false, fencing := false, pledge := none }
      if c.tl = 0 then { c with tl := 1, tepc1 := epc, tval1 := wd t.tval, tcause1 := w, pc := c.tvec }
      else { c with tl := 2, tepc2 := epc, tval2 := wd t.tval, tcause2 := w, pc := c.tvec + 0x40 }

/-- A trap of the instruction in hand. -/
def takeTrap (s : State) (t : Trap) : State := takeTrapAt s s.cx t

/-- What an instruction answers: its effect, or the trap it takes with no other effect. -/
abbrev Res (α : Type) := Except Trap α

/-- The next state of an instruction that ends in an effect or a trap: a trap leaves every other effect undone (R182). -/
def ret (s : State) : Res State → Out
  | .ok t => .next t
  | .error e => .next (takeTrap s e)

/-- TVAL of ILLEGAL and PRIV (R186). -/
def illegal (i : Instr) : Trap := { cause := 0x01, tval := encodeWord i }
def privTrap (i : Instr) : Trap := { cause := 0x02, tval := encodeWord i }

/-- The S-only forms (R307): at U they trap with PRIV. -/
def atS (s : State) (i : Instr) (k : Res State) : Out :=
  if (cur s).priv = .s then ret s k else .next (takeTrap s (privTrap i))

/-- TRET (R183). -/
def trapReturn (s : State) (i : Instr) : State :=
  let c := cur s
  if c.tl = 0 then takeTrap s (illegal i)
  else if c.tl = 1 then
    modCur s fun c => { c.goto c.tepc1 with tl := 0, ranTrap := false }
  else modCur s fun c => { c.goto c.tepc2 with tl := 1 }

/-- The asynchronous cause that is due at a boundary, lowest code first (R188). -/
def asyncPend (s : State) (n : Nat) : Option (Trap × Ctx) :=
  let c := ctxOf s n
  if c.tl ≠ 0 ∨ c.priv = .s ∨ c.wait ≠ .none ∨ c.faultDone.isSome ∨ c.fencing ∨ !c.ranTrap then none
  else if c.pendMask then some ({ cause := 0x0A, tval := 0, async := true }, { c with pendMask := false })
  else match lowest 16 fun i => c.pendView.getLsbD i with
    | some i =>
      some ({ cause := 0x0B, tval := (viewOf s i).vid + i * 2 ^ 32, async := true },
        { c with pendView := c.pendView &&& ~~~(BitVec.ofNat 16 (2 ^ i)) })
    | none =>
      if c.pendDl then
        some ({ cause := 0x17, tval := (c.deadline.map DeadlineRec.gtc).getD 0, async := true }, { c with pendDl := false })
      else none

/-- It is taken once every instruction before the boundary has completed its register writes (R182): outstanding loads come
back first, and the context issues nothing meanwhile. -/
def asyncDue (s : State) (n : Nat) : Option (Trap × Ctx) := if (ctxOf s n).loads.isEmpty then asyncPend s n else none

end Sys2Proof.Machine
end

