-- ==== Sys2Proof/Machine/Operands.lean ====
section
/-!
DEFINITION. Operand forms: effective addresses (R329), comb-window addresses (R202, R203), translation (R221 to R226),
handles, cell pointers and anvil targets (R7, R8, R356, R379), remote addresses
(R339), and the checks that accesses to comb meet (R331).
-/

namespace Sys2Proof.Machine

/-! ## Translation (R221 to R224) -/

/-- What an access does (R186, R329). -/
inductive Acc where
  | read | write | fetch | amo
  deriving DecidableEq, Repr, Inhabited

/-- The access code of TVAL (R186). An AMO counts as a write. -/
def Acc.code : Acc → Nat
  | .read => 0 | .write => 1 | .fetch => 2 | .amo => 1

def xlateTrap (va : Nat) (a : Acc) (reason : Nat) : Trap :=
  { cause := 0x04, tval := va % 2 ^ 48 + a.code * 2 ^ 48 + reason * 2 ^ 50 }
def protTrap (va : Nat) (a : Acc) (emptyKey : Bool) : Trap :=
  { cause := 0x05, tval := va % 2 ^ 48 + a.code * 2 ^ 48 + b2n emptyKey * 2 ^ 51 }

/-- A page-table entry is read at its home under key slot 0 (R224, log 6). -/
def pteAt (s : State) (pa : Nat) : Nat := leNat (readUnder s 0 pa 8)

/-- One entry of the walk (R222, R223): a pointer to the next table, or a leaf, or the reason it fails. -/
def pteCheck (s : State) (level e : Nat) : Except Nat (Nat ⊕ Nat) :=
  if !bit e 63 then .error 0
  else if fld e 61 2 = 0 then
    let t := fld e 0 44 * 256
    if level = 0 ∨ fld e 44 17 ≠ 0 ∨ (level = 3 ∧ t % 16384 ≠ 0) ∨ (stackOf s t).isNone then .error 1
    else .ok (.inl t)
  else
    let frame := fld e 4 36
    let pa := frame * 65536
    let align := if level = 0 then 1 else if level = 1 then 32 else 1024
    if fld e 61 2 ≠ level + 1 ∨ fld e 0 4 ≠ 0 ∨ frame % align ≠ 0 ∨ !backed s pa then .error 1
    else if isHbm pa then (if bit e 53 == decide (2 ^ 39 ≤ pa) then .ok (.inr e) else .error 1)
    else if bit e 54 && !bit e 53 then .ok (.inr e) else .error 1

/-- Index of a level in its table (R222). -/
def walkIdx (va : Nat) : Nat → Nat
  | 3 => fld va 37 11 | 2 => fld va 26 11 | 1 => fld va 21 5 | _ => fld va 16 5

/-- The walk from a table of a level down (R222): the leaf and its level, or the reason it fails. -/
def walkFrom (s : State) (va : Nat) : Nat → Nat → Except Nat (Nat × Nat)
  | 0, t =>
    match pteCheck s 0 (pteAt s (t + 8 * walkIdx va 0)) with
    | .error r => .error r
    | .ok (.inl _) => .error 1
    | .ok (.inr e) => .ok (e, 0)
  | l + 1, t =>
    match pteCheck s (l + 1) (pteAt s (t + 8 * walkIdx va (l + 1))) with
    | .error r => .error r
    | .ok (.inl u) => walkFrom s va l u
    | .ok (.inr e) => .ok (e, l + 1)

/-- The walk of an address space (R221). -/
def walk (s : State) (asid va : Nat) : Except Nat (Nat × Nat) :=
  let a := s.asidroot + asid * 8
  if (stackOf s a).isNone then .error 1
  else
    let e := pteAt s a
    if !bit e 63 then .error 0
    else
      let t := fld e 14 38 * 16384
      if fld e 52 11 ≠ 0 ∨ fld e 0 14 ≠ 0 ∨ (stackOf s t).isNone then .error 1 else walkFrom s va 3 t

/-- Bytes of a page of a leaf level. -/
def pageBits : Nat → Nat
  | 0 => 16 | 1 => 21 | _ => 26

/-- A TLB's entry for an address (R225). -/
def tlbHit (tlb : List TlbEntry) (asid va : Nat) : Option TlbEntry :=
  tlb.find? fun e => e.asid == asid && e.va == va / 2 ^ pageBits e.level * 2 ^ pageBits e.level

/-- The leaf an access uses: the walk's, or a cached one that differs from it, as the device happens to (R226, log 11). -/
def leafFor (s : State) (tlb : List TlbEntry) (asid va : Nat) : Except Nat (Nat × Nat) :=
  let w := walk s asid va
  match tlbHit tlb asid va with
  | none => w
  | some e =>
    let c : Nat × Nat := (e.leaf.toNat, e.level)
    match w with
    | .ok d => if d = c then w else if Config.stale s.fresh then .ok c else w
    | .error _ => if Config.stale s.fresh then .ok c else w

/-- A translated address: where it is and what its page says of it. -/
structure Xl where
  pa : Nat
  key : Nat
  cls : Nat
  sys : Bool
  leaf : Nat
  level : Nat
  deriving DecidableEq, Repr, Inhabited

/-- What a leaf allows (R223, R329). -/
def leafAllows (e : Nat) (p : Priv) (a : Acc) : Bool :=
  let r := bit e 60
  let w := bit e 59
  let x := bit e 58
  (p == .s || bit e 57) &&
    (match a with | .read => r | .write => w | .fetch => x | .amo => r && w)

/-- Translation and permission of one address (R222, R223, R45). -/
def translate (s : State) (tlb : List TlbEntry) (asid : Nat) (p : Priv) (va : Nat) (a : Acc) : Res Xl :=
  match leafFor s tlb asid va with
  | .error r => .error (xlateTrap va a r)
  | .ok (e, l) =>
    if !leafAllows e p a then .error (protTrap va a false)
    else
      let pa := fld e 4 36 * 65536 + va % 2 ^ pageBits l
      let key := fld e 40 13
      if isHbm pa && (fget s.keys key).isNone then .error (protTrap va a true)
      else .ok { pa := pa, key := key, cls := fld e 55 2, sys := bit e 54, leaf := e, level := l }

/-- A list of bounded length takes an entry; a full one gives up the entry a free value names (R215, R225, log 10). -/
def boundedPut {α : Type} (limit : Nat) (fresh : Nat) (l : List α) (a : α) : List α :=
  if l.length < limit then a :: l
  else a :: (l.eraseIdx (Config.victim fresh % limit))

/-- A set-associative list takes an entry; a full set gives up the entry a free value names (R225, log 10). -/
def setPut {α : Type} [DecidableEq α] (ways : Nat) (setOf : α → Nat) (fresh : Nat) (l : List α) (a : α) : List α :=
  if l.length < ways then a :: l
  else
    let set := l.filter fun b => setOf b == setOf a
    match (if set.length < ways then none else set[Config.victim fresh % ways]?) with
    | none => a :: l
    | some v => a :: l.erase v

/-- The TLB entry of a translation. -/
def Xl.entry (x : Xl) (asid va : Nat) : TlbEntry :=
  let b := pageBits x.level
  ⟨asid, va / 2 ^ b * 2 ^ b, x.level, BitVec.ofNat 64 x.leaf⟩

/-- A TLB without the entry of a page. -/
def dropPage (l : List TlbEntry) (e : TlbEntry) : List TlbEntry :=
  l.filter fun f => !(f.asid == e.asid && f.va == e.va && f.level == e.level)

/-- The last-level TLB: 1,024 sets of 8 ways (R225). -/
def llPut (fresh : Nat) (l : List TlbEntry) (e : TlbEntry) : List TlbEntry :=
  setPut 8 (fun f => Config.tlbSet f.asid f.va f.level % 1024) fresh (dropPage l e) e

/-- Addresses of the entries that a walk reads from a table of a level down (R222). -/
def walkReads (s : State) (va : Nat) : Nat → Nat → List Nat
  | 0, t => [t + 8 * walkIdx va 0]
  | l + 1, t =>
    let a := t + 8 * walkIdx va (l + 1)
    a :: match pteCheck s (l + 1) (pteAt s a) with
      | .ok (.inl u) => walkReads s va l u
      | _ => []

/-- Lines that the walk of an address space reads (R221, R222). -/
def walkLines (s : State) (asid va : Nat) : List Nat :=
  let a := s.asidroot + asid * 8
  (a :: walkReads s va 3 (fld (pteAt s a) 14 38 * 16384)).map (· / 64)

/-- The TLB entries a context's accesses can use. -/
def tlbsOf (s : State) (n : Nat) : List TlbEntry :=
  (coreOf s (slotCore n)).tlb ++ (dieOf s (clDie (slotCl n))).llTlb

/-! ## The comb window (R202, R203) -/

def badTarget (v : Nat) : Trap := { cause := 0x16, tval := v }
def misalign (v : Nat) : Trap := { cause := 0x03, tval := v }

def isComb (va : Nat) : Bool := decide (va / 2 ^ 44 = 0xF)

/-- Cluster and offset of a comb-window address; 0xFF names the cluster given (R202, R203). -/
def combAddr (own va : Nat) : Res (Nat × Nat) :=
  let c := fld va 36 8
  let c := if c = 0xFF then own else c
  if fld va 22 14 ≠ 0 || !clusterOk c then .error (badTarget va) else .ok (c, fld va 0 22)

/-- An operand that must name a comb structure: its address aligned, in the window (R366, R368, R369). -/
def combOperand (own v align : Nat) : Res (Nat × Nat) :=
  if v / 2 ^ 48 ≠ 0 ∨ !isComb v then .error (badTarget v)
  else match combAddr own v with
    | .error e => .error e
    | .ok (c, o) => if o % align ≠ 0 then .error (misalign v) else .ok (c, o)

/-- The first byte of the spill area (R170). -/
def spillBase (s : State) (cl : Nat) : Nat := 2 ^ 22 - (clOf s cl).spillSize * 16384

/-- The cell, not FREE, that a comb byte's granule is bound to (R209). -/
def boundTo (s : State) (cl off : Nat) : Option (Nat × Cell) :=
  (clOf s cl).cells.find? fun p =>
    p.2.st != .free && decide (p.2.base ≤ off / 512) && decide (off / 512 ≤ p.2.base + p.2.gran)

/-- A handle with FLAGS zero (R7). -/
def handleOf (cl i cgen : Nat) : Nat := cl * 2 ^ 24 + i * 2 ^ 14 + cgen % 64 * 2 ^ 8

def CellSt.code : CellSt → Nat
  | .free => 0 | .opn => 1 | .sealed => 2 | .retiring => 3

def cellTrap (h : Nat) (st : CellSt) : Trap := { cause := 0x09, tval := h % 2 ^ 32 + st.code * 2 ^ 32 }
def cellTrapOf (cl i : Nat) (c : Cell) : Trap := cellTrap (handleOf cl i c.cgen) c.st
def misalignCell (h off : Nat) : Trap := { cause := 0x18, tval := h % 2 ^ 32 + off % 2 ^ 16 * 2 ^ 32 }
def barrierMisuse (v : Nat) : Trap := { cause := 0x0D, tval := v }

/-- Row of a byte of a cell. -/
def Cell.rowOf (c : Cell) (off : Nat) : Nat := (off - c.base * 512) / (c.pitch * 16)
/-- Bytes of a cell's rows: ROWS × PITCH × 16. The fields hold ROWS − 1 and PITCH. -/
def Cell.extent (c : Cell) : Nat := (c.rows + 1) * c.pitch * 16

/-- POISON of a comb word (R40, R186). -/
def combPoison (s : State) (cl off : Nat) : Trap :=
  match boundTo s cl off with
  | some (i, c) => { cause := 0x0C, tval := handleOf cl i c.cgen + c.rowOf off % 32 * 2 ^ 32 + 2 ^ 63 }
  | none => { cause := 0x0C, tval := 2 ^ 63 }

/-- A LIVE barrier slot or circular-buffer descriptor that `n` bytes from `off` touch (R173, R175). -/
def liveAt (s : State) (cl off n : Nat) : Bool :=
  (clOf s cl).bars.any (fun b => decide (b < off + n) && decide (off < b + 16)) ||
  (clOf s cl).cbs.any (fun b => decide (b < off + n) && decide (off < b + 128))

/-- Address of the LIVE structure that an access at an address of comb touches (R186). -/
def liveVa (s : State) (va cl off n : Nat) : Nat :=
  let bar := (clOf s cl).bars.find? fun b => decide (b < off + n) && decide (off < b + 16)
  let cb := (clOf s cl).cbs.find? fun b => decide (b < off + n) && decide (off < b + 128)
  va / 2 ^ 22 * 2 ^ 22 + (bar.orElse fun _ => cb).getD off

/-- The order of the causes of one access, of whatever part (R187, R330). -/
def trapRank (t : Trap) : Nat :=
  match t.cause with
  | 0x16 => 0 | 0x04 => 1 | 0x05 => 2 | 0x09 => 3 | 0x0D => 4 | _ => 5

/-- The trap that decides among the parts of an access: the first of the lowest rank. -/
def worstTrap {α : Type} (rs : List (Res α)) : Option Trap :=
  rs.foldl (fun m r => match r, m with
    | .error e, none => some e
    | .error e, some d => if trapRank e < trapRank d then some e else m
    | .ok _, _ => m) none

/-- Every part of an access passes its checks, or the access traps. -/
def allOk (rs : List (Res Unit)) : Res Unit :=
  match worstTrap rs with
  | some e => .error e
  | none => .ok ()

/-- The words `n` bytes from `off` lie in. -/
def wordsOf (off n : Nat) : List Nat := (List.range ((off + n + 7) / 8 - off / 8)).map fun i => off / 8 + i

/-- The record of an error in a comb word: corrected, or a double error (R42). -/
def combRecord (s : State) (cl w sev : Nat) : State :=
  let a := 0xF * 2 ^ 44 + cl * 2 ^ 36 + 8 * w
  let h := match boundTo s cl (8 * w) with | some (i, c) => handleOf cl i c.cgen | none => 0
  eventBytes { s with fresh := s.fresh + 1 } (record 64 [(0, 8, s.gtc), (8, 2, unitSrc 4 cl), (10, 2, s.devid), (12, 1, 2),
    (13, 1, sev), (14, 2, 1), (16, 8, a), (24, 8, a + 7), (40, 4, h), (44, 4, (Config.syndrome s.fresh).toNat)])

/-- Errors that an access of comb is the first to meet: a single one is corrected, a double one sets poison; each writes
its record (R40, R42). -/
def combDetect (s : State) (cl off n : Nat) : State :=
  (wordsOf off n).foldl (fun t w =>
    if (clOf t cl).latent.contains w then
      combRecord (modCl t cl fun c => { c with latent := nrem c.latent w, soft := nrem c.soft w, poison := nins c.poison w }) cl w 1
    else if (clOf t cl).soft.contains w then combRecord (modCl t cl fun c => { c with soft := nrem c.soft w }) cl w 0
    else t) s

/-- A load of comb (R331): spill area, OPEN cell. `va` is the address reported. -/
def combReadOk (s : State) (va cl off n : Nat) : Res Unit :=
  if spillBase s cl < off + n then .error (protTrap va .read false)
  else match boundTo s cl off with
    | some (i, c) => if c.st = .opn then .error (cellTrapOf cl i c) else .ok ()
    | none => .ok ()

/-- The words that a load reads are not poisoned (R40). -/
def combSound (s : State) (cl off n : Nat) : Res Unit :=
  if (wordsOf off n).any (clOf s cl).poison.contains then .error (combPoison s cl off) else .ok ()

/-- Both checks of a load of comb. -/
def combLoadOk (s : State) (va cl off n : Nat) : Res Unit :=
  match combReadOk s va cl off n with
  | .error e => .error e
  | .ok _ => combSound s cl off n

/-- A store to comb (R331, R210): spill area, SEALED or RETIRING cell, LIVE structure. -/
def combStoreOk (s : State) (va cl off n : Nat) : Res Unit :=
  if spillBase s cl < off + n then .error (protTrap va .write false)
  else match boundTo s cl off with
    | some (i, c) =>
      if c.st ≠ .opn then .error (cellTrapOf cl i c)
      else if c.dlx then .error (cellTrap (handleOf cl i c.cgen) .sealed)
      else if liveAt s cl off n then .error (barrierMisuse (liveVa s va cl off n)) else .ok ()
    | none => if liveAt s cl off n then .error (barrierMisuse (liveVa s va cl off n)) else .ok ()

/-! ## Effective addresses and the parts of an access (R228, R329) -/

/-- Displacements. -/
def sextI (i : BitVec 16) : Word := i.signExtend 64

/-- Bytes up to the next boundary. -/
def pieceLen (a n b : Nat) : Nat := Nat.min n (b - a % b)

/-- An access cut at boundaries of `b` bytes: offset and length of each piece. -/
def pieces (b a n : Nat) : List (Nat × Nat) :=
  let k := pieceLen a n b
  if k = n then [(0, n)]
  else
    let k2 := pieceLen (a + k) (n - k) b
    if k + k2 = n then [(0, k), (k, k2)] else [(0, k), (k, k2), (k + k2, n - k - k2)]

/-- What an address names: bytes of comb or of a translated page. -/
def partAt (s : State) (n : Nat) (va : Nat) (a : Acc) (off len : Nat) : Res (Part × Option Xl) := do
  let v := va + off
  if 2 ^ 48 ≤ v then .error (xlateTrap v a 0)
  else if isComb v then
    let (cl, o) ← combAddr (ownCl (ctxOf s n)) v
    .ok ({ pa := combKey cl o, n := len, at_ := off, key := 0, cls := 0, sys := false }, none)
  else
    let c := ctxOf s n
    let x ← translate s (tlbsOf s n) c.asid c.priv v a
    .ok ({ pa := x.pa, n := len, at_ := off, key := x.key, cls := x.cls, sys := x.sys }, some x)

/-- The unit at whose boundaries an access is cut: HBM and host memory by line, comb by word, an aligned 16-byte comb access
not at all (R227, R228). -/
def unitOf (va len : Nat) : Nat := if !isComb (va % 2 ^ 48) then 64 else if va % 16 = 0 ∧ len = 16 then 16 else 8

/-- Every part of an access, all translated before any performs (R228). -/
def partsOf (s : State) (n : Nat) (va len : Nat) (a : Acc) : Res (List (Part × Option Xl)) :=
  let rs := (pieces (unitOf va len) va len).map fun p => partAt s n va a p.1 p.2
  match worstTrap rs with
  | some e => .error e
  | none => .ok (rs.filterMap Except.toOption)

/-- Comb parts by unified key. -/
def Part.isComb (p : Part) : Bool := decide (2 ^ 52 ≤ p.pa)
def Part.combCl (p : Part) : Nat := (p.pa - 2 ^ 52) / 2 ^ 22
def Part.combOff (p : Part) : Nat := (p.pa - 2 ^ 52) % 2 ^ 22
def Part.line (p : Part) : Nat := p.pa / 64
/-- A line that an L1 may hold: HBM through a DEV page (R215, R249). -/
def Part.cached (p : Part) : Bool := !p.sys && isHbm p.pa

/-! ## Handles, cell pointers, targets (R7, R8, R356, R360, R379) -/

/-- A handle operand: cluster and index, FLAGS zero, cluster real. -/
def handleCl (h : Nat) : Nat := fld h 24 8
def handleIx (h : Nat) : Nat := fld h 14 10
def handleGen (h : Nat) : Nat := fld h 8 6

def handleForm (v : Nat) : Res (Nat × Nat) :=
  if fld v 0 8 ≠ 0 ∨ !clusterOk (handleCl v) then .error (badTarget v) else .ok (handleCl v, handleIx v)

/-- A register that holds a handle and nothing else. -/
def handleReg (w : Word) : Res (Nat × Nat) :=
  if w.toNat / 2 ^ 32 ≠ 0 then .error (badTarget w.toNat) else handleForm w.toNat

/-- A cell pointer: cluster, index, byte offset (R356). -/
def cellPtr (w : Word) : Res (Nat × Nat × Nat) :=
  if w.toNat / 2 ^ 48 ≠ 0 then .error (badTarget w.toNat)
  else match handleForm (w.toNat % 2 ^ 32) with
    | .error _ => .error (badTarget (w.toNat % 2 ^ 32))
    | .ok (c, i) => .ok (c, i, fld w.toNat 32 16)

/-- The cell of a handle whose CGEN is current (R7). -/
def cellAt (s : State) (h : Nat) : Res Cell :=
  let c := cellOf s (handleCl h) (handleIx h)
  if c.cgen ≠ handleGen h then .error (cellTrap h c.st) else .ok c

/-- An anvil target (R8): anvil number and tile queue. -/
def targetOf (v : Nat) : Res (Nat × Nat) :=
  if clusterOk (fld v 4 8) then .ok (fld v 4 8 * 2 + fld v 3 1, fld v 0 3) else .error (badTarget v)

/-- An anvil operand in a register: queue bits zero, other bits zero (R379). -/
def anvilOperand (v : Nat) : Res Nat :=
  if v / 4096 ≠ 0 ∨ v % 8 ≠ 0 then .error (badTarget v) else (targetOf v).map Prod.fst

/-- A context name operand: CXA bit 15 clear, cluster real (R5). -/
def cxaOk (cxa : Nat) : Bool := !bit cxa 15 && clusterOk (cxa / 128 % 256)

/-! ## Remote addresses (R339, R58, R72) -/

/-- Where a remote access goes: the device itself, or a port. -/
inductive Way where
  | here | port (p : Nat)
  deriving DecidableEq, Repr, Inhabited

/-- The queues of a port are full: senders wait (R56). How much they hold is the device's (log 9). -/
def Way.full (s : State) : Way → Bool
  | .here => false
  | .port p => decide (Config.portQueue < (portOf s p).txq.length)

def peerLost (v : Nat) : Trap := { cause := 0x15, tval := v }

/-- A device id with a valid route (R72, R339). -/
def wayTo (s : State) (dev v : Nat) : Res Unit :=
  if dev = 0xFFF then .error (badTarget v)
  else if dev = s.devid then .ok ()
  else if (routeOf s dev).isNone then .error (badTarget v) else .ok ()

/-- The port a valid route names; PEER_LOST with count 0 if none is left (R72). -/
def portFor (s : State) (dev : Nat) : Res Way :=
  if dev = s.devid then .ok .here
  else match routeOf s dev with
    | some (some p) => .ok (.port p)
    | _ => .error (peerLost dev)

end Sys2Proof.Machine
end

