-- ==== Sys2Proof/Machine/Homes.lean ====
section
/-!
DEFINITION. Homes and copies: L2 lines with their timestamps (R216 to R220), L1 copies (R215, R232), the store rule and
the AMO rule (R234, R237), releases and acquires (R239, R240), error detection (R39, R42), and the comb banks: deferred
signals and full/empty service (R206, R207, R335).
-/

namespace Sys2Proof.Machine

/-! ## Rebase trigger (R252) -/

/-- A value at or above BTS + 0x00E0_0000 starts a rebase, or waits for the one in progress. -/
def tsCheck (s : State) (ts : Nat) : State :=
  if ts < 0xE00000 then s
  else if s.rebaseActive then { s with rebaseAgain := true }
  else later { s with rebaseActive := true, epoch := !s.epoch } .rebaseMove

/-! ## L2 lines (R216, R217) -/

def leaseOf (s : State) (cls : Nat) : Nat := s.lease[cls % 4]!

def leastLine : List (Nat × Home) → Option Nat
  | [] => none
  | p :: t => some (t.foldl (fun (b : Nat × Home) q =>
      if q.2.prio < b.2.prio ∨ (q.2.prio = b.2.prio ∧ q.2.used < b.2.used) then q else b) p).1

/-- The victim of a refill in a full set (R217): none where the class may use no way of it. -/
def l2Victim (s : State) (set : List (Nat × Home)) (cls : Nat) : Option Nat :=
  let count (c : Nat) : Nat := (set.filter fun p => p.2.cls == c).length
  let own := set.filter fun p => p.2.cls == cls
  if s.quota[cls % 4]! ≤ count cls ∧ !own.isEmpty then leastLine own
  else
    let above := set.filter fun p => decide (s.quota[p.2.cls % 4]! < count p.2.cls)
    if !above.isEmpty then leastLine above else if s.quota[cls % 4]! = 0 then none else leastLine set

/-- A line leaves the L2: the slice timestamp covers its rts (R216). An error in dirty data shows when the data is written
back; clean data is dropped unread. -/
def l2Evict (s : State) (line : Nat) : State :=
  match fget s.home line with
  | none => s
  | some h =>
    let sl := sliceOf s line
    let s := if h.dirty then l2Detect s line else { s with latentL2 := fdel s.latentL2 line }
    let s := if isHbm (64 * line) then s else { s with poison := nrem s.poison line }
    { s with home := fdel s.home line, sliceTs := fset s.sliceTs sl (Nat.max ((fget s.sliceTs sl).getD 0) h.rts) }

/-- The lines of a line's set in its slice: 4,096 sets, as the device draws them (R215, log 10). Fewer than 16 lines in the
slice stand for fewer than 16 in each set. -/
def l2SetOf (s : State) (line : Nat) : List (Nat × Home) :=
  let slice := s.home.filter fun p => sliceOf s p.1 == sliceOf s line
  if slice.length < 16 then slice
  else slice.filter fun p => Config.l2Set p.1 % 4096 == Config.l2Set line % 4096

/-- Room for a line in its set of 16 ways (R215, R217). -/
def l2Room (s : State) (line cls : Nat) : State :=
  let set := l2SetOf s line
  if set.length < 16 then s
  else match l2Victim s set cls with
    | some v => l2Evict s v
    | none => s

/-- An access to a line that the L2 holds under another key: the line is written back if it is dirty, and fetched again
(R216). Host memory carries no key (R45). -/
def homeHit (s : State) (line key : Nat) (h : Home) : Home × State :=
  if h.key = key || !isHbm (64 * line) then (h, s)
  else
    let t := if h.dirty then l2Detect s line else { s with latentL2 := fdel s.latentL2 line }
    ({ h with key := key, dirty := false }, hbmDetect t line)

/-- The home of a line, refilled if the L2 does not hold it (R216). -/
def homeFor (s : State) (line cls key prio : Nat) : Home × State :=
  let t := { s with seq := s.seq + 1 }
  match fget s.home line with
  | some h =>
    let (h, t) := homeHit t line key h
    ({ h with used := s.seq }, t)
  | none =>
    let t := l2Room (lineDetect t line) line cls
    let ts := (fget t.sliceTs (sliceOf t line)).getD 0
    ({ wts := ts, rts := ts, cls := cls, prio := prio, key := key, dirty := false, used := s.seq }, t)

/-- The home of a line after an access. A line whose class may take no way of a full set leaves the L2 at once (R217,
log 78). -/
def setHome (s : State) (line : Nat) (h : Home) : State :=
  let t := { s with home := fset s.home line h }
  tsCheck (if 16 < (l2SetOf t line).length then l2Evict t line else t) h.rts

/-! ## The walker and the TLBs (R219, R225) -/

/-- A walk reads its entries at their homes and allocates their lines at priority 1. No page maps them: their CLASS is free
(R219, log 78). -/
def walkFill (s : State) (asid va : Nat) : State :=
  (walkLines s asid va).foldl (fun t line =>
    let (f, t) := draw t
    let (h, t) := homeFor t line ((Config.freeWord f).toNat % 4) 0 1
    setHome t line h) s

/-- The TLBs a translation fills; one that no TLB holds has been walked (R225). -/
def tlbFill (s : State) (n : Nat) (asid va : Nat) (x : Xl) : State :=
  let e := x.entry asid va
  let t := if (tlbHit (tlbsOf s n) asid va).isSome then s else walkFill s asid va
  let t := modCore t (slotCore n) fun k => { k with tlb := boundedPut 64 t.fresh (dropPage k.tlb e) e }
  let t := modDie t (clDie (slotCl n)) fun d => { d with llTlb := llPut (t.fresh + 1) d.llTlb e }
  { t with fresh := t.fresh + 2 }

/-- The walks of an access that ends in a trap of its translation: they read their entries all the same (R219). -/
def walkMiss (s : State) (n va len : Nat) : State :=
  (pieces (unitOf va len) va len).foldl (fun t p =>
    let v := va + p.1
    let asid := (ctxOf t n).asid
    if 2 ^ 48 ≤ v ∨ isComb v ∨ (tlbHit (tlbsOf t n) asid v).isSome then t else walkFill t asid v) s

/-- The trap of an access whose parts do not all translate. -/
def accessTrap (s : State) (va len : Nat) (e : Trap) : Out := .next (takeTrap (walkMiss s s.cx va len) e)

/-- The TLBs after an access of a context. -/
def fillParts (s : State) (n : Nat) (va : Nat) (ps : List (Part × Option Xl)) : State :=
  ps.foldl (fun t p => match p.2 with
    | some x => tlbFill t n (ctxOf s n).asid (va + p.1.at_) x
    | none => t) s

/-! ## Reads and writes at home -/

/-- A read that renews at home (R233): rts covers the reader's clock and the lease of the line's class. -/
def homeLoad (s : State) (p : Part) (pts : Nat) : Home × State :=
  let (h, t) := homeFor s p.line p.cls p.key 1
  let h := { h with rts := Nat.max h.rts (pts + leaseOf t h.cls) }
  (h, setHome t p.line h)

/-- A write that covers its line reads nothing of it, so no error that stands there shows (R39, log 19). -/
def dropLatent (s : State) (line : Nat) (bs : List Byte) : State :=
  if bs.length = 64 then { s with latent := fdel s.latent line, latentL2 := fdel s.latentL2 line } else s

/-- A write at home (R234): its timestamp. -/
def homeStore (s : State) (p : Part) (pts : Nat) (bs : List Byte) : Nat × State :=
  let (h, t) := homeFor (dropLatent s p.line bs) p.line p.cls p.key 1
  let ts := Nat.max pts (h.rts + 1)
  (ts, setHome (writeUnder t p.key p.pa bs) p.line { h with wts := ts, rts := ts, dirty := true })

/-! ## L1 copies (R215, R232) -/

def l1Get (l : List L1Copy) (line : Nat) : Option L1Copy := l.find? (·.line == line)

/-- usable(c, pts) of R232 at a cluster cycle. -/
def usable (c : L1Copy) (pts cyc : Nat) : Bool :=
  decide (pts ≤ c.rts) && decide (cyc - c.since < (c.lease + 1) * 1024)

/-- A fill: a cache that has room somewhere may still have a full set, so a victim may fall out (R215, log 10). -/
def l1Put (limit fresh : Nat) (l : List L1Copy) (c : L1Copy) : List L1Copy :=
  let l := l.filter (·.line != c.line)
  if l.length < limit / 64 then c :: l
  else if limit ≤ l.length then c :: l.eraseIdx (Config.victim fresh % limit)
  else c :: l.eraseIdx (Config.victim fresh % (l.length + 1))

/-- A store updates the copy in the L1 of its core (R215, R234): it then holds the line as home holds it after the store, so
that no older write of another byte stays unseen (R236, R256; log 79). -/
def l1Update (s : State) (n : Nat) (p : Part) (ts : Nat) : State :=
  let cyc := cycOf s n
  if (l1Get (coreOf s (slotCore n)).l1d p.line).isNone then s else
  let data := readUnder s p.key (64 * p.line) 64
  modCore s (slotCore n) fun k => { k with l1d := k.l1d.map fun c =>
    if c.line = p.line then { c with data := data, wts := ts, rts := ts, since := cyc } else c }

/-- Whether an access to a line waits for the host (R105, R107). -/
def biPending (s : State) (line : Nat) : Bool := (fget s.backInv line).isSome

/-- The line that a walk would read while its back-invalidation is unanswered: the walk waits (R107). -/
def walkPend (s : State) (tlb : List TlbEntry) (asid va : Nat) : Option Nat :=
  if s.backInv.isEmpty || decide (2 ^ 48 ≤ va) || isComb va || (tlbHit tlb asid va).isSome then none
  else (walkLines s asid va).find? (biPending s)

/-- A device write to a line the host may cache sends BISnpInv and waits for BIRsp; what waits is run again then
(R105, R107). -/
def biWait (s : State) (line : Nat) (again : Instr) : State :=
  match fget s.backInv line with
  | some b => { s with backInv := fset s.backInv line { b with retry := b.retry ++ [again] } }
  | none => { s with backInv := fset s.backInv line { since := s.gtc, reported := false, retry := [again] } }

/-- A line is asked back from the host for a unit that tries again by itself (R105). -/
def biAsk (s : State) (line : Nat) : State :=
  if (fget s.backInv line).isSome then s
  else { s with backInv := fset s.backInv line { since := s.gtc, reported := false, retry := [] } }

/-- A write of the line must wait: it is in the directory, or a back-invalidation is unanswered. -/
def biBlocks (s : State) (line : Nat) : Bool := biPending s line || s.hostDir.contains line

/-! ## Clocks (R239, R240) -/

/-- The acquire of R240. -/
def Ctx.acquire (c : Ctx) (sc : Scope) (t : Nat) : Ctx :=
  if sc = .clu then c else { c with pts := Nat.max c.pts (Nat.max c.mrts t) }

def SbKind.isAmo : SbKind → Bool
  | .amo .. => true
  | _ => false

/-- What a release waits for (R239, R243): an AMO executed at the host is waited for at SYS alone. -/
def sbCovered (c : Ctx) (sc : Scope) : List SbEntry :=
  match sc with
  | .clu => c.sb.filter fun e => e.parts.any fun p => p.isComb && p.combCl == ownCl c
  | .dev => c.sb.filter fun e => !(e.parts.any (fun p => !p.isComb && !isHbm p.pa) && e.kind.isAmo)
  | .sys => c.sb

/-- TVAL of PEER_LOST: the lowest device lost, whether others are, the count for it (R71). -/
def lostTval (l : List Lost) : Nat :=
  match l with
  | [] => 0
  | a :: t =>
    let m := t.foldl (fun (b : Lost) x => if x.dev < b.dev then x else b) a
    m.dev + b2n (!t.isEmpty) * 2 ^ 12 + sat m.count 32 * 2 ^ 16

/-- How a release at a scope stands: it waits under an interlock, parks behind a port in RETRAIN (R70, R333), ends in
PEER_LOST (R71), or is done. -/
inductive Rel where
  | wait | retrain | lost (t : Trap) | done
  deriving DecidableEq, Repr, Inhabited

def releaseStep (s : State) (sc : Scope) : Rel :=
  let c := cur s
  if !(sbCovered c sc).isEmpty then .wait
  else if sc = .sys then
    if !c.lost.isEmpty then .lost { cause := 0x15, tval := lostTval c.lost, abnd := c.parked }
    else if c.unacked ≠ 0 then
      let name := nameOf c
      if s.tags.any fun t => t.2.issuer == name && (portOf s t.2.port).st == .retrain then .retrain else .wait
    else .done
  else .done

/-- An instruction that starts with a release and may still wait, park or trap after it: its clock moves once it completes
(R182, R239). -/
def afterRelease (s : State) (sc : Scope) (k : Out) : Out :=
  match releaseStep s sc with
  | .wait => .next (hold s)
  | .retrain => .next (park s .fenceSys)
  | .lost t => .next (takeTrap (modCur s fun c => { c with lost := [] }) t)
  | .done => k

/-- An instruction that starts with a release: it waits, parks, traps, or goes on with the clock moved. -/
def withRelease (s : State) (sc : Scope) (k : State → Out) : Out :=
  afterRelease s sc (k (modCur s (·.released sc)))

/-! ## The store buffer (R234, R235) -/

/-- The event by which the entry at the head of a buffer performs. -/
def sbEvent (c : Ctx) (n : Nat) : Option Instr :=
  match c.sb with
  | [] => none
  | e :: _ => match e.kind with
    | .amo .. => some (.amoExecute n)
    | _ => some (.storePerform n)

/-- The next entry is on its way. -/
def sbKick (s : State) (n : Nat) : State :=
  match sbEvent (ctxOf s n) n with
  | some i => later s i
  | none => s

/-- Writes counted against their cells (R244): entered, or performed. A cell opened anew since is another cell. -/
def countUp (s : State) (l : List (Nat × Nat × Nat)) : State :=
  l.foldl (fun t k => modCell t k.1 k.2.1 fun c => { c with counted := c.counted + 1 }) s
def countDown (s : State) (l : List (Nat × Nat × Nat)) : State :=
  l.foldl (fun t k => modCell t k.1 k.2.1 fun c => if c.cgen = k.2.2 then { c with counted := c.counted - 1 } else c) s

/-- The cells that the comb parts of a write go into. -/
def cellsHit (s : State) (ps : List Part) : List (Nat × Nat × Nat) :=
  (ps.filterMap fun p => if !p.isComb then none else (boundTo s p.combCl p.combOff).map fun c =>
    (p.combCl, c.1, c.2.cgen)).eraseDups

/-- An entry enters the buffer of the context in hand (R234), counted against the cells it writes (R244). -/
def sbPush (s : State) (e : SbEntry) : State :=
  let e := { e with counted := cellsHit s e.parts }
  let was := (cur s).sb.isEmpty
  let t := countUp (modCur s fun c => { c with sb := c.sb ++ [e] }) e.counted
  if was then sbKick t s.cx else t

def sbFull (c : Ctx) : Bool := decide (8 ≤ c.sb.length)

/-- The byte of an entry at a key. -/
def sbByteIn (e : SbEntry) (k : Nat) : Option Byte :=
  e.parts.findSome? fun p => if p.pa ≤ k ∧ k < p.pa + p.n then e.bytes[p.at_ + (k - p.pa)]? else none

/-- The youngest buffered byte at a key (R235). -/
def sbByte (sb : List SbEntry) (k : Nat) : Option Byte :=
  sb.foldl (fun r e => (sbByteIn e k).orElse fun _ => r) none

/-- What the buffer has for a part: all its bytes, none of them, or some, or an AMO's bytes. -/
inductive Fwdg where
  | all (bs : List Byte) | none | part
  deriving DecidableEq, Repr, Inhabited

def sbForward (sb : List SbEntry) (p : Part) : Fwdg :=
  let touch (e : SbEntry) : Bool := e.parts.any fun q => decide (q.pa < p.pa + p.n) && decide (p.pa < q.pa + q.n)
  if !sb.any touch then .none
  else if sb.any fun e => touch e && e.kind.isAmo then .part
  else
    let bs := (List.range p.n).map fun i => sbByte sb (p.pa + i)
    if bs.all Option.isSome then .all (bs.map fun b => b.getD 0)
    else .part

/-! ## AMO arithmetic (R336, R337) -/

def amoVal (op : AmoOp) (w : Nat) (old b exp : Nat) : Nat :=
  let n := 8 * w
  let o := old % 2 ^ n
  let v := b % 2 ^ n
  match op with
  | .add => (o + v) % 2 ^ n
  | .and => o.land v
  | .or => o.lor v
  | .xor => o.xor v
  | .swap => v
  | .min => if decide ((BitVec.ofNat n o).toInt ≤ (BitVec.ofNat n v).toInt) then o else v
  | .max => if decide ((BitVec.ofNat n o).toInt ≤ (BitVec.ofNat n v).toInt) then v else o
  | .minu => Nat.min o v
  | .maxu => Nat.max o v
  | .cas => if o = exp % 2 ^ n then v else o

/-- The old value as rd receives it: sign-extended for `.w` (R336). -/
def amoRd (w old : Nat) : Word := if w = 4 then (BitVec.ofNat 32 old).signExtend 64 else wd old

/-! ## Comb banks (R204 to R207, R335) -/

/-- Bank of an offset (R204). -/
def bankOf (off : Nat) : Nat := fld off 3 5

def combFull (s : State) (cl word : Nat) : Bool := !(clOf s cl).empty.contains word

/-- An AMO applies to its word: the old value (R206). -/
def combApply (s : State) (cl : Nat) (d : DefSig) : Nat × State :=
  let old := combNat s cl d.off d.width
  (old, combPutNat s cl d.off d.width (amoVal d.op d.width old d.b.toNat d.exp.toNat))

/-- An AMO_REPLY or a NACK answers an inbound packet (R51, R52, R66, R67): back to its sender, or in the device. -/
def answer (s : State) (p : Packet) (kind : Nat) (data : List Byte) : State :=
  let r : Packet := { kind := kind, cls := p.cls, hops := 0, dest := p.source, source := s.devid, tag := p.tag,
                      addr := p.addr, data := data, resv := false, ce := none }
  if p.source = s.devid then
    later s (if kind = 5 then .inAmoReply 0xFF r else if kind = 6 then .inAck 0xFF r else .inNack 0xFF r)
  else match routeOf s p.source with
    | some (some q) => txPut s q r
    | _ => s

/-- The NACK of a packet (R67). -/
def nack (s : State) (p : Packet) (cause : Nat) : State := answer s p 7 (leBytes 16 cause)
/-- The AMO_REPLY of a packet. -/
def amoReply (s : State) (p : Packet) (old : Nat) : State := answer s p 5 (leBytes 16 old)

/-- The waiting party of an AMO that has applied learns its old value (R206). -/
def combAnswer (s : State) (d : DefSig) (old : Nat) : State :=
  match d.who with
  | .nobody => s
  | .ctx n rd => modCtx s n fun c => (c.setX (Fin.ofNat 32 rd) (amoRd d.width old)).goto (c.pc + 4)
  | .remote p => amoReply s p old

/-- The places of a bank's buffer that are taken. -/
def deferHeld (s : State) (cl bank : Nat) : Nat :=
  ((clOf s cl).defer.filter fun e => bankOf e.off == bank && e.entered).length

/-- An AMO applies, and whoever waits for it is answered. -/
def combRun (s : State) (cl : Nat) (d : DefSig) : State :=
  let (old, t) := combApply s cl d
  combAnswer t d old

/-- AMOs that waited for a place take those that are free, in order of arrival; one whose word is FULL by then applies at once
(R206). A context with destination x0 goes on. -/
def deferFill (s : State) (cl bank : Nat) : Nat → State
  | 0 => s
  | k + 1 =>
    let wants (e : DefSig) : Bool := bankOf e.off == bank && !e.entered
    match (clOf s cl).defer.find? wants with
    | none => s
    | some e =>
      if 32 ≤ deferHeld s cl bank then s
      else if combFull s cl (e.off / 8) then
        deferFill (combRun (modCl s cl fun c => { c with defer := dropFirst wants c.defer }) cl e) cl bank k
      else
        let (who, t) := match e.who with
          | .ctx n 0 => (AmoWho.nobody, nextAt s n)
          | w => (w, s)
        deferFill (modCl t cl fun c => { c with defer := match firstIdx wants c.defer with
          | some i => c.defer.set i { e with entered := true, who := who }
          | none => c.defer }) cl bank k

/-- A bank's places are filled again. -/
def deferRefill (s : State) (cl bank : Nat) : State := deferFill s cl bank (clOf s cl).defer.length

/-- Every deferred signal of a word applies, in order of arrival (R207). An AMO that waits for a place is none yet. -/
def applyDeferred (s : State) (cl word : Nat) : State :=
  let mine (d : DefSig) : Bool := d.off / 8 == word && d.entered
  let t := modCl s cl fun c => { c with defer := c.defer.filter fun d => !mine d }
  ((clOf s cl).defer.filter mine).foldl (fun u d => combRun u cl d) t

/-- A full/empty request is served (R334): the load's value goes to its register, the bit changes as the operation
says. -/
def feServe (s : State) (cl : Nat) (q : FeReq) : State :=
  let v := combNat s cl (8 * q.word) 8
  let full (b : Bool) (t : State) : State := modCl t cl fun c =>
    { c with empty := if b then nrem c.empty q.word else nins c.empty q.word }
  let clean (t : State) : State := modCl t cl fun c =>
    { c with poison := nrem c.poison q.word, latent := nrem c.latent q.word, soft := nrem c.soft q.word }
  match q.op with
  | .ldfe => full false (modCtx s q.cxa fun c => (c.setX (Fin.ofNat 32 q.rd) (wd v)).goto (c.pc + 4))
  | .ldff => modCtx s q.cxa fun c => (c.setX (Fin.ofNat 32 q.rd) (wd v)).goto (c.pc + 4)
  | .stef => full true (clean (combPutNat (nextAt s q.cxa) cl (8 * q.word) 8 q.data.toNat))
  | .stff => clean (combPutNat (nextAt s q.cxa) cl (8 * q.word) 8 q.data.toNat)

/-- The state a request waits for (R334). -/
def FeOp.wantsFull : FeOp → Bool
  | .stef => false
  | _ => true

/-- A poisoned word stops a full/empty load with POISON instead (R40). -/
def fePoisoned (s : State) (cl : Nat) (q : FeReq) : Bool :=
  (q.op == .ldfe || q.op == .ldff) && (clOf s cl).poison.contains q.word

/-- One request leaves the bank: served, or answered with POISON. -/
def feAnswer (s : State) (cl : Nat) (q : FeReq) : State :=
  if fePoisoned s cl q then takeTrapAt s q.cxa { combPoison s cl (8 * q.word) with abnd := true }
  else feServe s cl q

/-- The bank serves the parked requests of a word whose condition holds, in order of arrival, until none is left
(R335). Each round serves one; a change of state is followed by R207. -/
def feRun (s : State) (cl word : Nat) : Nat → State
  | 0 => s
  | k + 1 =>
    let full := combFull s cl word
    match (clOf s cl).fe.find? fun q => q.word == word && q.op.wantsFull == full with
    | none => s
    | some q =>
      let t := modCl s cl fun c => { c with fe := dropFirst (fun r => r.cxa == q.cxa) c.fe }
      let t := feAnswer t cl q
      let t := if !full && combFull t cl word then applyDeferred t cl word else t
      feRun t cl word k

/-- A request reaches its bank (R335): served at once if its condition holds, then what its effect allows. -/
def feArrive (s : State) (cl : Nat) (q : FeReq) : State :=
  if q.op.wantsFull == combFull s cl q.word then
    let was := combFull s cl q.word
    let t := feAnswer s cl q
    let t := if !was && combFull t cl q.word then applyDeferred t cl q.word else t
    deferRefill (feRun t cl q.word ((clOf t cl).fe.length + 1)) cl (bankOf (8 * q.word))
  else modCl s cl fun c => { c with fe := c.fe ++ [q] }

/-- An AMO reaches its bank (R206): it applies on a FULL word unless signals for it are still queued, and is deferred on
an EMPTY one. `who` learns the old value; a context with destination x0 goes on as soon as the AMO has entered, every other
parks now (R336). -/
def amoArrive (s : State) (cl : Nat) (d : DefSig) : State :=
  if combFull s cl (d.off / 8) then combRun s cl d
  else
    let room := decide (deferHeld s cl (bankOf d.off) < 32)
    let enter (t : State) (d : DefSig) : State := modCl t cl fun c => { c with defer := c.defer ++ [{ d with entered := room }] }
    match d.who with
    | .ctx n rd =>
      if rd = 0 ∧ room then enter (nextAt s n) { d with who := .nobody }
      else enter (modCtx s n fun c => { c with wait := match c.wait with
        | .amo r w va => .combAmo r w va
        | w => w }) d
    | _ => enter s d

/-- The comb AMO that a context is parked at is removed from its bank (R206, R196). -/
def dropDeferred (s : State) (n : Nat) : State :=
  let mine (d : DefSig) : Bool := match d.who with | .ctx m _ => m == n | _ => false
  let gone := s.clusters.flatMap fun (p : Nat × Cluster) => (p.2.defer.filter mine).map fun d => (p.1, bankOf d.off)
  let t := { s with clusters := s.clusters.map fun (p : Nat × Cluster) =>
    (p.1, { p.2 with defer := p.2.defer.filter (!mine ·) }) }
  gone.foldl (fun u (g : Nat × Nat) => deferRefill u g.1 g.2) t

end Sys2Proof.Machine
end

