-- ==== Sys2Proof/Machine/LoadStore.lean ====
section
/-!
DEFINITION. Loads, stores, ordered accesses, fences, full/empty operations, AMOs and remote accesses at issue (R329 to
R340), with the data path of R233: forwarding, L1 copies, and a wait for the home when neither serves.
-/

namespace Sys2Proof.Machine

/-! ## Loads (R233, R330, R331) -/

/-- The value a load leaves (R330). -/
def ldValue (width : Nat) (sgn : Bool) (bs : List Byte) : Word :=
  if sgn then (BitVec.ofNat (8 * width) (leNat bs)).signExtend 64 else wd (leNat bs)

def Ctx.putLoad (c : Ctx) (dst : LdDst) (bs : List Byte) : Ctx :=
  match dst with
  | .x rd w sg => c.setX (Fin.ofNat 32 rd) (ldValue w sg bs)
  | .v rd => c.setV (Fin.ofNat 16 rd) (BitVec.ofNat 128 (leNat bs))

/-- The same of a load that has waited: x24 to x31 are those of the bank in place when it issued (R168). -/
def Ctx.putBack (c : Ctx) (r : LoadReq) (bs : List Byte) : Ctx :=
  { ({ c with mhInh := r.snap.mhInh }).putLoad r.dst bs with mhInh := c.mhInh }

/-- A load completes in slot `n`: register, clocks (R233, R240), next instruction. A comb access moves no clock (R241). -/
def loadDone (s : State) (n : Nat) (dst : LdDst) (bs : List Byte) (mrts : Nat) (acq : Option Scope) (comb : Bool) : State :=
  modCtx s n fun c =>
    let c := { c.putLoad dst bs with mrts := Nat.max c.mrts mrts }
    let c := match acq with
      | some sc => if comb then c else c.acquire sc 0
      | none => c
    c.goto (c.pc + 4)

/-- The copy of a line that a context may use in an L1 of its core (R215, R232): DEV-domain HBM lines alone have one. -/
def copyFor (s : State) (n : Nat) (l1 : List L1Copy) (p : Part) : Option L1Copy :=
  if !p.cached then none
  else match l1Get l1 p.line with
    | some c => if usable c (ctxOf s n).pts (cycOf s n) then some c else none
    | none => none

/-- The L1 copies a load and a fetch may use. -/
def l1For (s : State) (n : Nat) (p : Part) : Option L1Copy := copyFor s n (coreOf s (slotCore n)).l1d p
def l1iFor (s : State) (n : Nat) (p : Part) : Option L1Copy := copyFor s n (coreOf s (slotCore n)).l1i p

/-- The bytes of a copy that a part names. -/
def L1Copy.bytes (c : L1Copy) (p : Part) : List Byte := (c.data.drop (p.pa % 64)).take p.n

/-- The parts of a load that no buffered store, bank or copy has given; an LDA.F reads at home what is at hand (R241). -/
def LoadReq.missing (r : LoadReq) : List Part :=
  (r.parts.zip r.got).filterMap fun q => if q.2.isNone || (r.force && q.1.cached) then some q.1 else none

/-- The lines whose fill a request has asked for. -/
def LoadReq.fills (r : LoadReq) : List Nat := if r.sent then (r.missing.filter Part.cached).map Part.line else []

/-- A context's loads that wait for data, an LDA's last. -/
def Ctx.reqs (c : Ctx) : List LoadReq :=
  c.loads ++ match c.wait with
    | .load r _ => [r]
    | _ => []

/-- The core of a slot has a fill of a line outstanding (R233). -/
def fillOut (s : State) (n line : Nat) : Bool :=
  s.ctxs.any fun (q : Nat × Ctx) => slotCore q.1 == slotCore n && q.2.reqs.any fun r => r.fills.contains line

/-- Parts that wait: for an outstanding fill of their line, or for an older load of it by the same context (R233, R236). -/
def fillWaits (s : State) (n : Nat) (older : List LoadReq) (ps : List Part) : Bool :=
  ps.any fun p => (p.cached && fillOut s n p.line) || older.any fun r => r.missing.any fun q => q.line == p.line

/-- What serves a part at issue beside its home: the store buffer, the bank, or a usable copy, unless an older load of the
line still waits; its bytes and the wts it carries (R233, R235, R236). -/
def partNow (s : State) (n : Nat) (p : Part) (force : Bool) : Option (List Byte × Nat) :=
  match sbForward (ctxOf s n).sb p with
  | .all bs => some (bs, 0)
  | .part => none
  | .none =>
    if p.isComb then some (memRead s.mem p.pa p.n, 0)
    else if force || (ctxOf s n).loads.any fun r => r.missing.any fun q => q.line == p.line then none
    else (l1For s n p).map fun c => (c.bytes p, c.wts)

/-- A load overlaps a buffered write only in part: it waits until that write has performed (R235). -/
def sbWaits (s : State) (n : Nat) (ps : List Part) : Bool := ps.any fun p => sbForward (ctxOf s n).sb p == .part

/-- The checks of a load's comb parts against the spill area and the cells (R331). -/
def combLoadsOk (s : State) (va : Nat) (ps : List Part) : Res Unit :=
  allOk ((ps.filter Part.isComb).map fun p => combReadOk s (va + p.at_) p.combCl p.combOff p.n)

/-- The comb parts that a load reads at their banks: those that its own stores do not give (R235). -/
def bankParts (s : State) (n : Nat) (ps : List Part) : List Part :=
  ps.filter fun p => p.isComb && sbForward (ctxOf s n).sb p == .none

/-- What they read is not poisoned (R40). -/
def bankSound (s : State) (ps : List Part) : Res Unit := allOk (ps.map fun p => combSound s p.combCl p.combOff p.n)

/-- Double errors that these accesses of comb meet (R40). -/
def detectParts (s : State) (ps : List Part) : State :=
  ps.foldl (fun t p => if p.isComb then combDetect t p.combCl p.combOff p.n else t) s

/-- The registers that a load which ends in a trap leaves as it found them (R182). -/
def Ctx.snap (c : Ctx) : RegSnap :=
  { pc := c.pc, x := c.x, v := c.v, m := c.m, shadow := c.shadow, fcsr := c.fcsr, priv := c.priv, tl := c.tl, tvec := c.tvec,
    tepc1 := c.tepc1, tepc2 := c.tepc2, tcause1 := c.tcause1, tcause2 := c.tcause2, tval1 := c.tval1, tval2 := c.tval2,
    tscr := c.tscr, mhEn := c.mhEn, mhInh := c.mhInh, mhMask := c.mhMask, mhvec := c.mhvec, mepc := c.mepc,
    masked := c.masked, sepc := c.sepc, svcvec := c.svcvec, mrts := c.mrts, nxtdl := c.nxtdl, ranTrap := c.ranTrap,
    ranHnd := c.ranHnd }
def Ctx.restore (c : Ctx) (r : RegSnap) : Ctx :=
  { c with pc := r.pc, x := r.x, v := r.v, m := r.m, shadow := r.shadow, fcsr := r.fcsr, priv := r.priv, tl := r.tl,
           tvec := r.tvec, tepc1 := r.tepc1, tepc2 := r.tepc2, tcause1 := r.tcause1, tcause2 := r.tcause2, tval1 := r.tval1,
           tval2 := r.tval2, tscr := r.tscr, mhEn := r.mhEn, mhInh := r.mhInh, mhMask := r.mhMask, mhvec := r.mhvec,
           mepc := r.mepc, masked := r.masked, sepc := r.sepc, svcvec := r.svcvec, mrts := r.mrts, nxtdl := r.nxtdl,
           ranTrap := r.ranTrap, ranHnd := r.ranHnd }

/-- The request of the load in hand. It leaves the core at once unless a part of it has to wait (R233). -/
def loadReq (s : State) (ps : List Part) (got : List (Option (List Byte × Nat))) (dst : LdDst) (va : Nat) (force : Bool) :
    LoadReq :=
  let c := cur s
  let r : LoadReq := { parts := ps, got := got, dst := dst, va := va, since := cycOf s s.cx, gtc := s.gtc,
                       ahead := c.sb.length, snap := c.snap, sent := true, num := c.nextNum, force := force }
  { r with sent := !fillWaits s s.cx c.loads r.missing }

/-- The load in hand has missed: the context goes on to its next instruction, which an interlock holds as R310 says (R142,
R233). -/
def loadLater (s : State) (r : LoadReq) : State :=
  later (next (modCur s fun c => { c with loads := c.loads ++ [r] })) (.loadReturn s.cx)

/-- The bytes that a request has at hand, and the largest wts they carry. -/
def gotBytes (got : List (Option (List Byte × Nat))) : List Byte × Nat :=
  (got.flatMap fun g => (g.getD ([], 0)).1, got.foldl (fun m g => Nat.max m (g.getD ([], 0)).2) 0)

/-- A load of `n` bytes at an effective address (R330 to R332). An LDA waits for its data, and for every earlier load, before
anything that follows (R240, R332). -/
def loadAt (s : State) (ea n : Nat) (dst : LdDst) (aligned : Bool) (acq : Option Scope) (force : Bool) : Out :=
  if aligned && decide (ea % n ≠ 0) then .next (takeTrap s (misalign ea))
  else match partsOf s s.cx ea n .read with
    | .error e => accessTrap s ea n e
    | .ok px =>
      let ps := px.map Prod.fst
      match combLoadsOk s ea ps with
      | .error e => .next (takeTrap s e)
      | .ok _ =>
        let t := fillParts s s.cx ea px
        if sbWaits t s.cx ps then .next (hold t)
        else
          let bank := bankParts t s.cx ps
          let t := detectParts t bank
          match bankSound t bank with
          | .error e => .next (takeTrap t e)
          | .ok _ =>
            let got := ps.map fun p => partNow t s.cx p force
            let r := loadReq t ps got dst ea force
            if r.missing.isEmpty && (acq.isNone || (cur t).loads.isEmpty) then
              .next (loadDone t s.cx dst (gotBytes got).1 (gotBytes got).2 acq (ps.all Part.isComb))
            else if acq.isNone then .next (loadLater t r)
            else .next (later (park t (.load r acq)) (.loadReturn s.cx))

/-- The address of an I or S form (R329). -/
def eaOf (s : State) (a : XReg) (i : BitVec 16) : Nat := (rx s a + sextI i).toNat

def load (s : State) (d a : XReg) (i : BitVec 16) (w : Nat) (sg : Bool) : Out :=
  loadAt s (eaOf s a i) w (.x d.val w sg) false none false

def execLb (d a : XReg) (i : BitVec 16) (s : State) : Out := load s d a i 1 true
def execLbu (d a : XReg) (i : BitVec 16) (s : State) : Out := load s d a i 1 false
def execLh (d a : XReg) (i : BitVec 16) (s : State) : Out := load s d a i 2 true
def execLhu (d a : XReg) (i : BitVec 16) (s : State) : Out := load s d a i 2 false
def execLw (d a : XReg) (i : BitVec 16) (s : State) : Out := load s d a i 4 true
def execLwu (d a : XReg) (i : BitVec 16) (s : State) : Out := load s d a i 4 false
def execLd (d a : XReg) (i : BitVec 16) (s : State) : Out := load s d a i 8 false
def execVld (d : VReg) (a : XReg) (i : BitVec 16) (s : State) : Out := loadAt s (eaOf s a i) 16 (.v d.val) false none false

/-! ## Stores (R234, R330, R331) -/

/-- The checks of a store's comb parts (R331). -/
def combStoresOk (s : State) (va : Nat) (ps : List Part) : Res Unit :=
  allOk ((ps.filter Part.isComb).map fun p => combStoreOk s (va + p.at_) p.combCl p.combOff p.n)

/-- A store enters the buffer with PTS as it stands (R234). -/
def storePush (s : State) (ps : List Part) (bs : List Byte) (va : Nat) (ord : Bool) : State :=
  next (sbPush s { kind := .store, parts := ps, bytes := bs, pts := (cur s).pts, ord := ord, va := va })

/-- A store at an effective address; STL names the scope of its release (R241). -/
def storeAt (s : State) (ea : Nat) (bs : List Byte) (aligned : Bool) (rel : Option Scope) : Out :=
  if aligned && decide (ea % bs.length ≠ 0) then .next (takeTrap s (misalign ea))
  else match partsOf s s.cx ea bs.length .write with
    | .error e => accessTrap s ea bs.length e
    | .ok px =>
      let ps := px.map Prod.fst
      match combStoresOk s ea ps with
      | .error e => .next (takeTrap s e)
      | .ok _ =>
        let t := fillParts s s.cx ea px
        if sbFull (cur t) then .next (hold t)
        else match rel with
          | none => .next (storePush t ps bs ea false)
          | some sc =>
            if ps.any Part.isComb then
              match releaseStep t sc with
              | .done => .next (storePush t ps bs ea true)
              | _ => withRelease t sc fun u => .next u
            else withRelease t sc fun u => .next (storePush u ps bs ea true)

def store (s : State) (b a : XReg) (i : BitVec 16) (w : Nat) : Out :=
  storeAt s (eaOf s a i) (leBytes w (rx s b).toNat) false none

def execSb (b a : XReg) (i : BitVec 16) (s : State) : Out := store s b a i 1
def execSh (b a : XReg) (i : BitVec 16) (s : State) : Out := store s b a i 2
def execSw (b a : XReg) (i : BitVec 16) (s : State) : Out := store s b a i 4
def execSd (b a : XReg) (i : BitVec 16) (s : State) : Out := store s b a i 8
def execVst (b : VReg) (a : XReg) (i : BitVec 16) (s : State) : Out :=
  storeAt s (eaOf s a i) (leBytes 16 (rv s b).toNat) false none

/-! ## Ordered accesses and fences (R332, R333) -/

/-- `w` false is the `.w` form, sign-extended; true is `.d`. -/
def execLda (d a : XReg) (sc : Scope) (w : Bool) (s : State) : Out :=
  let n := if w then 8 else 4
  loadAt s (rx s a).toNat n (.x d.val n (!w)) true (some sc) false
def execLdaF (d a : XReg) (sc : Scope) (w : Bool) (s : State) : Out :=
  let n := if w then 8 else 4
  loadAt s (rx s a).toNat n (.x d.val n (!w)) true (some sc) true
def execStl (a b : XReg) (sc : Scope) (w : Bool) (s : State) : Out :=
  storeAt s (rx s a).toNat (leBytes (if w then 8 else 4) (rx s b).toNat) true (some sc)

def execFence (sc : Scope) (s : State) : Out :=
  withRelease s sc fun t => .next (next (modCur t (·.acquire sc 0)))
def execFenceRel (sc : Scope) (s : State) : Out := withRelease s sc fun t => .next (next t)
def execFenceAcq (sc : Scope) (s : State) : Out := .next (next (modCur s (·.acquire sc 0)))

/-! ## Full/empty operations (R334) -/

/-- The checks of a full/empty operation, in order: the comb word it names. -/
def feCheck (s : State) (ea : Nat) (op : FeOp) : Res (Nat × Nat) :=
  if ea % 8 ≠ 0 then .error (misalign ea)
  else if 2 ^ 48 ≤ ea ∨ !isComb ea then .error (badTarget ea)
  else match combAddr (ownCl (cur s)) ea with
    | .error e => .error e
    | .ok (cl, o) =>
      if spillBase s cl < o + 8 then .error (protTrap ea (if op = .stef ∨ op = .stff then .write else .read) false)
      else match boundTo s cl o with
        | some (i, c) => .error (cellTrapOf cl i c)
        | none => if liveAt s cl o 8 then .error (barrierMisuse (liveVa s ea cl o 8)) else .ok (cl, o)

/-- The request goes to its bank once the buffer is empty, and the context parks until it is served (R334). -/
def feOp (s : State) (a : XReg) (op : FeOp) (rd : Nat) (data : Word) : Out :=
  let ea := (rx s a).toNat
  match feCheck s ea op with
  | .error e => .next (takeTrap s e)
  | .ok (cl, o) =>
    if !(cur s).sb.isEmpty then .next (hold s)
    else
      let t := combDetect s cl o 8
      .next (feArrive (park t (.fe ea)) cl { word := o / 8, op := op, cxa := s.cx, rd := rd, data := data })

def execLdfe (d a : XReg) (s : State) : Out := feOp s a .ldfe d.val 0
def execLdff (d a : XReg) (s : State) : Out := feOp s a .ldff d.val 0
def execStef (a b : XReg) (s : State) : Out := feOp s a .stef 0 (rx s b)
def execStff (a b : XReg) (s : State) : Out := feOp s a .stff 0 (rx s b)

/-! ## Local AMOs (R336 to R338) -/

/-- Host-memory lines take AMOADD and AMOSWAP alone, while HOSTCAP.ATOMICS is set (R109, R338). -/
def hostAmoOk (s : State) (op : AmoOp) (ea : Nat) (p : Part) : Res Unit :=
  if p.isComb || isHbm p.pa then .ok ()
  else if s.atomics && (op == .add || op == .swap) then .ok () else .error (protTrap ea .amo false)

/-- The checks of an AMO at its comb word: those of a store, and an EMPTY word in an OPEN cell (R206, R336). -/
def combAmoOk (s : State) (ea : Nat) (p : Part) : Res Unit :=
  if !p.isComb then .ok ()
  else match combStoreOk s ea p.combCl p.combOff p.n with
    | .error e => .error e
    | .ok _ => match boundTo s p.combCl p.combOff with
      | some (i, c) => if combFull s p.combCl (p.combOff / 8) then .ok () else .error (cellTrapOf p.combCl i c)
      | none => .ok ()

/-- An AMO enters the store buffer; the context waits for it under an interlock but for a destination x0 outside comb (R206,
R336). -/
def amo (s : State) (op : AmoOp) (d a b : XReg) (w : Bool) : Out :=
  let n := if w then 8 else 4
  let ea := (rx s a).toNat
  if ea % n ≠ 0 then .next (takeTrap s (misalign ea))
  else match partsOf s s.cx ea n .amo with
    | .error e => accessTrap s ea n e
    | .ok px =>
      let p := (px.map Prod.fst).headD { pa := 0, n := 0, at_ := 0, key := 0, cls := 0, sys := false }
      match hostAmoOk s op ea p, combAmoOk s ea p with
      | .error e, _ | _, .error e => .next (takeTrap s e)
      | .ok _, .ok _ =>
        let t := detectParts (fillParts s s.cx ea px) [p]
        if sbFull (cur t) then .next (hold t)
        else
          let e : SbEntry := { kind := .amo op n (rx s b) (rx s d) d.val, parts := [p], bytes := [], pts := (cur t).pts,
                               ord := true, va := ea }
          if d.val = 0 ∧ !p.isComb then .next (next (sbPush t e))
          else .next (sbPush (park t (.amo d.val n ea)) e)

def execAmoadd (d a b : XReg) (w : Bool) (s : State) : Out := amo s .add d a b w
def execAmoand (d a b : XReg) (w : Bool) (s : State) : Out := amo s .and d a b w
def execAmoor (d a b : XReg) (w : Bool) (s : State) : Out := amo s .or d a b w
def execAmoxor (d a b : XReg) (w : Bool) (s : State) : Out := amo s .xor d a b w
def execAmoswap (d a b : XReg) (w : Bool) (s : State) : Out := amo s .swap d a b w
def execAmomin (d a b : XReg) (w : Bool) (s : State) : Out := amo s .min d a b w
def execAmomax (d a b : XReg) (w : Bool) (s : State) : Out := amo s .max d a b w
def execAmominu (d a b : XReg) (w : Bool) (s : State) : Out := amo s .minu d a b w
def execAmomaxu (d a b : XReg) (w : Bool) (s : State) : Out := amo s .maxu d a b w
/-- AMOCAS reads rd as the expected value (R337). -/
def execAmocas (d a b : XReg) (w : Bool) (s : State) : Out := amo s .cas d a b w

/-! ## Remote accesses (R339, R340) -/

/-- The lowest free packet tag; packets that ask for no answer carry tag 0, and with all 65,535 outstanding tag 1 is taken again
(R51; DESIGN CHOICE, log 28). -/
def freeTag (s : State) : Nat := (lowest 65535 fun t => (fget s.tags (t + 1)).isNone).getD 0 + 1

/-- The event by which a packet of a kind arrives at this device. -/
def arrival (port : Nat) (p : Packet) : Instr :=
  if p.kind = 1 then .inWrite port p else if p.kind = 2 then .inCput port p
  else if p.kind = 3 then .inAmoAdd port p else if p.kind = 4 then .inAmoSwap port p
  else if p.kind = 5 then .inAmoReply port p else if p.kind = 6 then .inAck port p
  else if p.kind = 7 then .inNack port p else .inMsg port p

/-- A packet leaves by its port, or is served in the device as inbound traffic (R339). -/
def dispatch (s : State) (w : Way) (p : Packet) : State :=
  match w with
  | .here => later s (arrival 0xFF p)
  | .port q => txPut s q p

/-- A packet with a tag of its own leaves (R51, R68). -/
def sendTagged (s : State) (w : Way) (k : TagKind) (issuer kind cls dev : Nat) (addr : Word) (data : List Byte) :
    Nat × State :=
  let tag := freeTag s
  let port := match w with | .here => 0xFF | .port q => q
  let t := { s with tags := fset s.tags tag { kind := k, issuer := issuer, dest := dev, port := port, cls := cls,
                                              addr := addr,
                                              seq := s.seq }, seq := s.seq + 1 }
  (tag, dispatch t w { kind := kind, cls := cls, hops := 0, dest := dev, source := s.devid, tag := tag, addr := addr,
                       data := data, resv := false, ce := none })

/-- A peer address whose cluster field names no cluster: rows 6 and 7, but for 0xFF, which a peer resolves (R4, R63). -/
def peerCombBad (a : Nat) : Bool := isComb a && fld a 36 8 != 0xFF && !clusterOk (fld a 36 8)

/-- The checks of a remote address in their order: device and peer address (R339, R4). -/
def remoteCheck (s : State) (v n : Nat) : Res (Nat × Nat × Way) :=
  let dev := fld v 48 12
  let a := fld v 0 48
  if a % n ≠ 0 then .error (misalign a)
  else if v / 2 ^ 60 ≠ 0 ∨ peerCombBad a then .error (badTarget v)
  else match wayTo s dev v with
    | .error e => .error e
    | .ok _ => match portFor s dev with
      | .error e => .error e
      | .ok w => .ok (dev, a, w)

/-- The data of an AMO packet: operand and width (R52). -/
def amoData (b w : Nat) : List Byte := leBytes 8 b ++ leBytes 8 w

def ramo (s : State) (kind : Nat) (d a b : XReg) (w : Bool) : Out :=
  let n := if w then 8 else 4
  match remoteCheck s (rx s a).toNat n with
  | .error e => .next (takeTrap s e)
  | .ok (dev, pa, way) =>
    if !(cur s).sb.isEmpty || way.full s then .next (hold s)
    else
      let c := cur s
      let (tag, t) := sendTagged s way (.amo d.val n) (nameOf c) kind c.cls dev (wd pa)
        (amoData ((rx s b).toNat % 2 ^ (8 * n)) n)
      .next (park t (.remoteAmo tag d.val n))

def execRamoadd (d a b : XReg) (w : Bool) (s : State) : Out := ramo s 3 d a b w
def execRamoswap (d a b : XReg) (w : Bool) (s : State) : Out := ramo s 4 d a b w

/-- A posted remote write: at most 32 unacknowledged (R68, R340). -/
def posted (s : State) (v n kind : Nat) (k : TagKind) (data : List Byte) : Out :=
  match remoteCheck s v n with
  | .error e => .next (takeTrap s e)
  | .ok (dev, pa, way) =>
    let c := cur s
    if 32 ≤ c.unacked || way.full s then .next (hold s)
    else
      let (_, t) := sendTagged s way k (nameOf c) kind c.cls dev (wd pa) data
      .next (next (modCur t fun c => { c with unacked := c.unacked + 1 }))

def execRsd (a b : XReg) (s : State) : Out := posted s (rx s a).toNat 8 4 .rsd (amoData (rx s b).toNat 8)
def execRsq (a : XReg) (b : VReg) (s : State) : Out := posted s (rx s a).toNat 16 1 .write (leBytes 16 (rv s b).toNat)

end Sys2Proof.Machine
end

