-- ==== Sys2Proof/Machine/Cell.lean ====
section
/-!
DEFINITION. Cells, tile-queue posts, circular buffers and barrier slots: the actions of the cell table and of the banks
(R173 to R176, R208 to R214, R404), and the instructions that ask for them (R356 to R368).
-/

namespace Sys2Proof.Machine

/-! ## Waking -/

/-- Contexts whose wait satisfies a predicate issue their instruction again. -/
def wakeIf (s : State) (p : Wait → Bool) : State :=
  { s with ctxs := s.ctxs.map fun c => if p c.2.wait then (c.1, { c.2 with wait := .none }) else c }

/-- Contexts in a wait, by slot. -/
def waiting (s : State) (p : Wait → Bool) : List Nat := (s.ctxs.filter fun c => p c.2.wait).map Prod.fst

/-- Every context in a wait takes a trap that ends it (R181 ABND). -/
def trapWaiting (s : State) (p : Wait → Bool) (t : Trap) : State :=
  (waiting s p).foldl (fun u n => takeTrapAt u n { t with abnd := true }) s

/-! ## Tile queues (R404) -/

def tqOf (s : State) (av q : Nat) : TileQ := (avOf s av).qs[q % 8]!
def modTq (s : State) (av q : Nat) (f : TileQ → TileQ) : State :=
  modAv s av fun a => { a with qs := a.qs.set! (q % 8) (f a.qs[q % 8]!) }

def tqRoom (s : State) (av q : Nat) : Nat := 64 - (tqOf s av q).es.length - (tqOf s av q).promised

/-- An entry arrives: ARRV counts it (R404). -/
def tqPut (s : State) (av q handle flags : Nat) : State :=
  modTq s av q fun t =>
    { t with es := t.es ++ [{ handle := BitVec.ofNat 32 handle, flags := flags, resv := none, num := t.arrv }],
             arrv := (t.arrv + 1) % 2 ^ 32 }

/-- An entry has left a queue: contexts parked for room are told (R361). -/
def tqFreed (s : State) : State := (waiting s (· == .seal)).foldl (fun t n => later t (.sealQueueRoom n)) s

/-! ## Actions of the cell table (R210 to R212) -/

/-- A comb store of bytes: words written whole lose their poison (R40). -/
def combStore (s : State) (cl off : Nat) (bs : List Byte) : State :=
  let full := (wordsOf off bs.length).filter fun w => decide (off ≤ 8 * w) && decide (8 * w + 8 ≤ off + bs.length)
  modCl (combPut s cl off bs) cl fun c =>
    { c with poison := c.poison.filter (!full.contains ·), latent := c.latent.filter (!full.contains ·),
             soft := c.soft.filter (!full.contains ·) }

/-- ZERO: every byte of every valid row is zero and no word of them is poisoned (R211). -/
def cellZero (s : State) (cl : Nat) (c : Cell) : Bool :=
  (List.range (c.rows + 1)).all fun r =>
    !c.valid.getLsbD r ||
      (let off := c.base * 512 + r * c.pitch * 16
       (combBytes s cl off (c.pitch * 16)).all (· == 0) &&
         (wordsOf off (c.pitch * 16)).all fun w => !(clOf s cl).poison.contains w)

/-- A seal (R211, R212, R431): STS, targets, FLAGS. The release and the clock are the caller's. -/
def sealCell (s : State) (cl i sts : Nat) (targets : List (Nat × Nat)) (timeout : Bool) : State :=
  let c := cellOf s cl i
  let z := cellZero s cl c
  let t := modCell s cl i fun c =>
    { c with st := .sealed, zero := z, sts := sts, dlv := false, dlx := false, tout := timeout,
             refcnt := c.refcnt + targets.length }
  targets.foldl (fun u g => tqPut u g.1 g.2 (handleOf cl i c.cgen) (b2n timeout + 2 * b2n z)) t

/-- The anvil of a POST's queue: bit 3 of the target names it within the cluster (R8, R431). -/
def APost.queueAv (p : APost) (q : Nat) : Nat := p.av / 2 * 2 + q / 8

/-- A POST that waits for a cell's counted writes gives its place in the queue back: the cell is another one now. -/
def dropPost (s : State) (cl i : Nat) : State :=
  match (cellOf s cl i).apost with
  | none => s
  | some p =>
    let t := modCell s cl i fun c => { c with apost := none }
    match p.tgt with
    | some q => tqFreed (modTq t (p.queueAv q) (q % 8) fun t => { t with promised := t.promised - 1 })
    | none => t

/-- A cell turns FREE: CGEN advances, its granules are unbound (R210). What is still on its way to it concerns a cell that
is no more (R244). -/
def freeCell (s : State) (cl i : Nat) : State :=
  modCell (dropPost s cl i) cl i fun c =>
    { c with st := .free, cgen := (c.cgen + 1) % 64, dlv := false, dlx := false, refcnt := 0, counted := 0, tpost := none }

/-- DONE (R210, R364): one reference fewer; the last one frees a RETIRING cell and completes its retirers. -/
def doneCell (s : State) (cl i : Nat) : State :=
  let c := cellOf s cl i
  if c.st = .retiring ∧ c.refcnt = 1 then
    (waiting s (· == .cretire cl i)).foldl (fun u n => nextAt u n) (freeCell s cl i)
  else
    let t := modCell s cl i fun c => { c with refcnt := c.refcnt - 1 }
    if c.refcnt = 1 then wakeIf t fun w => w == .copen cl i || w == .cbfree cl i else t

/-- States in which DONE acts (R210). -/
def doneOk (c : Cell) : Bool := (c.st == .sealed || c.st == .retiring) && decide (0 < c.refcnt)

/-! ## Geometry (R209, R296) -/

structure Geom where
  base : Nat
  gran : Nat
  rows : Nat
  pitch : Nat
  fmt : Nat
  deriving DecidableEq, Repr, Inhabited

def geomOf (w : Nat) : Geom := ⟨fld w 0 13, fld w 13 7, fld w 20 5, fld w 25 12, fld w 37 5⟩

/-- A trap whose address or handle the manual does not state: a free value in the layout R186 gives the cause (log 20). -/
def openTrap (s : State) (cause : Nat) : Trap :=
  let f := (Config.freeWord s.fresh).toNat
  { cause := cause, tval := if cause = 0x05 then f % 2 ^ 48 + f / 2 ^ 48 % 3 * 2 ^ 48 else f % 2 ^ 48 }

/-- The checks of R209 in their order; the cell's own granules count as free. `h` is the handle of a cell reopened. -/
def geomOk (s : State) (cl : Nat) (g : Geom) (self : Option Nat) (h : Nat) : Res Unit :=
  if g.pitch = 0 ∨ (g.gran + 1) * 512 < (g.rows + 1) * g.pitch * 16 then
    .error (if self.isSome then misalignCell h 0 else openTrap s 0x18)
  else if spillBase s cl < (g.base + g.gran + 1) * 512 then .error (openTrap s 0x05)
  else
    match (clOf s cl).cells.find? fun p => p.2.st != .free && self != some p.1 &&
        decide (p.2.base ≤ g.base + g.gran) && decide (g.base ≤ p.2.base + p.2.gran) with
    | some (j, c) => .error (cellTrapOf cl j c)
    | none => .ok ()

def Cell.setGeom (c : Cell) (g : Geom) : Cell :=
  { c with base := g.base, gran := g.gran, rows := g.rows, pitch := g.pitch, fmt := g.fmt }

/-- A SEALED cell is reopened: CGEN advances (R210). -/
def reopen (s : State) (cl i owner : Nat) (g : Option Geom) : State :=
  modCell s cl i fun c =>
    let c := { c with st := .opn, cgen := (c.cgen + 1) % 64, valid := 0, zero := false, tout := false, dlv := false,
                      dlp := false, owner := owner }
    match g with | some g => c.setGeom g | none => c

/-! ## Cell instructions (R356 to R365) -/

/-- A trap that names a free TVAL uses one up. -/
def trapFree (s : State) (e : Trap) : Out := .next { takeTrap s e with fresh := s.fresh + 1 }

/-- COPEN (R357). -/
def execCopen (d a b : XReg) (s : State) : Out :=
  let g := rx s a
  if b.val = 0 then
    let cl := ownCl (cur s)
    if g.toNat / 2 ^ 42 ≠ 0 then .next (takeTrap s (badTarget g.toNat))
    else match geomOk s cl (geomOf g.toNat) none 0 with
      | .error e => trapFree s e
      | .ok _ =>
        match lowest 1024 fun i => (cellOf s cl i).st == .free with
        | none => .next (takeTrap s { cause := 0x09, tval := 0 })
        | some i =>
          let t := modCell s cl i fun c => { c.setGeom (geomOf g.toNat) with
            st := .opn, owner := nameOf (cur s), valid := 0, refcnt := 0, dlv := false, dlp := false,
            zero := false, tout := false }
          .next (wbX t d (wd (handleOf cl i (cellOf t cl i).cgen)))
  else
    match handleReg (rx s b) with
    | .error e => .next (takeTrap s e)
    | .ok (cl, i) =>
      if a.val ≠ 0 ∧ g.toNat / 2 ^ 42 ≠ 0 then .next (takeTrap s (badTarget g.toNat))
      else
        let h := (rx s b).toNat
        match (if a.val = 0 then .ok () else geomOk s cl (geomOf g.toNat) (some i) h) with
        | .error e => trapFree s e
        | .ok _ => match cellAt s h with
          | .error e => .next (takeTrap s { e with abnd := (cur s).parked })
          | .ok c =>
            if c.st ≠ .sealed then .next (takeTrap s { cellTrap h c.st with abnd := (cur s).parked })
            else if 0 < c.refcnt then .next (park s (.copen cl i))
            else
              let t := reopen s cl i (nameOf (cur s)) (if a.val = 0 then none else some (geomOf g.toNat))
              .next (wbX t d (wd (handleOf cl i (cellOf t cl i).cgen)))

/-- The comb address of a byte, as an access of it would name it. -/
def combVa (cl off : Nat) : Nat := 0xF * 2 ^ 44 + cl * 2 ^ 36 + off

/-- A program access that reaches into the spill area (R170). -/
def inSpill (s : State) (cl off n : Nat) (a : Acc) : Res Unit :=
  if spillBase s cl < off + n then .error (protTrap (combVa cl off) a false) else .ok ()

/-- A CPUT enters the store buffer: the check against the table is made at issue (R244, R358). -/
def cput (s : State) (ptr : Word) (bs : List Byte) : Out :=
  match cellPtr ptr with
  | .error e => .next (takeTrap s e)
  | .ok (cl, i, off) =>
    let h := ptr.toNat % 2 ^ 32
    let c := cellOf s cl i
    if off % bs.length ≠ 0 ∨ c.extent ≤ off then .next (takeTrap s (misalignCell h off))
    else match (cellAt s h).bind fun c => inSpill s cl (c.base * 512 + off) bs.length .write with
      | .error e => .next (takeTrap s e)
      | .ok _ =>
        if c.st ≠ .opn then .next (takeTrap s (cellTrap h c.st))
        else if sbFull (cur s) then .next (hold s)
        else
          let p : Part := { pa := combKey cl (c.base * 512 + off), n := bs.length, at_ := 0, key := 0, cls := 0, sys := false }
          .next (next (sbPush s { kind := .cput cl i off, parts := [p], bytes := bs, pts := (cur s).pts, ord := true,
                                  va := 0 }))

def execCputD (a b : XReg) (s : State) : Out := cput s (rx s a) (leBytes 8 (rx s b).toNat)
def execCputQ (a : XReg) (b : VReg) (s : State) : Out := cput s (rx s a) (leBytes 16 (rv s b).toNat)

/-- CPUT.R (R359): a CPUT packet with LEN 1; posted (R68). FLAGS and a cluster that names none trap the issuer (R4, R7). -/
def execCputR (a : XReg) (b : VReg) (s : State) : Out :=
  let v := (rx s a).toNat
  let dev := fld v 48 12
  let off := fld v 32 16
  if v / 2 ^ 60 ≠ 0 ∨ fld v 0 8 ≠ 0 ∨ !clusterOk (fld v 24 8) then .next (takeTrap s (badTarget v))
  else match wayTo s dev v with
    | .error e => .next (takeTrap s e)
    | .ok _ =>
      if off % 16 ≠ 0 then .next (takeTrap s (misalignCell v off))
      else match portFor s dev with
        | .error e => .next (takeTrap s e)
        | .ok w =>
          let c := cur s
          if 32 ≤ c.unacked || w.full s then .next (hold s)
          else
            let (_, t) := sendTagged s w .write (nameOf c) 2 c.cls dev (wd (v % 2 ^ 32 * 2 ^ 32 + off))
              (leBytes 16 (rv s b).toNat)
            .next (next (modCur t fun c => { c with unacked := c.unacked + 1 }))

/-- The seal of an OPEN cell by a context (R211, R360, R361): the release, the counted writes, the room, then one action. -/
def sealBy (s : State) (h : Nat) (targets : List (Nat × Nat)) (sc : Scope) : Out :=
  match cellAt s h with
  | .error e => .next (takeTrap s { e with abnd := (cur s).parked })
  | .ok c =>
    if c.st ≠ .opn ∨ 4095 < c.refcnt + targets.length then .next (takeTrap s { cellTrap h c.st with abnd := (cur s).parked })
    else afterRelease s sc <|
      let t := modCur s (·.released sc)
      let room := targets.all fun g => decide (targets.countP (· == g) ≤ tqRoom t g.1 g.2)
      if c.counted ≠ 0 ∨ c.apost.isSome then .next (hold s)
      else if !room then .next (park s .seal)
      else .next (next (sealCell t (handleCl h) (handleIx h) (Nat.max c.cts (cur t).pts) targets false))

/-- SEAL (R360). -/
def execSeal (a b : XReg) (sc : Scope) (s : State) : Out :=
  let v := (rx s b).toNat
  match handleReg (rx s a) with
  | .error e => .next (takeTrap s e)
  | .ok _ =>
    if v / 2 ^ 13 ≠ 0 then .next (takeTrap s (badTarget v))
    else if bit v 12 then
      match targetOf (v % 4096) with
      | .error e => .next (takeTrap s e)
      | .ok g => sealBy s (rx s a).toNat [g] sc
    else sealBy s (rx s a).toNat [] sc

/-- The target list of SEALM (R360): COUNT and that many targets. -/
def sealTargets (s : State) (cl off : Nat) : Res (List (Nat × Nat)) :=
  let w := combNat s cl off 32
  let n := fld w 0 16
  if 8 < n ∨ fld w 16 112 ≠ 0 then .error (badTarget n)
  else (List.range n).mapM fun i =>
    let t := fld w (128 + 16 * i) 16
    if 4095 < t then .error (badTarget t) else targetOf t

/-- A write of the context in hand to one of `n` comb bytes still stands in its buffer: an instruction that reads or
takes over those bytes waits for it, as a load would (R235). -/
def sbTouches (s : State) (va n : Nat) : Bool :=
  match combAddr (ownCl (cur s)) va with
  | .error _ => false
  | .ok (cl, o) =>
    let k := combKey cl o
    (cur s).sb.any fun e => e.parts.any fun p => decide (p.pa < k + n) && decide (k < p.pa + p.n)

/-- SEALM (R360): the list is read at issue. -/
def execSealm (a b : XReg) (sc : Scope) (s : State) : Out :=
  let v := (rx s b).toNat
  match handleReg (rx s a) with
  | .error e => .next (takeTrap s e)
  | .ok _ => match combOperand (ownCl (cur s)) v 32 with
    | .error e => .next (takeTrap s e)
    | .ok (cl, o) =>
      if spillBase s cl < o + 32 then .next (takeTrap s (protTrap v .read false))
      else if sbTouches s v 32 then .next (hold s)
      else match sealTargets s cl o with
        | .error e => .next (takeTrap s e)
        | .ok ts => sealBy s (rx s a).toNat ts sc

/-- SEAL_QUEUE_ROOM (R361): the parked instruction issues again. -/
def execSealQueueRoom (cxa : Nat) (s : State) : Out :=
  .next (modCtx s cxa fun c => if c.wait = .seal then { c with wait := .none } else c)

/-- The seal deadlines of a context's cells are paused: it is SAVED, or has not issued since it was saved or moved (R199 to
R201). -/
def deadlinesPaused (s : State) (name : Nat) : Bool :=
  (savedAs s name).isSome || s.ctxs.any fun (p : Nat × Ctx) => p.2.active && p.2.dlPaused && nameOf p.2 == name

/-- CSETT (R362): DLP follows the owner. -/
def execCsett (a b : XReg) (s : State) : Out :=
  let v := (rx s b).toNat
  match handleReg (rx s a) with
  | .error e => .next (takeTrap s e)
  | .ok (cl, i) =>
    if v / 2 ^ 46 ≠ 0 ∨ fld v 44 2 = 3 then .next (takeTrap s (badTarget v))
    else match targetOf (fld v 32 12) with
      | .error e => .next (takeTrap s e)
      | .ok _ => match cellAt s (rx s a).toNat with
        | .error e => .next (takeTrap s e)
        | .ok c =>
          if c.st ≠ .opn then .next (takeTrap s (cellTrap (rx s a).toNat c.st))
          else .next (next (modCell s cl i fun c =>
            { c with dlrem := Nat.max 1 (fld v 0 32), dltgt := fld v 32 12, dlscope := fld v 44 2, dlv := true,
                     dlp := deadlinesPaused s c.owner }))

/-- CLD and CLD.ACQ (R363). -/
def cld (s : State) (d a : XReg) (acq : Bool) : Out :=
  match cellPtr (rx s a) with
  | .error e => .next (takeTrap s e)
  | .ok (cl, i, off) =>
    let h := (rx s a).toNat % 2 ^ 32
    let c := cellOf s cl i
    if off % 8 ≠ 0 ∨ c.extent ≤ off then .next (takeTrap s (misalignCell h off))
    else match (cellAt s h).bind fun c => inSpill s cl (c.base * 512 + off) 8 .read with
      | .error e => .next (takeTrap s e)
      | .ok _ =>
        if c.st ≠ .sealed ∧ c.st ≠ .retiring then .next (takeTrap s (cellTrap h c.st))
        else
          let o := c.base * 512 + off
          let row := off / (c.pitch * 16)
          let valid := c.valid.getLsbD row
          let t := if valid then combDetect s cl o 8 else s
          if valid && (clOf t cl).poison.contains (o / 8) then
            .next (takeTrap t { cause := 0x0C, tval := h + row * 2 ^ 32 + 2 ^ 63 })
          else
            let v := if valid then combNat t cl o 8 else 0
            .next (wbX (if acq then modCur t (·.acquire .dev c.sts) else t) d (wd v))

def execCld (d a : XReg) (s : State) : Out := cld s d a false
def execCldAcq (d a : XReg) (s : State) : Out := cld s d a true

/-- CRETIRE (R210, R364). -/
def execCretire (a : XReg) (s : State) : Out :=
  match handleReg (rx s a) with
  | .error e => .next (takeTrap s e)
  | .ok (cl, i) =>
    let h := (rx s a).toNat
    match cellAt s h with
    | .error e => .next (takeTrap s e)
    | .ok c => match c.st with
      | .opn => .next (next (freeCell s cl i))
      | .sealed =>
        if c.refcnt = 0 then .next (next (freeCell s cl i))
        else
          let t := modCell s cl i fun c => { c with st := .retiring }
          .next (park (trapWaiting t (fun w => w == .copen cl i || w == .cbfree cl i) (cellTrap h .retiring)) (.cretire cl i))
      | .retiring => .next (park s (.cretire cl i))
      | .free => .next (takeTrap s (cellTrap h .free))

/-- DONE (R364). -/
def execDone (a : XReg) (s : State) : Out :=
  match handleReg (rx s a) with
  | .error e => .next (takeTrap s e)
  | .ok (cl, i) => match cellAt s (rx s a).toNat with
    | .error e => .next (takeTrap s e)
    | .ok c => if doneOk c then .next (next (doneCell s cl i)) else .next (takeTrap s (cellTrap (rx s a).toNat c.st))

/-- The descriptor of R208 as a number of 256 bits. -/
def cellBits (c : Cell) : Nat :=
  c.st.code * 2 ^ 254 + c.cgen % 64 * 2 ^ 248 + c.owner % 2 ^ 28 * 2 ^ 220 + c.base % 2 ^ 13 * 2 ^ 207 +
  c.gran % 2 ^ 7 * 2 ^ 200 + c.rows % 32 * 2 ^ 195 + c.pitch % 2 ^ 12 * 2 ^ 183 + c.fmt % 32 * 2 ^ 178 +
  b2n c.zero * 2 ^ 177 + b2n c.dlv * 2 ^ 176 + b2n c.dlp * 2 ^ 175 + b2n c.tout * 2 ^ 174 + c.dltgt % 2 ^ 12 * 2 ^ 162 +
  c.refcnt % 2 ^ 12 * 2 ^ 150 + c.dlscope % 4 * 2 ^ 148 + c.sts % 2 ^ 24 * 2 ^ 124 + c.cts % 2 ^ 24 * 2 ^ 100 +
  c.dlrem % 2 ^ 32 * 2 ^ 64 + c.valid.toNat

/-- CSTAT (R365). -/
def execCstat (d a b : XReg) (s : State) : Out :=
  let w := (rx s b).toNat
  match handleReg (rx s a) with
  | .error e => .next (takeTrap s e)
  | .ok _ =>
    if 3 < w then .next (takeTrap s (badTarget w))
    else match cellAt s (rx s a).toNat with
      | .error e => .next (takeTrap s e)
      | .ok c => .next (wbX s d (wd (fld (cellBits c) (64 * w) 64)))

/-! ## Circular buffers (R175, R176, R366, R367) -/

/-- A descriptor as a number of 1,024 bits. -/
def cbGet (s : State) (cl off : Nat) : Nat := combNat s cl off 128
def cbPut (s : State) (cl off w : Nat) : State := combPutNat s cl off 128 w
def cbN (w : Nat) : Nat := fld w 0 9
def cbSealf (w : Nat) : Bool := bit w 30
def cbPop (w : Nat) : Nat := fld w 48 8
def cbFill (w : Nat) : Nat := fld w 56 8
def cbFillCnt (w : Nat) : Nat := fld w 64 9
def cbFreeCnt (w : Nat) : Nat := fld w 96 9
def cbHandles (w : Nat) : Nat := fld w 128 22
def cbSts (w : Nat) : Nat := fld w 160 24
def cbSlot (w i : Nat) : Nat := fld w (512 + 2 * i) 2
def cbSetSlot (w i v : Nat) : Nat := setFld w (512 + 2 * i) 2 v

/-- The handle of a slot. -/
def cbHandle (s : State) (cl w i : Nat) : Nat := combNat s cl (cbHandles w + 4 * i) 4

/-- Some byte of a range lies in a bound granule (R209). -/
def boundIn (s : State) (cl off n : Nat) : Option (Nat × Cell) :=
  (List.range ((off + n + 511) / 512 - off / 512)).findSome? fun k => boundTo s cl ((off / 512 + k) * 512)

/-- CBINIT (R366). -/
def execCbinit (a b : XReg) (s : State) : Out :=
  let v := (rx s b).toNat
  let adr := (rx s a).toNat
  let n := fld v 0 9
  let hs := fld v 32 22
  match combOperand (ownCl (cur s)) adr 1 with
  | .error e => .next (takeTrap s e)
  | .ok (cl, o) =>
    if n = 0 ∨ 256 < n ∨ fld v 10 22 ≠ 0 ∨ v / 2 ^ 54 ≠ 0 then .next (takeTrap s (badTarget v))
    else if o % 128 ≠ 0 then .next (takeTrap s (misalign adr))
    else if hs % 4 ≠ 0 then .next (takeTrap s (misalign hs))
    else if spillBase s cl < o + 128 ∨ spillBase s cl < hs + 4 * n then .next (takeTrap s (protTrap adr .write false))
    else if liveAt s cl o 128 then .next (takeTrap s (barrierMisuse adr))
    else if sbTouches s adr 128 || sbTouches s (adr / 2 ^ 22 * 2 ^ 22 + hs) (4 * n) then .next (hold s)
    else match (boundIn s cl o 128).orElse fun _ => boundIn s cl hs (4 * n) with
      | some (i, c) => .next (takeTrap s (cellTrapOf cl i c))
      | none =>
        let hl := (List.range n).map fun i => combNat s cl (hs + 4 * i) 4
        match hl.find? fun h => !(fld h 0 8 == 0 && handleCl h == cl &&
            decide ((cellOf s cl (handleIx h)).cgen = handleGen h) && (cellOf s cl (handleIx h)).st == .opn) with
        | some h => .next (takeTrap s (cellTrap h (cellOf s (handleCl h) (handleIx h)).st))
        | none =>
          let w := n + b2n (bit v 9) * 2 ^ 30 + 2 ^ 31 + n * 2 ^ 96 + hs * 2 ^ 128
          .next (next (modCl (cbPut s cl o w) cl fun c => { c with cbs := nins c.cbs o }))

/-- A LIVE descriptor named by an address (R367); neither it nor its handles lie in the spill area (R170). -/
def cbNamed (s : State) (adr : Nat) : Res (Nat × Nat) := do
  let (cl, o) ← combOperand (ownCl (cur s)) adr 128
  inSpill s cl o 128 .write
  if !(clOf s cl).cbs.contains o then .error (barrierMisuse adr)
  let w := cbGet s cl o
  inSpill s cl (cbHandles w) (4 * cbN w) .write
  .ok (cl, o)

/-- A change of the structure that an instruction had parked on ends its wait with a trap (R181). -/
def Trap.ended (e : Trap) (s : State) : Trap :=
  { e with abnd := (cur s).parked && (e.cause == 0x09 || e.cause == 0x0D) }

/-- CBPOP (R176, R367). -/
def execCbpop (d a : XReg) (s : State) : Out :=
  match cbNamed s (rx s a).toNat with
  | .error e => .next (takeTrap s (e.ended s))
  | .ok (cl, o) =>
    let w := cbGet s cl o
    let i := cbPop w
    if cbSlot w i ≠ 2 then .next (park s (.cbpop cl o))
    else
      let h := cbHandle s cl w i
      let w' := setFld (setFld (cbSetSlot w i 3) 48 8 ((i + 1) % cbN w)) 64 9 (cbFillCnt w - 1)
      .next (wbX (modCur (cbPut s cl o w') (·.acquire .dev (cbSts w))) d (wd h))

/-- A waiting TE looks at its queues again. -/
def teKick (s : State) (cl : Nat) : State :=
  if (clOf s cl).te.isEmpty then s else later s (.teCommandStart cl)

/-- The TEs that hold a command which names a buffer look at their queues again. -/
def teKickFor (s : State) (key : Nat) : State :=
  (s.clusters.filter fun (k : Nat × Cluster) => k.2.te.any fun m => decide (m.compl = 2) && m.complAddr == key).foldl
    (fun u k => teKick u k.1) s

/-- CBFREE (R176, R367). -/
def execCbfree (a b : XReg) (s : State) : Out :=
  let h := (rx s b).toNat
  match handleReg (rx s b) with
  | .error e => .next (takeTrap s e)
  | .ok _ => match cbNamed s (rx s a).toNat with
    | .error e => .next (takeTrap s (e.ended s))
    | .ok (cl, o) =>
      let w := cbGet s cl o
      let c := cellOf s (handleCl h) (handleIx h)
      match lowest (cbN w) fun i => cbHandle s cl w i == h with
      | none => .next (takeTrap s { cellTrap h c.st with abnd := (cur s).parked })
      | some k =>
        if cbSlot w k ≠ 3 ∨ c.cgen ≠ handleGen h then .next (takeTrap s { cellTrap h c.st with abnd := (cur s).parked })
        else
          let w' := setFld (cbSetSlot w k 0) 96 9 (cbFreeCnt w + 1)
          match c.st with
          | .sealed =>
            if 0 < c.refcnt then .next (park s (.cbfree cl (handleIx h)))
            else
              let t := reopen s cl (handleIx h) (nameOf (cur s)) none
              let g := handleOf cl (handleIx h) (cellOf t cl (handleIx h)).cgen
              .next (next (teKickFor (combPutNat (cbPut t cl o w') cl (cbHandles w + 4 * k) 4 g) (combKey cl o)))
          | .opn =>
            let t := modCell s cl (handleIx h) fun c => { c with valid := 0 }
            .next (next (teKickFor (cbPut t cl o w') (combKey cl o)))
          | _ => .next (takeTrap s { cellTrap h c.st with abnd := (cur s).parked })

/-! ## Barrier slots (R173, R174, R368) -/

def barSts (w : Nat) : Nat := fld w 72 24
def barExpect (w : Nat) : Nat := fld w 46 15
def barArrived (w : Nat) : Nat := fld w 31 15
def barPhase (w : Nat) : Nat := fld w 0 16
def barPend (w : Nat) : Int := sint (fld w 96 32) 32
def barOvf (w : Nat) : Bool := bit w 61

/-- PEND with bytes added; outside 32 bits it sets PENDOVF (R173, R368). -/
def barAddPend (w : Nat) (b : Int) : Nat :=
  let p := barPend w + b
  let w := setFld w 96 32 (wrapN 32 p)
  if p < -2 ^ 31 ∨ 2 ^ 31 ≤ p then setFld w 61 1 1 else w

/-- try_complete of R174: a completed phase ends the BWAITs parked on it, each with its acquire. -/
def tryComplete (s : State) (cl off : Nat) : State :=
  let w := barGet s cl off
  if barArrived w = barExpect w ∧ barPend w = 0 ∧ !barOvf w then
    let w := setFld (setFld (setFld w 0 16 (barPhase w + 1)) 31 15 0) 16 15 0
    let free (t : State) (n : Nat) : State := modCtx t n fun c => (c.acquire .dev (barSts w)).goto (c.pc + 4)
    boostCheck ((waiting s (· == .bwait cl off)).foldl free (barPut s cl off w)) cl off
  else s

/-- A slot named by an address: 16-byte aligned, outside the spill area and every bound granule (R368). -/
def barNamed (s : State) (adr : Nat) : Res (Nat × Nat) :=
  match combOperand (ownCl (cur s)) adr 16 with
  | .error e => .error e
  | .ok (cl, o) =>
    if spillBase s cl < o + 16 then .error (protTrap adr .write false)
    else match boundTo s cl o with
      | some (i, c) => .error (cellTrapOf cl i c)
      | none => .ok (cl, o)

/-- BINIT (R174, R368). -/
def execBinit (a b : XReg) (s : State) : Out :=
  let v := (rx s b).toNat
  let adr := (rx s a).toNat
  if fld v 15 1 ≠ 0 ∨ v / 2 ^ 25 ≠ 0 then .next (takeTrap s (badTarget v))
  else match barNamed s adr with
    | .error e => .next (takeTrap s e)
    | .ok (cl, o) =>
      let e := fld v 0 15
      if liveAt s cl o 16 ∨ e = 0 ∨ 24576 < e then .next (takeTrap s (barrierMisuse adr))
      else if sbTouches s adr 16 then .next (hold s)
      else
        let w := 2 ^ 63 + e * 2 ^ 46 + (if bit v 24 then fld v 16 8 * 2 ^ 64 + 2 ^ 62 else 0)
        .next (next (modCl (barPut s cl o w) cl fun c => { c with bars := nins c.bars o }))

/-- BARRV (R174): release at DEV scope, then the arrival. -/
def execBarrv (d a b : XReg) (s : State) : Out :=
  let v := (rx s b).toNat
  let adr := (rx s a).toNat
  if v / 2 ^ 32 ≠ 0 then .next (takeTrap s (badTarget v))
  else match barNamed s adr with
    | .error e => .next (takeTrap s e)
    | .ok (cl, o) =>
      let w := barGet s cl o
      if !(clOf s cl).bars.contains o ∨ barArrived w = barExpect w then .next (takeTrap s (barrierMisuse adr))
      else withRelease s .dev fun t =>
        let w := setFld w 72 24 (Nat.max (barSts w) (cur t).pts)
        let w := barAddPend (setFld w 31 15 (barArrived w + 1)) (sint v 32)
        let t := wbX t d (wd (barPhase w))
        .next (tryComplete (tsCheck (barPut t cl o w) (barSts w)) cl o)

/-- BWAIT (R174). -/
def execBwait (a b : XReg) (s : State) : Out :=
  let adr := (rx s a).toNat
  match barNamed s adr with
  | .error e => .next (takeTrap s e)
  | .ok (cl, o) =>
    let w := barGet s cl o
    if barOvf w ∨ !(clOf s cl).bars.contains o then .next (takeTrap s (barrierMisuse adr))
    else if barPhase w = (rx s b).toNat % 65536 then .next (barWaiters (park s (.bwait cl o)) cl o (fld w 16 15 + 1))
    else .next (next (modCur s (·.acquire .dev (barSts w))))

/-- BRETIRE (R174, R368): LIVE is cleared; those parked on the structure trap, and the TE commands that name it fail. -/
def execBretire (a : XReg) (s : State) : Out :=
  let adr := (rx s a).toNat
  match barNamed s adr with
  | .error e => .next (takeTrap s e)
  | .ok (cl, o) =>
    if (clOf s cl).bars.contains o then
      let t := modCl s cl fun c => { c with bars := nrem c.bars o }
      let t := barPut t cl o (setFld (barGet s cl o) 63 1 0)
      let t := if (clOf s cl).boosts.any (·.off == o) then later t (.release cl o) else t
      .next (next (trapWaiting t (· == .bwait cl o) (barrierMisuse adr)))
    else if (clOf s cl).cbs.contains o then
      let t := modCl s cl fun c => { c with cbs := nrem c.cbs o }
      let t := cbPut t cl o (setFld (cbGet s cl o) 31 1 0)
      let key := combKey cl o
      let fails (m : TeCmd) : TeCmd := if m.compl = 2 ∧ m.complAddr = key then { m with fail := 0x0D } else m
      let t := { t with clusters := t.clusters.map fun (k : Nat × Cluster) =>
        (k.1, { k.2 with te := k.2.te.map fails,
                         restarts := k.2.restarts.map fun (r : Nat × Restart) => (r.1, { r.2 with cmd := r.2.cmd.map fails }) }) }
      let t := teKickFor t key
      .next (next (trapWaiting t (· == .cbpop cl o) (barrierMisuse adr)))
    else .next (takeTrap s (barrierMisuse adr))

end Sys2Proof.Machine
end

