-- ==== Sys2Proof/Machine/Anvil.lean ====
section
/-!
DEFINITION. The slots of an anvil (R392 to R431): each is a check on the state in which its bundle issues followed by
its effects, of which the register writes and stores are put in flight until their latency is over (R393). Also the
landing of results (R393, R394, R280) and the runs of the VGA unit (R419 to R425).
-/

namespace Sys2Proof.Machine

/-- What an anvil bundle faults with (R194, R195): cause, row, tile queue, word 3's upper half. -/
structure AvTrap where
  cause : Nat
  row : Nat := 0
  tq : Nat := 0
  handle : Nat := 0
  deriving DecidableEq, Repr, Inhabited

abbrev Ares := Except AvTrap State

/-- The context whose bundle is in hand: the issuing one of anvil `s.av`. -/
def ic (s : State) : Nat := (avOf s s.av).cur
def icx (s : State) : AvCtx := avCtx (avOf s s.av) (ic s)
def modIc (s : State) (f : AvCtx → AvCtx) : State := modAvCtx s s.av (ic s) f
def avCyc (s : State) : Nat := (avOf s s.av).cyc

/-! ## Registers -/

def AvCtx.sr (c : AvCtx) (r : Fin 16) : BitVec 32 := c.s[r.val]!
def AvCtx.hr (c : AvCtx) (r : Fin 8) : BitVec 32 := c.h[r.val]!
def zeros32 : List (BitVec 36) := List.replicate 32 0
def AvCtx.wr (c : AvCtx) (r : Nat) : List (BitVec 36) := (fget c.w r).getD zeros32
def AvCtx.plr (c : AvCtx) (r : Nat) : List (BitVec 36) := (fget c.pl r).getD zeros32
def AvCtx.tile (c : AvCtx) (b : Bool) (n : Nat) : Tile := (fget (if b then c.tb else c.ta) n).getD {}
def AvCtx.accLane (c : AvCtx) (r i j : Nat) : BitVec 36 := (fget c.acc (1024 * r + 32 * i + j)).getD 0
/-- A lane table with one lane written; a zero lane is not listed. -/
def laneSet (m : FMap (BitVec 36)) (k : Nat) (v : BitVec 36) : FMap (BitVec 36) := if v = 0 then fdel m k else fset m k v

/-- FPC as FPCW writes it (R278). -/
def fpcMask (v : BitVec 32) : BitVec 12 :=
  let w := v.toNat % 4096
  BitVec.ofNat 12 (fld w 7 5 * 128 + fld w 4 1 * 16 + (if 4 < fld w 0 3 then 0 else fld w 0 3))
def AvCtx.rm (c : AvCtx) : Rm := rmOf (fld c.fpc.toNat 0 3)
def AvCtx.sat (c : AvCtx) : Bool := c.fpc.getLsbD 4
/-- ACCSAT. -/
def accSat : BitVec 12 := 0x800

/-! ## Full and half MMA (R265 to R272, R416, R417) -/

/-- The factors of an element of a tile row: the element and the scale of its block (R263 to R265). -/
def factors (t : Tile) (sc : ScaleReg) (row blk : Nat) (bytes : List Byte) (k : Nat) : List FVal :=
  let w := elemAt t.tag bytes k
  let n := scaleBytes t.tag
  if n = 0 then [elemVal t.tag w]
  else
    let e := leNat ((((fget sc.rows row).getD []).drop (k / blk * n)).take n)
    let v := if (t.tag = 22 ∨ t.tag = 23) ∧ w = 8 then (unpack .e4m3 (e / 256 % 256)).quiet else elemVal t.tag w
    [v, scaleVal t.tag e]

/-- A tile row as the operands of an MMA see it; none when it is invalid. -/
def operandRow (t : Tile) (sc : ScaleReg) (row blk kk : Nat) : Option (List (List FVal)) :=
  if t.valid.getLsbD row then
    let bytes := (fget t.rows row).getD []
    some ((List.range kk).map fun k => factors t sc row blk bytes k)
  else none

/-- Elements along K that an MMA uses (R268, R416). -/
def mmaK (tag : Nat) (half : Bool) (tail : Option Nat) : Nat :=
  let k := codeK tag / (if half then 2 else 1)
  Nat.min (tail.getD k) k

/-- The accumulator and the flags after an MMA (R268 to R271, R417). -/
def mmaRun (c : AvCtx) (o : MmaOps) (half : Bool) (ha hb : Nat) (tail : Option Nat) (a b : Tile) (sa sb : ScaleReg) :
    FMap (BitVec 36) × BitVec 12 :=
  let n := if half then 16 else 32
  let full := codeK a.tag / (if half then 2 else 1)
  let kk := mmaK a.tag half tail
  if kk = 0 then (c.acc, 0)
  else
    let blkA := Nat.min (16 * 2 ^ o.ba.val) full
    let blkB := Nat.min (16 * 2 ^ o.bb.val) full
    let as := (List.range n).map fun i => operandRow a sa (16 * ha + i) blkA kk
    let bs := (List.range n).map fun j => operandRow b sb (16 * hb + j) blkB kk
    (List.range n).foldl (fun r i => (List.range n).foldl (fun (r : FMap (BitVec 36) × BitVec 12) j =>
      let old := c.accLane o.acc.val (16 * ha + i) (16 * hb + j)
      let ps : List (List FVal × List FVal) := match as.getD i none, bs.getD j none with
        | some x, some y => x.zip y
        | _, _ => []
      let (v, f) : BitVec 36 × BitVec 12 :=
        if o.int then
          let (v, k) := combineInt old (ps.map fun p => match prodV (p.1 ++ p.2) with
            | (.num s m e, _) => signedMan s m e 0
            | _ => 0)
          (v, if k then accSat else 0)
        else let (v, k) := combine36 old (ps.map fun p => prodV (p.1 ++ p.2)); (v, k.fpc)
      (laneSet r.1 (1024 * o.acc.val + 32 * (16 * ha + i) + 16 * hb + j) v, r.2 ||| f)) r) (c.acc, 0)

/-! ## Results in flight (R393, R394) -/

/-- The register an effect writes: s 0 to 15, h 16 to 23, gate 24, FPC 25, ta 26 to 29, tb 30 to 33, sa 34, sb 35,
w 36 to 51, pl 52 to 55, acc 56 to 59. -/
def AvEff.reg : AvEff → Option Nat
  | .s r _ => some r
  | .h r _ => some (16 + r)
  | .gate _ => some 24
  | .fpc _ => some 25
  | .flags _ => none
  | .tileA n _ => some (26 + n)
  | .tileB n _ => some (30 + n)
  | .halfTile b n _ _ => some (26 + (if b then 4 else 0) + n)
  | .scale b _ => some (if b then 35 else 34)
  | .w r .. => some (36 + r)
  | .ldw r .. => some (36 + r)
  | .pl r .. => some (52 + r)
  | .plAll r _ => some (52 + r)
  | .acc r .. => some (56 + r)
  | .zacc r => some (56 + r)
  | .mma o .. => some (56 + o.acc.val)
  | .store .. => none

/-- The context after a register write lands. -/
def AvEff.apply (c : AvCtx) : AvEff → AvCtx
  | .s r v => { c with s := c.s.set! r v }
  | .h r v => { c with h := c.h.set! r v }
  | .gate l => { c with gate := l }
  | .fpc v => { c with fpc := v }
  | .flags v => { c with fpc := c.fpc ||| v }
  | .tileA n t => { c with ta := fset c.ta n t }
  | .tileB n t => { c with tb := fset c.tb n t }
  | .halfTile b n first t =>
    let old := c.tile b n
    let inHalf (r : Nat) : Bool := decide (first ≤ r) && decide (r < first + 16)
    let m : BitVec 32 := BitVec.ofNat 32 (0xFFFF * 2 ^ first)
    let new : Tile := {
      tag := t.tag
      rows := t.rows.foldl (fun r p => fset r p.1 p.2) (old.rows.filter fun p => !inHalf p.1)
      valid := (old.valid &&& ~~~m) ||| (t.valid &&& m)
      poison := t.poison.foldl (fun r p => fset r p.1 p.2) (old.poison.filter fun p => !inHalf p.1) }
    if b then { c with tb := fset c.tb n new } else { c with ta := fset c.ta n new }
  | .scale b r => if b then { c with sb := r } else { c with sa := r }
  | .w r v f => { c with w := fset c.w r v, fpc := c.fpc ||| f }
  | .ldw r v mark =>
    { c with w := fset c.w r v, wp := match mark with | some m => fset c.wp r m | none => fdel c.wp r }
  | .pl r lane v f => { c with pl := fset c.pl r ((c.plr r).set lane v), fpc := c.fpc ||| f }
  | .plAll r v => { c with pl := fset c.pl r (List.replicate 32 v) }
  | .acc _ lanes f => { c with acc := lanes.foldl (fun m p => laneSet m p.1 p.2) c.acc, fpc := c.fpc ||| f }
  | .zacc r => { c with acc := c.acc.filter fun p => decide (p.1 / 1024 ≠ r) }
  | .mma o half ha hb tail a b sa sb =>
    let (m, f) := mmaRun c o half ha hb tail a b sa sb
    { c with acc := m, fpc := c.fpc ||| f }
  | .store _ _ _ _ _ f => { c with fpc := c.fpc ||| f }

/-- A store of an anvil performs (R430, R210): its bytes, VALID of its rows, one counted write fewer. A cell opened anew since
its issue is another cell. -/
def avStore (s : State) (cl i gen : Nat) (rows : List (Nat × List Byte)) (mask : BitVec 32) : State :=
  let t := rows.foldl (fun u r => combStore u cl r.1 r.2) s
  countDown (modCell t cl i fun c => if c.cgen = gen then { c with valid := c.valid ||| mask } else c) [(cl, i, gen)]

/-- A result lands. One of an earlier run of the context writes no register. -/
def landOne (s : State) (av k : Nat) (p : AvPend) : State :=
  let t := match p.eff with
    | .store cl i gen rows mask _ => avStore s cl i gen rows mask
    | _ => s
  modAvCtx t av k fun c => if p.run = c.run then p.eff.apply c else c

/-- The results of a context that are readable in this cycle: an FPC write applies before flags are ORed in (R280). -/
def landCtx (s : State) (av k : Nat) : State :=
  let a := avOf s av
  let c := avCtx a k
  let now := c.pend.filter fun p => decide (p.due ≤ a.cyc)
  let fpc (p : AvPend) : Bool := p.eff.reg == some 25
  let t := modAvCtx s av k fun c => { c with pend := c.pend.filter fun p => decide (a.cyc < p.due) }
  (now.filter fpc ++ now.filter fun p => !fpc p).foldl (fun u p => landOne u av k p) t

/-- ANVIL_RESULT_READABLE (R393): everything whose latency is over can be read. -/
def execAnvilResultReadable (av : Nat) (s : State) : Out := .next (landCtx (landCtx s av 0) av 1)

/-- A result is put in flight. -/
def land (s : State) (lat : Nat) (e : AvEff) : State :=
  modIc s fun c => { c with pend := c.pend ++ [{ run := c.run, due := avCyc s + lat, eff := e }] }

/-! ## Sequencer registers (R397) -/

def sextS (n : Nat) (i : BitVec n) : BitVec 32 := i.signExtend 32
def seqOperand (c : AvCtx) : Fin 16 ⊕ BitVec 10 → BitVec 32
  | .inl r => c.sr r
  | .inr i => sextS 10 i

def slotSli (d : Fin 16) (i : BitVec 15) (_b s : State) : Ares := .ok (land s 1 (.s d (sextS 15 i)))
def slotSadd (d a : Fin 16) (x : Fin 16 ⊕ BitVec 10) (b s : State) : Ares :=
  .ok (land s 1 (.s d ((icx b).sr a + seqOperand (icx b) x)))
def slotSsub (d a : Fin 16) (x : Fin 16 ⊕ BitVec 10) (b s : State) : Ares :=
  .ok (land s 1 (.s d ((icx b).sr a - seqOperand (icx b) x)))
def slotSand (d a : Fin 16) (x : Fin 16 ⊕ BitVec 10) (b s : State) : Ares :=
  .ok (land s 1 (.s d ((icx b).sr a &&& seqOperand (icx b) x)))
def slotSshl (d a : Fin 16) (sh : BitVec 6) (b s : State) : Ares :=
  let v := (icx b).sr a
  let k := sh.toInt
  .ok (land s 1 (.s d (if 0 ≤ k then v <<< k.toNat else v >>> (-k).toNat)))
def slotFpcr (d : Fin 16) (b s : State) : Ares := .ok (land s 1 (.s d ((icx b).fpc.setWidth 32)))
def slotFpcw (a : Fin 16) (b s : State) : Ares := .ok (land s 1 (.fpc (fpcMask ((icx b).sr a))))

/-! ## Branches (R396, R398) -/

/-- A branch slot: two delay bundles follow; the target is noted if it is taken. -/
def branchSlot (s : State) (taken : Bool) (t : BitVec 14) : State :=
  modIc s fun c => { c with delay := 3, target := if taken then some (t.toNat * 4) else none }
def slotBr (t : BitVec 14) (_b s : State) : Ares := .ok (branchSlot s true t)
def slotBrz (a : Fin 16) (t : BitVec 14) (b s : State) : Ares := .ok (branchSlot s (decide ((icx b).sr a = 0)) t)
def slotBrnz (a : Fin 16) (t : BitVec 14) (b s : State) : Ares := .ok (branchSlot s (decide ((icx b).sr a ≠ 0)) t)

/-! ## Loops (R400 to R403) -/

/-- The innermost active level. -/
def AvCtx.inner (c : AvCtx) : Option Level :=
  (c.levels.toList.filter (·.active)).foldl (fun r l => match r with
    | none => some l
    | some m => if m.order < l.order then some l else some m) none

/-- Gates (R288, R403). -/
def AvCtx.gateOk (c : AvCtx) (g : Nat) : Bool :=
  let (i, trip, st) : Nat × Nat × Nat := match c.inner with | some l => (l.i, l.trip, l.stages) | none => (0, 1, 1)
  match g with
  | 0 => true
  | 1 => i == 0
  | 2 => i + 2 == trip + st
  | 3 => let l := c.levels[c.gate]!; l.active && l.i == 0
  | g => decide (g - 4 ≤ i) && decide (i - (g - 4) < trip)

/-- A level and every level inside it end, without rewinding (R398, R402). -/
def AvCtx.dropLevel (c : AvCtx) (order : Nat) : AvCtx :=
  { c with levels := c.levels.map fun l => if l.active && decide (order ≤ l.order) then { l with active := false } else l }

/-- Size in bytes of the bundle at an address of instruction memory. -/
def bundleSize (s : State) (av pc : Nat) : Nat :=
  match firstIdx (fun i => bit (memGet s.mem (imemKey av (pc + 4 * i + 3))).toNat 7) (List.range 8) with
  | some i => 4 * (i + 1)
  | none => 32

/-- LOOP: the body begins after the bundle, at `body` (R402). The next pc when the body is skipped goes to `pc`. -/
def loopStart (s : State) (l st trip e body : Nat) : State :=
  let c := icx s
  let lv := c.levels[l]!
  let c := if lv.active then c.dropLevel lv.order else c
  let last := body + 4 * e
  let order := (c.levels.toList.map (·.order)).foldl Nat.max 0 + 1
  let new : Level := { lv with active := decide (trip ≠ 0), start := body, last := last, trip := trip, stages := st + 1,
                               i := 0, order := order }
  let c := { c with lc := c.lc.set! l 0, levels := c.levels.set! l new }
  modIc s fun _ => if trip = 0 then { c with pc := last + bundleSize s s.av last } else c

/-- LOOP (R402); in `s` the pc is already the address after the bundle. -/
def slotLoop (l : Fin 8) (st : Fin 4) (t : Fin 16) (e : BitVec 10) (b s : State) : Ares :=
  .ok (loopStart s l.val st.val (((icx b).sr t).toNat % 65536) e.toNat
    ((icx b).pc + bundleSize b b.av (icx b).pc))

def slotLstr (l : Fin 8) (k : Fin 4) (r : Fin 16) (str : BitVec 10) (_b s : State) : Ares :=
  .ok (modIc s fun c =>
    let lv := c.levels[l.val]!
    { c with levels := c.levels.set! l.val { lv with str := lv.str.set! k.val { reg := r.val, str := str.toInt * 16 } } })

def slotLext (l : Fin 8) (a : Fin 16) (b s : State) : Ares :=
  .ok (modIc s fun c =>
    let lv := c.levels[l.val]!
    if lv.active then
      { c with levels := c.levels.set! l.val { lv with trip := Nat.min (lv.trip + ((icx b).sr a).toNat) 65535 } }
    else c)

def slotLgate (l : Fin 8) (_b s : State) : Ares := .ok (land s 1 (.gate l.val))

/-! ## Tile queues (R404 to R408, R147) -/

/-- Entries of a queue that are not reserved. -/
def freeEntry (q : TileQ) : Option TqEntry := q.es.find? (·.resv.isNone)

/-- Class of a queue as a context last saw TQCLASS. -/
def tqSeen (a : Anvil) (c q : Nat) : Nat := fld (if c = 0 then a.tqSeenA else a.tqSeenB).toNat (2 * q) 2

/-- The queue a wait on a mask takes (R147): one that has been passed over for 4,096 cycles, else by class and number. Of
several passed over so long the lowest number goes (DESIGN CHOICE, log 83). -/
def chooseQ (a : Anvil) (c mask : Nat) : Option Nat :=
  let cand := (List.range 8).filter fun q => bit mask q && (freeEntry a.qs[q]!).isSome
  let aged := cand.filter fun q => tqSeen a c q != 0 &&
    (match (a.qs[q]!).since with | some t => decide (t + 4096 ≤ a.cyc) | none => false)
  match aged with
  | q :: _ => some q
  | [] => (List.range 4).findSome? fun k => cand.find? fun q => tqSeen a c q == k

/-- Queues passed over by a choice start to age; the chosen one and empty ones do not (R147, R148). -/
def notePassed (a : Anvil) (mask q : Nat) : Anvil :=
  { a with qs := Vector.ofFn fun i : Fin 8 =>
      let t := a.qs[i.val]!
      if i.val = q ∨ (freeEntry t).isNone then { t with since := none }
      else if bit mask i.val then { t with since := some (t.since.getD a.cyc) } else t }

/-- An entry's reservation changes. -/
def TileQ.resvSwap (t : TileQ) (n : Nat) (old new : Option Nat) : TileQ :=
  { t with es := t.es.map fun e => if e.num == n && e.resv == old then { e with resv := new } else e }

/-- The entry reserved for a context is released (R405, R399). -/
def releaseResv (s : State) (av k : Nat) : State :=
  match (avCtx (avOf s av) k).resv with
  | none => s
  | some (q, n) =>
    modAvCtx (modTq s av q fun t => t.resvSwap n (some k) none) av k fun c => { c with resv := none }

/-- WAITQ once satisfied (R405): the queue's oldest free entry is reserved. -/
def slotWaitq (d : Option (Fin 16)) (mask : BitVec 8) (_b s : State) : Ares :=
  let k := ic s
  match chooseQ (avOf s s.av) k mask.toNat with
  | none => .ok s
  | some q =>
    let n := ((freeEntry (tqOf s s.av q)).map TqEntry.num).getD 0
    let t := modAv s s.av fun a => notePassed a mask.toNat q
    let t := modTq t s.av q fun t => t.resvSwap n none (some k)
    let t := modIc t fun c => { c with resv := some (q, n) }
    .ok (match d with | some r => land t 1 (.s r q) | none => t)

/-- An entry leaves its queue (R406). -/
def popEntry (s : State) (q : Nat) (e : TqEntry) : State :=
  let t := modTq s s.av q fun t =>
    let es := dropFirst (fun x => x.num == e.num) t.es
    { t with es := es, since := if es.isEmpty then none else t.since }
  tqFreed t

/-- POPQ (R406). -/
def slotPopq (h : Fin 8) (q : Option (Fin 8)) (f : Option (Fin 16)) (b s : State) : Ares :=
  let done (t : State) (e : TqEntry) : State :=
    let t := land t 1 (.h h (BitVec.ofNat 32 (e.handle.toNat / 256 * 256)))
    match f with | some r => land t 1 (.s r (BitVec.ofNat 32 e.flags)) | none => t
  match q with
  | none =>
    match (icx b).resv with
    | none => .error { cause := 0x0F }
    | some (qn, n) =>
      match (tqOf s s.av qn).es.find? fun e => e.num == n && e.resv == some (ic s) with
      | none => .error { cause := 0x0F, tq := qn }
      | some e => .ok (done (modIc (popEntry s qn e) fun c => { c with resv := none }) e)
  | some qn =>
    match freeEntry (tqOf s s.av qn.val) with
    | none => .error { cause := 0x0F, tq := qn.val }
    | some e => .ok (done (popEntry s qn.val e) e)

/-- An operand cell of the anvil's cluster (R413, R429). -/
def avCell (s : State) (h : BitVec 32) : Except AvTrap (Nat × Cell) :=
  let v := h.toNat
  if fld v 0 8 ≠ 0 ∨ handleCl v ≠ s.av / 2 ∨ !clusterOk (handleCl v) then .error { cause := 0x16, handle := v }
  else .ok (handleIx v, cellOf s (s.av / 2) (handleIx v))

/-- The cell is in a state that the slot takes, under its current CGEN. -/
def avState (h : BitVec 32) (c : Cell) (ok : Bool) : Except AvTrap Unit :=
  if c.cgen ≠ handleGen h.toNat ∨ !ok then .error { cause := 0x09, handle := h.toNat } else .ok ()

def readable (c : Cell) : Bool := c.st == .sealed || c.st == .retiring

/-- PUSHQ (R407): QUEUE_FULL ranks first (R194). -/
def slotPushq (h : Fin 8) (q : Fin 8) (b s : State) : Ares := do
  let hv := (icx b).hr h
  if tqRoom s s.av q.val = 0 then .error { cause := 0x10, tq := q.val, handle := hv.toNat }
  let (_, c) ← avCell b hv
  avState hv c (readable c)
  .ok (tqPut s s.av q.val hv.toNat 0)

/-- DONE (R408). -/
def slotDone (h : Fin 8) (b s : State) : Ares := do
  let hv := (icx b).hr h
  let (i, _) ← avCell b hv
  let c := cellOf s (s.av / 2) i
  avState hv c (doneOk c)
  .ok (doneCell s (s.av / 2) i)

/-! ## Triggers (R409 to R411) -/

def slotTrgset (t : Fin 4) (arm : Option (Fin 8 × Fin 16 × Fin 16)) (b s : State) : Ares :=
  match arm with
  | none => .ok (modAv s s.av fun a =>
      { a with trg := a.trg.set! t.val { a.trg[t.val]! with armed := false, fired := false } })
  | some (q, n, f) => .ok (modAv s s.av fun a =>
      { a with trg := a.trg.set! t.val {
          base := (a.qs[q.val]!).arrv, thresh := ((icx b).sr n).toNat % 65536, armed := true, fired := false,
          ctx := ic s, queue := q.val, sreg := f.val, run := (icx b).run } })

/-- The triggers whose condition holds fire (R410): the flag register is written in the next cycle. -/
def fireTriggers (a : Anvil) : Anvil :=
  (List.range 4).foldl (fun a i =>
    let t := a.trg[i]!
    if t.armed && !t.fired && decide (t.thresh ≤ ((a.qs[t.queue]!).arrv + 2 ^ 32 - t.base) % 2 ^ 32) then
      { a with trg := a.trg.set! i { t with fired := true }, fire := a.fire ++ [(t.ctx, t.run, t.sreg)] }
    else a) a

/-- The flag registers of the triggers that fired in the last cycle are set, in contexts that have not halted since. -/
def fireWrites (s : State) (av : Nat) : State :=
  let l := (avOf s av).fire
  l.foldl (fun u w => modAvCtx u av w.1 fun c =>
      if c.running && c.run == w.2.1 then { c with s := c.s.set! w.2.2 1 } else c)
    (modAv s av fun a => { a with fire := [] })

/-! ## Loads (R413 to R415) -/

/-- An offset register: column, row base, QS, and whether the bits that must be zero are (R414, R430). -/
def offCol (v : BitVec 32) : Nat := fld v.toNat 0 16
def offRow (v : BitVec 32) : Nat := fld v.toNat 16 5
def offQs (v : BitVec 32) : Nat := fld v.toNat 21 3
def offClean (v : BitVec 32) (qs : Bool) : Bool := if qs then fld v.toNat 24 8 == 0 else fld v.toNat 21 11 == 0

/-- Comb offset of a byte of a cell row. -/
def rowOff (c : Cell) (r col : Nat) : Nat := c.base * 512 + r * c.pitch * 16 + col
/-- A cell row that holds data. -/
def rowValid (c : Cell) (r : Nat) : Bool := decide (r ≤ c.rows) && c.valid.getLsbD r

/-- What a load slot reads: rows by number, their mask, marks of rows in which a double error was first met, FMT. -/
structure Loaded where
  rows : FMap (List Byte)
  valid : BitVec 32
  marks : FMap (Nat × Nat)
  fmt : Nat
  deriving DecidableEq, Repr, Inhabited

/-- A load of `n` rows of `width` bytes into register rows from `first` on (R413, R414). -/
def loadRows (b s : State) (h v : BitVec 32) (n width first : Nat) : Except AvTrap (Loaded × State) := do
  let (_, c) ← avCell b h
  let cl := s.av / 2
  let col := offCol v
  if !offClean v false ∨ col % 16 ≠ 0 ∨ c.pitch * 16 < col + width then .error { cause := 0x18, handle := h.toNat }
  avState h c (readable c)
  let rs := (List.range n).filter fun i => rowValid c (offRow v + i)
  let words (i : Nat) : List Nat := wordsOf (rowOff c (offRow v + i) col) width
  match rs.find? fun i => (words i).any (clOf b cl).poison.contains with
  | some i => .error { cause := 0x0C, row := offRow v + i, handle := h.toNat }
  | none =>
    let t := rs.foldl (fun u i => combDetect u cl (rowOff c (offRow v + i) col) width) s
    .ok ({ rows := rs.map fun i => (first + i, combBytes b cl (rowOff c (offRow v + i) col) width),
           valid := BitVec.ofNat 32 (rs.foldl (fun m i => m + 2 ^ (first + i)) 0),
           marks := (rs.filter fun i => (words i).any (clOf b cl).latent.contains).map fun i =>
             (first + i, (h.toNat, offRow v + i)),
           fmt := c.fmt }, t)

/-- The load path takes a slot: cycles until its result is readable, and the path occupied (R393). -/
def loadPath (s : State) (lat occ : Nat) : Nat × State :=
  let a := avOf s s.av
  let st := Nat.max a.cyc a.ldBusy
  (st - a.cyc + lat, modAv s s.av fun a => { a with ldBusy := st + occ })

def slotLdt (bt : Bool) (n : Fin 4) (h : Fin 8) (r : Fin 16) (b s : State) : Ares := do
  let (l, t) ← loadRows b s ((icx b).hr h) ((icx b).sr r) 32 64 0
  let (lat, t) := loadPath t 8 8
  let tile : Tile := { tag := l.fmt, rows := l.rows, valid := l.valid, poison := l.marks }
  .ok (land t lat (if bt then .tileB n tile else .tileA n tile))

def slotLdth (bt : Bool) (n : Fin 4) (h : Fin 8) (r : Fin 16) (half : Fin 2) (b s : State) : Ares := do
  let (l, t) ← loadRows b s ((icx b).hr h) ((icx b).sr r) 16 32 (16 * half.val)
  let (lat, t) := loadPath t 4 2
  let tile : Tile := { tag := l.fmt, rows := l.rows, valid := l.valid, poison := l.marks }
  .ok (land t lat (.halfTile bt n (16 * half.val) tile))

def slotLdts (bt : Bool) (h : Fin 8) (r : Fin 16) (b s : State) : Ares := do
  let (l, t) ← loadRows b s ((icx b).hr h) ((icx b).sr r) 32 32 0
  let (lat, t) := loadPath t 6 4
  .ok (land t lat (.scale bt { rows := l.rows, poison := l.marks }))

/-- LDW (R415): a format without values of its own traps with BAD_TARGET. -/
def slotLdw (w : Fin 16) (h : Fin 8) (r : Fin 16) (b s : State) : Ares := do
  let hv := (icx b).hr h
  let (_, c) ← avCell b hv
  if 16 ≤ c.fmt then .error { cause := 0x16, handle := hv.toNat }
  let (l, t) ← loadRows b s hv ((icx b).sr r) 1 (4 * codeBits c.fmt) 0
  let (lat, t) := loadPath t 4 2
  let lanes := match fget l.rows 0 with
    | none => zeros32
    | some bs => (List.range 32).map fun k =>
        let e := elemAt l.fmt bs k
        if l.fmt < 8 then (rne36 (elemVal l.fmt e)).1 else BitVec.ofInt 36 (codeInt l.fmt e)
  .ok (land t lat (.ldw w lanes (fget l.marks 0)))

/-! ## Matrix multiply (R416, R417) -/

/-- A mark of R413 on a valid row that is read. -/
def tileMark (t : Tile) (rows : List Nat) : Option (Nat × Nat) :=
  rows.findSome? fun r => if t.valid.getLsbD r then fget t.poison r else none
def scaleMark (t : Tile) (sc : ScaleReg) (rows : List Nat) : Option (Nat × Nat) :=
  if scaleBytes t.tag = 0 then none else rows.findSome? fun r => if t.valid.getLsbD r then fget sc.poison r else none
def marked (m : Option (Nat × Nat)) : Except AvTrap Unit :=
  match m with
  | some (h, r) => .error { cause := 0x0C, row := r, handle := h }
  | none => .ok ()

/-- A charge is debited from the grant held (R26). -/
def debit (s : State) (n : Nat) : State :=
  modIc s fun c => { c with grant := c.grant.map fun g => { g with left := g.left - n } }

def mmaSlot (o : MmaOps) (half : Bool) (ha hb : Nat) (b s : State) : Ares := do
  let c := icx b
  let a := c.tile false o.a
  let bt := c.tile true o.b
  let rows (k : Nat) : List Nat := (List.range (if half then 16 else 32)).map (16 * k + ·)
  marked (tileMark a (rows ha))
  marked (tileMark bt (rows hb))
  let tail := if o.te then some (c.sr o.kt).toNat else none
  -- a scale entry is read for an unmasked product alone (R272)
  let some? (t : Tile) (l : List Nat) : Bool := mmaK a.tag half tail != 0 && l.any fun r => t.valid.getLsbD r
  marked (if some? bt (rows hb) then scaleMark a c.sa (rows ha) else none)
  marked (if some? a (rows ha) then scaleMark bt c.sb (rows hb) else none)
  let t := modAv (debit s (if half then 4 else 16)) s.av fun v => { v with mmaBusy := v.cyc + (if half then 1 else 4) }
  .ok (land t (if half then 6 else 12) (.mma o half ha hb tail a bt c.sa c.sb))

def slotMma (o : MmaOps) (b s : State) : Ares := mmaSlot o false 0 0 b s
def slotMmah (o : MmaOps) (ha hb : Fin 2) (b s : State) : Ares := mmaSlot o true ha.val hb.val b s

/-- The pair of tiles an MMA names is one that R266 accepts. -/
def pairOk (c : AvCtx) (o : MmaOps) : Bool :=
  let x := (c.tile false o.a).tag
  let y := (c.tile true o.b).tag
  decide (x < 28) && decide (y < 28) && codeBits x == codeBits y &&
    (x == 2) == (y == 2) && (!o.int || (decide (8 ≤ x) && decide (x ≤ 15) && decide (8 ≤ y) && decide (y ≤ 15)))

/-! ## VGA (R419 to R423) -/

/-- Elements of a row of a cell (R420, R424). -/
def rowElems (c : Cell) : Nat := c.pitch * 16 * 8 / codeBits c.fmt

/-- The bytes of a stream: the valid rows in order (R419). -/
def streamBytes (s : State) (cl : Nat) (c : Cell) : List Byte :=
  ((List.range (c.rows + 1)).filter (rowValid c)).flatMap fun r => combBytes s cl (rowOff c r 0) (c.pitch * 16)

/-- A group of a stream row: its value's bits and its positions in order. -/
abbrev VGroup := Nat × List Nat

/-- A stream as far as it has been parsed: complete rows, groups of the row in hand (the last is open when `op`),
positions of the row and in all. -/
structure VgSt where
  rows : List (List VGroup) := []
  groups : List VGroup := []
  op : Bool := false
  rpos : Nat := 0
  npos : Nat := 0
  deriving DecidableEq, Repr, Inhabited

/-- What parsing ends with: the rows, or the stream row of the first violation (R422), and the tokens consumed. -/
abbrev VgOut := Except Nat (List (List VGroup)) × Nat

def addPos : List VGroup → Nat → List VGroup
  | [], _ => []
  | [(v, ps)], p => [(v, ps ++ [p])]
  | g :: t, p => g :: addPos t p

/-- The tokens of a stream against its header (R419, R422): value code, activation length, H and the row count. -/
def vgParse (code len h nrows : Nat) : List Nat → VgSt → Nat → VgOut
  | [], st, k => (.error (Nat.min st.rows.length 31), k)
  | t :: rest, st, k =>
    let bad : VgOut := (.error (Nat.min st.rows.length 31), k + 1)
    let a := fld t 0 12
    match fld t 12 4 with
    | 0 =>
      if !st.op ∨ len ≤ a ∨ 4096 ≤ st.rpos ∨ h ≤ st.npos then bad
      else vgParse code len h nrows rest { st with groups := addPos st.groups a, rpos := st.rpos + 1, npos := st.npos + 1 }
        (k + 1)
    | 1 => if !st.op ∨ a ≠ 0 then bad else vgParse code len h nrows rest { st with op := false } (k + 1)
    | 2 =>
      if st.op ∨ a ≠ 0 ∨ nrows ≤ st.rows.length then bad
      else vgParse code len h nrows rest { st with rows := st.rows ++ [st.groups], groups := [], rpos := 0 } (k + 1)
    | 3 =>
      if st.op ∨ a ≠ 0 ∨ !st.groups.isEmpty ∨ st.rows.length ≠ nrows ∨ st.npos ≠ h then bad else (.ok st.rows, k + 1)
    | 4 =>
      if st.op ∨ 64 ≤ st.groups.length then bad
      else if code = 28 ∨ code = 30 then
        if 256 ≤ a then bad
        else vgParse code len h nrows rest { st with groups := st.groups ++ [(a, [])], op := true } (k + 1)
      else if a ≠ 0 then bad
      else match rest with
        | [] => bad
        | v :: rest => vgParse code len h nrows rest { st with groups := st.groups ++ [(v, [])], op := true } (k + 2)
    | _ => bad

def halfWords : List Byte → List Nat
  | x :: y :: t => (x.toNat + 256 * y.toNat) :: halfWords t
  | _ => []

/-- A whole stream (R419): its rows or the row of the first violation, and the bytes read. -/
def vgStream (code len : Nat) (bs : List Byte) : Except Nat (List (List VGroup)) × Nat :=
  let hd := leNat (bs.take 4)
  if bs.length < 4 ∨ fld hd 29 3 ≠ 0 then (.error 0, Nat.min bs.length 4)
  else
    let (r, k) := vgParse code len (fld hd 0 24) (fld hd 24 5 + 1) (halfWords (bs.drop 4)) {} 0
    (r, 4 + 2 * k)

/-- The value of a group (R273). -/
def vgValue (code v : Nat) : FVal :=
  match code with
  | 28 => (unpack .e4m3 v).quiet
  | 29 => (unpack .bf16 v).quiet
  | 30 => ofInt (sint v 8)
  | _ => (unpack .fp16 v).quiet

/-- A list cut into runs of 64. -/
def runs64 : Nat → List Nat → List (List Nat)
  | 0, _ => []
  | n + 1, l => if l.isEmpty then [] else l.take 64 :: runs64 n (l.drop 64)

/-- vga_row of R273 with the flags of R274. -/
def vgaRow (code : Nat) (out : BitVec 36) (gs : List VGroup) (act : Nat → FVal) : BitVec 36 × Fl :=
  gs.foldl (fun (r : BitVec 36 × Fl) g =>
    if g.2.isEmpty then r
    else
      let (sum, f) := (runs64 (g.2.length / 64 + 1) g.2).foldl (fun (a : BitVec 36 × Fl) run =>
        let (x, k1) := sumV (run.map act)
        let (y, k2) := addV .rne (fp36 a.1) x
        let (z, k3) := rne36 y
        (z, ((a.2.join k1.accOnly).join k2.accOnly).join k3)) ((0 : BitVec 36), r.2)
      let (p, k1) := mulV (fp36 sum) (vgValue code g.1)
      let (q, k2) := rne36 p
      let (u, k3) := addV .rne (fp36 r.1) (fp36 q)
      let (z, k4) := rne36 u
      (z, (((f.join k1.accOnly).join k2).join k3.accOnly).join k4)) (out, {})

/-- What a VGA works with once its checks at issue have passed (R420). -/
structure VgaIn where
  stream : Cell
  act : Cell
  vecs : Nat
  col : Nat
  deriving DecidableEq, Repr, Inhabited

/-- The checks of R413 and R420 on the slot, in the order R194 gives them: BAD_TARGET of either cell first. -/
def vgaCheck (b : State) (hs ha : Fin 8) (r : Fin 16) : Except AvTrap VgaIn := do
  let x := (icx b).hr hs
  let y := (icx b).hr ha
  let v := ((icx b).sr r).toNat
  let (_, cs) ← avCell b x
  let (_, ca) ← avCell b y
  avState x cs (readable cs)
  avState y ca (readable ca)
  if cs.fmt < 28 then .error { cause := 0x11, handle := x.toNat }
  let n := fld v 0 4 + 1
  if 16 ≤ ca.fmt ∨ v / 512 ≠ 0 ∨ 32 < fld v 4 5 + n then .error { cause := 0x12, handle := y.toNat }
  .ok { stream := cs, act := ca, vecs := n, col := fld v 4 5 }

/-- H of a stream's header (R419). -/
def vgaH (b : State) (i : VgaIn) : Nat := fld (leNat ((streamBytes b (b.av / 2) i.stream).take 4)) 0 24

/-- Cycles of R421. -/
def vgaCycles (b : State) (i : VgaIn) : Nat :=
  let rows := match (vgStream i.stream.fmt (rowElems i.act) (streamBytes b (b.av / 2) i.stream)).1 with
    | .ok rs => rs
    | .error _ => []
  12 + 2 * ((i.vecs * i.act.pitch * 16 + 511) / 512) +
    (rows.map fun gs => gs.length + ((gs.map fun g => g.2.length).sum * i.vecs + 127) / 128).sum

/-- An operation enters the VGA unit (R395, R421). -/
def unitPut (s : State) (left : Nat) (op : VgaRun ⊕ ScanRun) : State :=
  modAv s s.av fun a =>
    { a with unit := a.unit ++ [{ c := a.cur, run := (avCtx a a.cur).run, left := left, op := op }] }

def slotVga (acc : Fin 4) (hs ha : Fin 8) (r : Fin 16) (b s : State) : Ares := do
  let i ← vgaCheck b hs ha r
  let t := debit s ((vgaH b i * i.vecs + 63) / 64)
  .ok (unitPut t (vgaCycles b i) (.inl { acc := acc, stream := ((icx b).hr hs).toNat, act := ((icx b).hr ha).toNat,
                                         vecs := i.vecs, col := i.col }))

/-- A mark or error that VGWAIT and SCANWAIT report stops their bundle (R423, R425). -/
def waitErr (s : State) (e : Option RunErr) (clear : AvCtx → AvCtx) : Ares :=
  match e with
  | some e => .error { cause := e.cause, row := e.row, handle := e.handle }
  | none => .ok (modIc s clear)
def slotVgwait (b s : State) : Ares := waitErr s (icx b).vgaErr id
def slotScanwait (b s : State) : Ares := waitErr s (icx b).scanErr id

/-- The first row, of those given, with a poisoned word among its first `n` bytes. -/
def poisonIn (s : State) (cl : Nat) (c : Cell) (rows : List Nat) (upTo : Nat) : Option Nat :=
  let w := c.pitch * 16
  ((rows.zip (List.range rows.length)).find? fun p =>
    (wordsOf (rowOff c p.1 0) (Nat.min w (upTo - p.2 * w))).any fun k => decide (p.2 * w < upTo) && (clOf s cl).poison.contains k).map
      Prod.fst

/-- A job ends in an error, to be reported by its own wait; an earlier run reports nothing. -/
def jobErr (s : State) (av : Nat) (j : UnitJob) (e : RunErr) : State :=
  modAvCtx s av j.c fun c =>
    if c.run ≠ j.run then c
    else match j.op with
      | .inl _ => { c with vgaErr := some e }
      | .inr _ => { c with scanErr := some e }

/-- A VGA completes (R421, R422): one write of the accumulator, or an error and no write. -/
def vgaFinish (s : State) (av : Nat) (j : UnitJob) (r : VgaRun) : State :=
  let cl := av / 2
  let cs := cellOf s cl (handleIx r.stream)
  let ca := cellOf s cl (handleIx r.act)
  let arows := (List.range r.vecs).filter (rowValid ca)
  let srows := (List.range (cs.rows + 1)).filter (rowValid cs)
  let (out, used) := vgStream cs.fmt (rowElems ca) (streamBytes s cl cs)
  let t := arows.foldl (fun u i => combDetect u cl (rowOff ca i 0) (ca.pitch * 16)) s
  let t := srows.foldl (fun u i => combDetect u cl (rowOff cs i 0) (cs.pitch * 16)) t
  match poisonIn t cl ca arows (ca.pitch * 16 * 32), poisonIn t cl cs srows used, out with
  | some i, _, _ => jobErr t av j { cause := 0x0C, handle := r.act, row := i }
  | none, some i, _ => jobErr t av j { cause := 0x0C, handle := r.stream, row := i }
  | none, none, .error i => jobErr t av j { cause := 0x12, handle := r.stream, row := i }
  | none, none, .ok rows =>
    let act (v : Nat) : Nat → FVal :=
      if rowValid ca v then
        let bs := combBytes s cl (rowOff ca v 0) (ca.pitch * 16)
        fun p => elemVal ca.fmt (elemAt ca.fmt bs p)
      else fun _ => .zero
    modAvCtx t av j.c fun c =>
      if c.run ≠ j.run ∨ !c.running then c
      else
        let (m, f) := (List.range rows.length).foldl (fun (a : FMap (BitVec 36) × Fl) i =>
          (List.range r.vecs).foldl (fun (a : FMap (BitVec 36) × Fl) v =>
            let (x, k) := vgaRow cs.fmt (c.accLane r.acc i (r.col + v)) (rows.getD i []) (act v)
            (laneSet a.1 (1024 * r.acc + 32 * i + r.col + v) x, a.2.join k)) a) (c.acc, {})
        { c with acc := m, fpc := c.fpc ||| f.accOnly.fpc }

/-! ## SCAN (R424, R425) -/

/-- The zero test of R353 on an element pattern. -/
def scanZero (code w : Nat) : Bool :=
  match code with
  | 13 => false
  | 12 => w % 4 == 0 || w % 4 == 2
  | _ => match codeFmt code with
    | some f => (if code = 2 then w / 2 ^ 13 else w) % 2 ^ (f.e + f.m) == 0
    | none => w == 0

/-- The checks of a SCAN at issue, BAD_TARGET of either cell first (R194, R424). -/
def scanCheck (b : State) (hs ho : Fin 8) : Except AvTrap (Cell × Nat × Cell) := do
  let x := (icx b).hr hs
  let y := (icx b).hr ho
  let (_, cs) ← avCell b x
  let (i, co) ← avCell b y
  avState x cs (readable cs)
  avState y co (co.st == .opn)
  if 16 ≤ cs.fmt then .error { cause := 0x12, handle := x.toNat }
  .ok (cs, i, co)

/-- Elements of a source, for the charge and the duration (R412, R424). -/
def scanElems (c : Cell) : Nat := (c.rows + 1) * rowElems c

def slotScan (d : Fin 16) (hs ho : Fin 8) (b s : State) : Ares := do
  let (cs, i, _) ← scanCheck b hs ho
  let n := scanElems cs
  let t := countUp (debit s ((n + 255) / 256)) [(s.av / 2, i, handleGen ((icx b).hr ho).toNat)]
  .ok (unitPut t (8 + Nat.max (2 * (((cs.rows + 1) * cs.pitch * 16 + 511) / 512)) ((n + 255) / 256))
    (.inr { sreg := d, src := ((icx b).hr hs).toNat, out := ((icx b).hr ho).toNat }))

/-- A SCAN completes (R424, R425). The cell writes stand even when its context has halted (R399). -/
def scanFinish (s : State) (av : Nat) (j : UnitJob) (r : ScanRun) : State :=
  let cl := av / 2
  let cs := cellOf s cl (handleIx r.src)
  let rows := (List.range (cs.rows + 1)).filter (rowValid cs)
  let t := rows.foldl (fun u i => combDetect u cl (rowOff cs i 0) (cs.pitch * 16)) s
  let oi := handleIx r.out
  match poisonIn t cl cs rows (cs.pitch * 16 * 32) with
  | some i =>
    jobErr (countDown t [(cl, oi, handleGen r.out)]) av j { cause := 0x0C, handle := r.src, row := i }
  | none =>
    let e := rowElems cs
    let idx := rows.flatMap fun i =>
      let bs := combBytes s cl (rowOff cs i 0) (cs.pitch * 16)
      ((List.range e).filter fun k => !scanZero cs.fmt (elemAt cs.fmt bs k)).map fun k => i * e + k
    let co := cellOf t cl oi
    let fit := idx.take ((co.rows + 1) * co.pitch * 16 / 4)
    let bytes := fit.flatMap (leBytes 4)
    let touched := (bytes.length + co.pitch * 16 - 1) / (co.pitch * 16)
    let t := avStore t cl oi (handleGen r.out) [(rowOff co 0 0, bytes)] (BitVec.ofNat 32 (2 ^ touched - 1))
    modAvCtx t av j.c fun c =>
      if c.run ≠ j.run ∨ !c.running then c else { c with s := c.s.set! r.sreg (BitVec.ofNat 32 idx.length) }

/-- The head of the unit completes if it is of the kind and context given and has run its cycles. -/
def unitDone (s : State) (av c : Nat) (vga : Bool) : State :=
  match (avOf s av).unit with
  | [] => s
  | j :: rest =>
    if j.left ≠ 0 ∨ j.c ≠ c then s
    else match j.op, vga with
      | .inl r, true => vgaFinish (modAv s av fun a => { a with unit := rest }) av j r
      | .inr r, false => scanFinish (modAv s av fun a => { a with unit := rest }) av j r
      | _, _ => s

/-- VGA_COMPLETE (R421). -/
def execVgaComplete (av c : Nat) (s : State) : Out := .next (unitDone s av c true)
/-- SCAN_COMPLETE (R424). -/
def execScanComplete (av c : Nat) (s : State) : Out := .next (unitDone s av c false)

/-! ## Row registers (R426, R427) -/

/-- A row register marked poisoned stops a slot that reads it (R413). -/
def wMark (c : AvCtx) (r : Nat) : Except AvTrap Unit := marked (fget c.wp r)

/-- A VEC operation lane by lane; flags as FPC bits. -/
def vecOp (d a x : Fin 16) (readsD : Bool) (lat : Nat) (f : BitVec 36 → BitVec 36 → BitVec 36 → BitVec 36 × BitVec 12)
    (b s : State) : Ares := do
  let c := icx b
  wMark c a
  wMark c x
  if readsD then wMark c d
  let rs := (List.range 32).map fun i => f ((c.wr d).getD i 0) ((c.wr a).getD i 0) ((c.wr x).getD i 0)
  .ok (land s lat (.w d (rs.map Prod.fst) (rs.foldl (fun m r => m ||| r.2) 0)))

/-- An exact FP36 result rounded once; OF and NV (R426). -/
def fp36Out (r : FVal × Fl) : BitVec 36 × BitVec 12 :=
  let (v, k) := rne36 r.1
  (v, (r.2.accOnly.join k).fpc)
/-- An exact INT36 result clamped; ACCSAT (R426). -/
def int36Out (i : Int) : BitVec 36 × BitVec 12 := let (v, k) := clamp36 i; (v, if k then accSat else 0)

def slotWadd (d a x : Fin 16) (int : Bool) (b s : State) : Ares :=
  vecOp d a x false 4 (fun _ p q => if int then int36Out (int36 p + int36 q) else fp36Out (addV .rne (fp36 p) (fp36 q))) b s
def slotWsub (d a x : Fin 16) (int : Bool) (b s : State) : Ares :=
  vecOp d a x false 4
    (fun _ p q => if int then int36Out (int36 p - int36 q) else fp36Out (addV .rne (fp36 p) (fp36 q).neg)) b s
def slotWmul (d a x : Fin 16) (int : Bool) (b s : State) : Ares :=
  vecOp d a x false 4 (fun _ p q => if int then int36Out (int36 p * int36 q) else fp36Out (mulV (fp36 p) (fp36 q))) b s
def slotWfma (d a x : Fin 16) (int : Bool) (b s : State) : Ares :=
  vecOp d a x true 4 (fun o p q =>
    if int then int36Out (int36 o + int36 p * int36 q) else fp36Out (fmaV .rne (fp36 p) (fp36 q) (fp36 o))) b s
/-- The larger or smaller of two FP36 patterns by R319; every NaN is quiet (R260). -/
def fp36MinMax (isMax : Bool) (p q : BitVec 36) : BitVec 36 := BitVec.ofNat 36 (fminmax .fp36 isMax p.toNat q.toNat).1
def slotWmax (d a x : Fin 16) (int : Bool) (b s : State) : Ares :=
  vecOp d a x false 4
    (fun _ p q => if int then int36Out (max (int36 p) (int36 q)) else (fp36MinMax true p q, 0)) b s
def slotWmin (d a x : Fin 16) (int : Bool) (b s : State) : Ares :=
  vecOp d a x false 4
    (fun _ p q => if int then int36Out (min (int36 p) (int36 q)) else (fp36MinMax false p q, 0)) b s

def slotWcvt (d a : Fin 16) (fmt : Fin 32) (mode : Fin 4) (b s : State) : Ares :=
  let c := icx b
  vecOp d a a false 4 (fun _ p _ =>
    match mode with
    | 0 => let (i, k) := toInt c.rm (-i36max) i36max (fp36 p); (BitVec.ofInt 36 i, k.fpc)
    | 1 => let (w, k) := packIeee .fp36 c.rm (ofInt (int36 p)); (BitVec.ofNat 36 w, ({ nx := k.nx } : Fl).fpc)
    | _ => let (w, k) := roundTrip fmt c.rm c.sat p; (w, k.fpc)) b s

/-- Patterns of FP36 that R427 names. -/
def fp36One (neg : Bool) : BitVec 36 := BitVec.ofNat 36 (Fmt.fp36.signed neg (127 * 2 ^ 27))
def fp36Inf (neg : Bool) : BitVec 36 := BitVec.ofNat 36 (Fmt.fp36.signed neg Fmt.fp36.infBits)
def fp36Zero (neg : Bool) : BitVec 36 := BitVec.ofNat 36 (Fmt.fp36.signed neg 0)
def fp36Nan : BitVec 36 := BitVec.ofNat 36 Fmt.fp36.nanBits
/-- |x| at least 2^k. -/
def atLeast (v : FVal) (k : Nat) : Bool :=
  match v with | .num _ m e => decide (cmpV (.num false m e) (.num false 1 k) ≠ some .lt) | _ => false

/-- A special function lane by lane: its special inputs, else the result of R427. -/
def specialSlot (n : Nat) (d a : Fin 16) (f : BitVec 36 → FVal → Option (BitVec 36 × BitVec 12)) (b s : State) : Ares :=
  vecOp d a a false 12 (fun _ p _ =>
    let v := fp36 p
    if v.isNan then (fp36Nan, 0)
    else match f p v with
      | some r => r
      | none => specialOut n p) b s

def nvFpc : BitVec 12 := ({ nv := true } : Fl).fpc

def slotWexp (d a : Fin 16) (b s : State) : Ares :=
  specialSlot 0 d a (fun _ v => match v with | .inf n => some (if n then 0 else fp36Inf false, 0) | _ => none) b s
def slotWlog (d a : Fin 16) (b s : State) : Ares :=
  specialSlot 1 d a (fun _ v => match v with
    | .inf n => some (if n then (fp36Nan, nvFpc) else (fp36Inf false, 0))
    | .num n m _ => if m = 0 then some (fp36Inf true, 0) else if n then some (fp36Nan, nvFpc) else none
    | .nan _ => none) b s
def slotWrcp (d a : Fin 16) (b s : State) : Ares :=
  specialSlot 2 d a (fun _ v => match v with
    | .inf n => some (fp36Zero n, 0)
    | .num n m _ => if m = 0 then some (fp36Inf n, 0) else none
    | .nan _ => none) b s
def slotWrsq (d a : Fin 16) (b s : State) : Ares :=
  specialSlot 3 d a (fun _ v => match v with
    | .inf n => some (if n then (fp36Nan, nvFpc) else (fp36Zero false, 0))
    | .num n m _ => if m = 0 then some (fp36Inf n, 0) else if n then some (fp36Nan, nvFpc) else none
    | .nan _ => none) b s
def slotWtanh (d a : Fin 16) (b s : State) : Ares :=
  specialSlot 4 d a (fun _ v => match v with
    | .inf n => some (fp36One n, 0)
    | .num n _ _ => if atLeast v 4 then some (fp36One n, 0) else none
    | .nan _ => none) b s
def slotWsig (d a : Fin 16) (b s : State) : Ares :=
  specialSlot 5 d a (fun _ v => match v with
    | .inf n => some (if n then 0 else fp36One false, 0)
    | .num n m e =>
      if !n && atLeast v 5 then some (fp36One false, 0)
      else if n && decide (cmpV (.num false m e) (.num false 104 0) ≠ some .lt) then some (0, 0) else none
    | .nan _ => none) b s

/-! ## Reductions (R428) -/

def slotRed (pl : Fin 4) (w : Fin 16) (int : Bool) (lane : Fin 32) (b s : State) : Ares := do
  let c := icx b
  wMark c w
  let old := (c.plr pl).getD lane 0
  let (v, f) := if int then int36Out (int36 old + ((c.wr w).map int36).sum) else fp36Out (sumV (fp36 old :: (c.wr w).map fp36))
  .ok (land s 6 (.pl pl lane v f))

def slotRedmax (pl : Fin 4) (w : Fin 16) (int : Bool) (lane : Fin 32) (b s : State) : Ares := do
  let c := icx b
  wMark c w
  let old := (c.plr pl).getD lane 0
  let v := if int then BitVec.ofInt 36 (((c.wr w).map int36).foldl max (int36 old))
    else (c.wr w).foldl (fp36MinMax true) (fp36MinMax true old old)
  .ok (land s 6 (.pl pl lane v 0))

def slotRedclr (pl : Fin 4) (ninf : Bool) (_b s : State) : Ares :=
  .ok (land s 6 (.plAll pl (if ninf then fp36Inf true else 0)))

/-! ## Moves (R429) -/

def slotMov (w : Fin 16) (pl : Fin 4) (clr : Bool) (b s : State) : Ares :=
  let t := land s 1 (.w w ((icx b).plr pl) 0)
  .ok (if clr then land t 1 (.plAll pl 0) else t)

def slotMova (toAcc : Bool) (acc : Fin 4) (w r : Fin 16) (col : Bool) (b s : State) : Ares := do
  let c := icx b
  let k := (c.sr r).toNat % 32
  let at_ (i : Nat) : Nat := if col then 32 * i + k else 32 * k + i
  if toAcc then
    wMark c w
    .ok (land s 1 (.acc acc ((List.range 32).map fun i => (1024 * acc.val + at_ i, (c.wr w).getD i 0)) 0))
  else .ok (land s 1 (.w w ((List.range 32).map fun i => (fget c.acc (1024 * acc.val + at_ i)).getD 0) 0))

def slotMovs (toS : Bool) (r : Fin 16) (h : Fin 8) (b s : State) : Ares :=
  .ok (if toS then land s 1 (.s r ((icx b).hr h)) else land s 1 (.h h ((icx b).sr r)))

def slotZacc (acc : Fin 4) (_b s : State) : Ares := .ok (land s 1 (.zacc acc))

/-! ## Stores and POST (R430, R431) -/

def storeTgt (fmt : Fin 32) (tk : Fin 4) : Tgt := if tk = 1 then .fp32 else if tk = 2 then .raw else .code fmt

/-- Cycles the STC unit takes for bytes written (R393). -/
def stcCycles (n : Nat) : Nat := 2 * Nat.max 1 ((n + 2047) / 2048)

/-- Rows of lanes stored into a cell from row r0 and byte c on (R430). -/
def storeRows (b s : State) (h v : BitVec 32) (qsBad : Bool) (lanes : List (List (BitVec 36))) (t : Tgt) (int : Bool) :
    Ares := do
  let c := icx b
  let (i, cell) ← avCell b h
  let bits := t.bits
  let conv := lanes.map fun l => l.map fun x => convertLane t c.rm c.sat int x
  let rows := conv.map fun l => packRow bits (l.map Prod.fst)
  let width := (lanes.headD []).length * bits / 8
  let col := offCol v
  if qsBad ∨ col % 16 ≠ 0 ∨ cell.pitch * 16 < col + width ∨ cell.rows + 1 < offRow v + lanes.length then
    .error { cause := 0x18, handle := h.toNat }
  avState h cell (cell.st == .opn)
  let fl := (conv.flatMap fun l => l.map Prod.snd).foldl Fl.join ({} : Fl)
  let lat := stcCycles (rows.length * width)
  let cl := s.av / 2
  let u := countUp s [(cl, i, cell.cgen)]
  let u := modAv u s.av fun a => { a with stcBusy := a.cyc + lat }
  .ok (land u lat (.store cl i cell.cgen
    ((List.range rows.length).map fun k => (rowOff cell (offRow v + k) col, rows.getD k []))
    (BitVec.ofNat 32 ((2 ^ rows.length - 1) * 2 ^ offRow v)) fl.fpc))

def slotStc (acc : Fin 4) (h : Fin 8) (r : Fin 16) (fmt : Fin 32) (tk : Fin 4) (int : Bool) (b s : State) : Ares :=
  let c := icx b
  let v := c.sr r
  let qs := offQs v
  let q := qs - 4
  let n := if qs = 0 then 32 else 16
  let r0 := if qs = 0 then 0 else 16 * (q / 2)
  let c0 := if qs = 0 then 0 else 16 * (q % 2)
  let lanes := (List.range n).map fun i => (List.range n).map fun j => c.accLane acc (r0 + i) (c0 + j)
  storeRows b s (c.hr h) v (!offClean v true || (decide (1 ≤ qs) && decide (qs ≤ 3))) lanes (storeTgt fmt tk) int

def slotStcw (w : Fin 16) (h : Fin 8) (r : Fin 16) (fmt : Fin 32) (tk : Fin 4) (int : Bool) (b s : State) : Ares := do
  let c := icx b
  let v := c.sr r
  let t ← storeRows b s (c.hr h) v (!offClean v false) [c.wr w] (storeTgt fmt tk) int
  wMark c w
  .ok t

/-- A POST takes effect once no counted write is left (R431): STS := CTS, ZERO, its entry. -/
def postSeal (s : State) (cl i : Nat) : State :=
  let c := cellOf s cl i
  match c.apost with
  | none => s
  | some p =>
    if c.counted ≠ 0 ∨ c.st ≠ .opn then s
    else
      let t := modCell s cl i fun c => { c with apost := none }
      match p.tgt with
      | none => sealCell t cl i c.cts [] false
      | some q =>
        sealCell (modTq t (p.queueAv q) (q % 8) fun t => { t with promised := t.promised - 1 }) cl i c.cts
          [(p.queueAv q, q % 8)] false

/-- POST (R431): QUEUE_FULL ranks before the cell's own checks (R194). -/
def slotPost (h : Fin 8) (r : Option (Fin 16)) (b s : State) : Ares := do
  let c := icx b
  let hv := c.hr h
  let cl := s.av / 2
  let tgt : Option Nat := r.map fun k => (c.sr k).toNat % 4096
  match tgt with
  | some t =>
    if fld t 4 8 ≠ cl ∨ !clusterOk (fld t 4 8) then .error { cause := 0x16, handle := hv.toNat }
    if tqRoom s (cl * 2 + fld t 3 1) (fld t 0 3) = 0 then .error { cause := 0x10, tq := fld t 0 3, handle := hv.toNat }
  | none => .ok ()
  let (i, cell) ← avCell b hv
  avState hv cell (cell.st == .opn && cell.apost.isNone && !cell.dlx &&
    decide (cell.refcnt + (if tgt.isSome then 1 else 0) ≤ 4095))
  let u := match tgt with
    | some t => modTq s (cl * 2 + fld t 3 1) (fld t 0 3) fun q => { q with promised := q.promised + 1 }
    | none => s
  let u := modAv u s.av fun a => { a with stcBusy := a.cyc + 1 }
  let u := modCell u cl i fun x =>
    { x with apost := some { tgt := tgt.map fun t => fld t 0 4, av := s.av, c := ic s, run := c.run } }
  .ok (postSeal u cl i)

end Sys2Proof.Machine
end

