-- ==== Sys2Proof/Machine/AnvilRun.lean ====
section
/-!
DEFINITION. How an anvil runs (R177 to R179, R289 to R291, R392 to R412): bundles and their checks, waits and switches,
loop boundaries, faults and ends, starts, and one cycle of an anvil. Each slot's meaning is its issue as a bundle of its
own with NOP padding.
-/

namespace Sys2Proof.Machine

/-! ## What a slot needs (R289, R290, R393, R395) -/

/-- Slots that branch (R289). -/
def isBranch : Instr → Bool
  | .br .. | .brz .. | .brnz .. => true
  | _ => false

/-- Slots that wait (R289). -/
def isWait : Instr → Bool
  | .waitq .. | .waittrg .. | .anvilAdmit .. | .vgwait | .scanwait => true
  | _ => false

/-- Unit a slot occupies and for how long: 0 the load path, 1 the MMA unit, 2 the STC unit (R393). -/
def slotUnit : Instr → Option (Nat × Nat)
  | .ldt .. => some (0, 8)
  | .ldth .. => some (0, 2)
  | .ldts .. => some (0, 4)
  | .ldw .. => some (0, 2)
  | .mma .. => some (1, 4)
  | .mmah .. => some (1, 1)
  | .stc .. | .stcw .. | .post .. => some (2, 1)
  | _ => none

/-- Registers a slot writes with their latency, numbered as AvEff.reg numbers them; lc from 60 (R402), triggers from 68
(R410). -/
def slotWrites : Instr → List (Nat × Nat)
  | .sli d _ | .sadd d .. | .ssub d .. | .sand d .. | .sshl d .. | .fpcr d => [(1, d.val)]
  | .fpcw _ => [(1, 25)]
  | .lgate _ => [(1, 24)]
  | .waitq (some d) _ => [(1, d.val)]
  | .popq h _ f => (1, 16 + h.val) :: (match f with | some r => [(1, r.val)] | none => [])
  | .ldt b n .. => [(8, 26 + (if b then 4 else 0) + n.val)]
  | .ldth b n .. => [(4, 26 + (if b then 4 else 0) + n.val)]
  | .ldts b .. => [(6, if b then 35 else 34)]
  | .ldw w .. => [(4, 36 + w.val)]
  | .mma o => [(12, 56 + o.acc.val)]
  | .mmah o .. => [(6, 56 + o.acc.val)]
  | .wadd d .. | .wsub d .. | .wmul d .. | .wfma d .. | .wmax d .. | .wmin d .. | .wcvt d .. => [(4, 36 + d.val)]
  | .wexp d _ | .wlog d _ | .wrcp d _ | .wrsq d _ | .wtanh d _ | .wsig d _ => [(12, 36 + d.val)]
  | .red p .. | .redmax p .. | .redclr p _ => [(6, 52 + p.val)]
  | .mov w p c => (1, 36 + w.val) :: (if c then [(1, 52 + p.val)] else [])
  | .mova t acc w .. => [(1, if t then 56 + acc.val else 36 + w.val)]
  | .movs t r h => [(1, if t then r.val else 16 + h.val)]
  | .zacc acc => [(1, 56 + acc.val)]
  | .loop l .. => [(1, 60 + l.val)]
  | .trgset t _ => [(1, 68 + t.val)]
  | _ => []

/-- The accumulator an MMA, MOVA, ZACC, STC or VGA names (R395). -/
def slotAcc : Instr → Option Nat
  | .mma o | .mmah o .. => some o.acc.val
  | .mova _ acc .. | .zacc acc | .stc acc .. | .vga acc .. => some acc.val
  | _ => none

/-- VGA and SCAN, and the slots that need a grant (R26). -/
def usesVga : Instr → Bool
  | .vga .. | .scan .. => true
  | _ => false
def needsGrant : Instr → Bool
  | .mma .. | .mmah .. | .vga .. | .scan .. => true
  | _ => false

/-- The charge of a slot, or the check of its own by which a VGA or SCAN fails before one can be formed (R26, R412, R194). -/
def chargeOf (b : State) : Instr → Except AvTrap Nat
  | .mma .. => .ok 16
  | .mmah .. => .ok 4
  | .vga _ hs ha r => (vgaCheck b hs ha r).map fun i => (vgaH b i * i.vecs + 63) / 64
  | .scan _ hs ho => (scanCheck b hs ho).map fun p => (scanElems p.1 + 255) / 256
  | _ => .ok 0

/-- The charge of a slot; none where it cannot be formed. -/
def slotCharge (b : State) (i : Instr) : Nat := match chargeOf b i with | .ok n => n | .error _ => 0

/-- The first slot whose charge cannot be formed, as the fault it reports in place of ADMIT_REQUIRED (R194). -/
def noCharge (b : State) (iss : List (Nat × Slot)) : Option (Nat × Slot × AvTrap) :=
  iss.findSome? fun i => match chargeOf b i.2.op with | .ok _ => none | .error e => some (i.1, i.2, e)

/-- The effect of a slot whose checks of rank 1 and 2 have passed: `b` is the state in which its bundle issues. -/
def slotRun : Instr → State → State → Ares
  | .br t => slotBr t
  | .brz a t => slotBrz a t
  | .brnz a t => slotBrnz a t
  | .loop l st t e => slotLoop l st t e
  | .lstr l k r str => slotLstr l k r str
  | .lext l a => slotLext l a
  | .lgate l => slotLgate l
  | .waitq d mask => slotWaitq d mask
  | .popq h q f => slotPopq h q f
  | .pushq h q => slotPushq h q
  | .trgset t arm => slotTrgset t arm
  | .anvilDone h => slotDone h
  | .sli d i => slotSli d i
  | .sadd d a b => slotSadd d a b
  | .ssub d a b => slotSsub d a b
  | .sand d a b => slotSand d a b
  | .sshl d a sh => slotSshl d a sh
  | .fpcr d => slotFpcr d
  | .fpcw a => slotFpcw a
  | .ldt bt n h s => slotLdt bt n h s
  | .ldth bt n h s half => slotLdth bt n h s half
  | .ldts bt h s => slotLdts bt h s
  | .ldw w h s => slotLdw w h s
  | .mma o => slotMma o
  | .mmah o ha hb => slotMmah o ha hb
  | .vga acc hs ha s => slotVga acc hs ha s
  | .vgwait => slotVgwait
  | .scan d hs ho => slotScan d hs ho
  | .scanwait => slotScanwait
  | .wadd d a b int => slotWadd d a b int
  | .wsub d a b int => slotWsub d a b int
  | .wmul d a b int => slotWmul d a b int
  | .wfma d a b int => slotWfma d a b int
  | .wmax d a b int => slotWmax d a b int
  | .wmin d a b int => slotWmin d a b int
  | .wcvt d a fmt mode => slotWcvt d a fmt mode
  | .wexp d a => slotWexp d a
  | .wlog d a => slotWlog d a
  | .wrcp d a => slotWrcp d a
  | .wrsq d a => slotWrsq d a
  | .wtanh d a => slotWtanh d a
  | .wsig d a => slotWsig d a
  | .red pl w int lane => slotRed pl w int lane
  | .redmax pl w int lane => slotRedmax pl w int lane
  | .redclr pl ninf => slotRedclr pl ninf
  | .stc acc h s fmt tk int => slotStc acc h s fmt tk int
  | .stcw w h s fmt tk int => slotStcw w h s fmt tk int
  | .post h s => slotPost h s
  | .mov w pl clr => slotMov w pl clr
  | .mova toAcc acc w s col => slotMova toAcc acc w s col
  | .movs toS s h => slotMovs toS s h
  | .zacc acc => slotZacc acc
  | _ => fun _ s => .ok s

/-! ## The checks of a bundle (R194, R290, R395) -/

/-- A fault with the slot that meets it (R195): position and unit. -/
structure AvFault where
  trap : AvTrap
  pos : Nat := 0
  unit : Nat := 0
  deriving DecidableEq, Repr, Inhabited

/-- A slot that its gate lets issue, with its position in the bundle. -/
abbrev Issue := Nat × Slot

def faultOf (i : Issue) (e : AvTrap) : AvFault := { trap := e, pos := i.1, unit := i.2.unit }

/-- Cycle up to which a unit is occupied. -/
def unitBusy (a : Anvil) : Nat → Nat
  | 0 => a.ldBusy
  | 1 => a.mmaBusy
  | _ => a.stcBusy

/-- An uncompleted VGA or SCAN of the issuing context (R395). -/
def ownJobs (s : State) : List UnitJob :=
  let a := avOf s s.av
  a.unit.filter fun j => j.c == a.cur && j.run == (avCtx a a.cur).run

/-- The register that a SCAN of the issuing context in flight writes in the next cycle, if it completes then: it needs one
port cycle more, and gets this one unless a load slot occupies the path (R290, R421). -/
def scanLands (b : State) (ld : Bool) : Option Nat :=
  let a := avOf b b.av
  if a.cyc < a.ldBusy ∨ ld then none
  else match a.unit with
    | j :: _ => match j.op with
      | .inr r => if j.c = a.cur ∧ j.run = (icx b).run ∧ j.left ≤ 1 then some r.sreg else none
      | .inl _ => none
    | [] => none

/-- The conditions of R266, R290 and R395 on one slot; `ld` is the load-path occupancy of the slots before it and `ws`
their writes. -/
def rankOne (b : State) (scan : Option Nat) (ld : Nat) (ws : List (Nat × Nat)) (i : Instr) : Bool :=
  let a := avOf b b.av
  let c := icx b
  let busy := match slotUnit i with | some (u, _) => decide (a.cyc < unitBusy a u) | none => false
  let tooLong := match slotUnit i with | some (0, n) => decide (8 < ld + n) | _ => false
  let mine := (slotWrites i).map fun w => (w.1 + (match slotUnit i with | some (0, _) => ld | _ => 0), w.2)
  let inFlight (w : Nat × Nat) : Bool :=
    (w.1 == 1 && scan == some w.2) || c.pend.any fun p => p.run == c.run && p.due == a.cyc + w.1 && p.eff.reg == some w.2
  let clash := mine.any (fun w => ws.contains w || inFlight w) || !mine.Nodup
  let pair := match i with | .mma o => !pairOk c o | .mmah o .. => !pairOk c o | _ => false
  (isBranch i && decide (c.delay ≠ 0)) || busy || tooLong || clash || (usesVga i && !(ownJobs b).isEmpty) || pair ||
    (match slotAcc i with
     | some r => (ownJobs b).any fun j => match j.op with | .inl v => v.acc == r | .inr _ => false
     | none => false)

/-- The first slot that breaks a condition of rank 1. -/
def firstBad (b : State) (scan : Option Nat) : Nat → List (Nat × Nat) → List Issue → Option Issue
  | _, _, [] => none
  | ld, ws, i :: t =>
    if rankOne b scan ld ws i.2.op then some i
    else
      let occ := match slotUnit i.2.op with | some (0, n) => n | _ => 0
      firstBad b scan (ld + occ)
        (ws ++ (slotWrites i.2.op).map fun w => (w.1 + (if occ = 0 then 0 else ld), w.2)) t

/-- Ranks 1 and 2 of R194. -/
def bundleCheck (b : State) (iss : List Issue) : Except AvFault Unit :=
  let load (i : Issue) : Bool := match slotUnit i.2.op with | some (0, _) => true | _ => false
  match firstBad b (scanLands b (iss.any load)) 0 [] iss with
  | some i => .error (faultOf i { cause := 0x11 })
  | none =>
    match iss.find? fun i => needsGrant i.2.op with
    | none => .ok ()
    | some i =>
      let total := (iss.map fun j => slotCharge b j.2.op).sum
      match (icx b).grant with
      | none => .error (faultOf i { cause := 0x0E })
      | some g =>
        if g.left < total then
          match noCharge b iss with
          | some (p, sl, e) => .error (faultOf (p, sl) e)
          | none => .error (faultOf i { cause := 0x0E, handle := g.left })
        else .ok ()

/-- The slots act in order on the state, each checked against the state in which the bundle issues. -/
def runSlots (b : State) : List Issue → State → Except AvFault State
  | [], s => .ok s
  | i :: t, s => match slotRun i.2.op b s with
    | .error e => .error (faultOf i e)
    | .ok s' => runSlots b t s'

/-! ## Ends (R179, R194, R195, R382, R399) -/

/-- A switch that begins at a cycle takes 8 (R178). -/
def switchTo (s : State) (av k start : Nat) : State :=
  modAvCtx (modAv s av fun a => { a with cur := k, switchEnd := start + 8 }) av k fun c => { c with passed := 0 }

/-- A context ends: its reservation and its grant go, and the other context is switched to if it is RUNNING, be it blocked at
a wait: none of R178's conditions names that case (DESIGN CHOICE, log 84). -/
def avEnd (s : State) (av k : Nat) : State :=
  let t := releaseResv s av k
  let t := withdraw (endGrant t (.anvil av k)) (clDie (av / 2)) (.anvil av k)
  let t := modAvCtx t av k fun c => { c with running := false, wait := .none, admitted := false, delay := 0, target := none }
  let a := avOf t av
  if a.cur = k ∧ (avCtx a (1 - k)).running then switchTo t av (1 - k) (a.cyc + 1) else t

/-- A fault (R194, R195): AVFAULT goes to the starting context. -/
def avFault (s : State) (av k : Nat) (f : AvFault) : State :=
  let c := avCtx (avOf s av) k
  let l (i : Nat) : Nat := (c.lc[i]!).toNat
  let e := f.trap
  let w1 := c.pc % 65536 * 2 ^ 48 + e.cause * 2 ^ 40 + k * 2 ^ 39 + f.pos % 8 * 2 ^ 36 + f.unit % 16 * 2 ^ 32
    + e.row % 32 * 2 ^ 27 + e.tq % 8 * 2 ^ 24
  let w2 := l 3 * 2 ^ 48 + l 2 * 2 ^ 32 + l 1 * 2 ^ 16 + l 0
  let w3 := l 5 * 2 ^ 16 + l 4 + e.handle % 2 ^ 32 * 2 ^ 32
  avEnd (unitMsg s (unitSrc 0 av) c.startCls 7 c.starter none (wd w1) (wd w2) (wd w3)) av k

/-- HALT or AVSTOP (R382, R399): AVHALT is owed if the start asked for it. -/
def avHalt (s : State) (av k pc : Nat) (stopped : Bool) : State :=
  let c := avCtx (avOf s av) k
  let n : AvNotice := { c := k, run := c.run, cls := c.startCls, dest := c.starter, pc := pc, s0 := none, stopped := stopped }
  avEnd (if c.notify then modAv s av fun a => { a with notices := a.notices ++ [n] } else s) av k

/-- Nothing of a run is on its way to the comb or to a register. -/
def runDone (s : State) (av : Nat) (n : AvNotice) : Bool :=
  let a := avOf s av
  !((avCtx a n.c).pend.any fun p => p.run == n.run) && !(a.unit.any fun j => j.c == n.c && j.run == n.run) &&
    !((clOf s (av / 2)).cells.any fun p => match p.2.apost with
      | some q => q.av == av && q.c == n.c && q.run == n.run
      | none => false)

/-- The notices whose run is done go out (R179). -/
def sendNotices (s : State) (av : Nat) : State :=
  let ready := (avOf s av).notices.filter (runDone s av)
  ready.foldl (fun t n =>
      let s0 := n.s0.getD ((avCtx (avOf t av) n.c).s[0]!)
      unitMsg t (unitSrc 0 av) n.cls 8 n.dest none (wd n.pc) (wd s0.toNat) (wd (b2n n.stopped)))
    (modAv s av fun a => { a with notices := a.notices.filter fun n => !ready.contains n })

/-! ## Waits (R178, R405, R411, R412, R423, R425) -/

/-- A context reaches a wait point: TQCLASS is seen (R147), a WAITQ gives up the old reservation, an ADMIT ends the old
grant and asks for the new one. -/
def waitReach (s : State) (i : Instr) : State :=
  let av := s.av
  let k := ic s
  let s := modAv s av fun a => if k = 0 then { a with tqSeenA := a.tqclass } else { a with tqSeenB := a.tqclass }
  let wait (w : AvWait) (t : State) : State := modAvCtx t av k fun c => { c with wait := w, admitted := false }
  match i with
  | .waitq _ m => wait (.waitq m.toNat) (releaseResv s av k)
  | .waittrg t => wait (.waittrg t.val) s
  | .vgwait => wait .vgwait s
  | .scanwait => wait .scanwait s
  | .anvilAdmit n lvl =>
    let v := ((icx s).sr n).toNat
    let t := wait .forGrant (endGrant s (.anvil av k))
    if v = 0 then modAvCtx t av k fun c => { c with admitted := true }
    else askGrant t (clDie (av / 2)) (.anvil av k) (icx s).startCls v lvl.val
  | _ => s

/-- A context's wait is satisfied, or it waits for nothing. -/
def waitMet (s : State) (av k : Nat) : Bool :=
  let a := avOf s av
  let c := avCtx a k
  let done (vga : Bool) : Bool :=
    !(a.unit.any fun j => j.c == k && j.run == c.run && (match j.op with | .inl _ => vga | .inr _ => !vga))
  match c.wait with
  | .none => true
  | .waitq m => (chooseQ a k m).isSome
  | .waittrg t => (a.trg[t]!).fired
  | .forGrant => c.admitted
  | .vgwait => done true
  | .scanwait => done false

/-- Class of the queue a satisfied WAITQ would take. -/
def waitClass (s : State) (av k : Nat) : Option Nat :=
  let a := avOf s av
  match (avCtx a k).wait with
  | .waitq m => (chooseQ a k m).map (tqSeen a k)
  | _ => none

/-- The other context could issue. -/
def otherAble (s : State) (av : Nat) : Bool :=
  let a := avOf s av
  let o := avCtx a (1 - a.cur)
  o.running && decide (o.readyAt ≤ a.cyc) && waitMet s av (1 - a.cur)

/-- The other context waits for a queue of a class lower than the issuing one's start class (R178). A switch made for that
reason is not answered by another before a bundle has issued, or neither context ever would (R180, DEDUCED, log 75). -/
def urgent (s : State) (av : Nat) : Bool :=
  let a := avOf s av
  !a.urged && (match waitClass s av (1 - a.cur) with
    | some q => decide (q < (avCtx a a.cur).startCls)
    | none => false)

/-- The switch considered at a wait point of the issuing context (R178). -/
def wantsSwitch (s : State) (av : Nat) : Bool :=
  let a := avOf s av
  otherAble s av && (!waitMet s av a.cur || urgent s av || decide (16 ≤ (avCtx a (1 - a.cur)).passed))

/-- The switch at a wait point. -/
def switchAtWait (s : State) (av : Nat) : State :=
  let a := avOf s av
  modAv (switchTo s av (1 - a.cur) a.cyc) av fun b => { b with urged := waitMet s av a.cur && urgent s av }

/-- ANVIL_CONTEXT_SWITCH (R178). -/
def execAnvilContextSwitch (av : Nat) (s : State) : Out :=
  let a := avOf s av
  .next (if (avCtx a a.cur).running ∧ (avCtx a a.cur).wait ≠ .none ∧ wantsSwitch s av then switchAtWait s av else s)

/-! ## Fetch (R289, R291) -/

/-- A bundle: its slots, or why it cannot issue. -/
inductive Fetched where
  | past | bad (pos unit : Nat) | ok (slots : List Slot)
  deriving DecidableEq, Repr, Inhabited

/-- The first eight words of the bundle at an address, up to STOP: none past the end of instruction memory. -/
def bundleWords (s : State) (av : Nat) : Nat → Nat → Option (List Nat)
  | 0, _ => some []
  | n + 1, pc =>
    if 65536 < pc + 4 then none
    else
      let w := leNat (memRead s.mem (imemKey av pc) 4)
      if bit w 31 then some [w] else (bundleWords s av n (pc + 4)).map (w :: ·)

/-- Slots of each unit that one bundle may hold (R289). -/
def unitLimit : Nat → Nat
  | 0 | 1 | 4 | 7 => 2
  | _ => 1

/-- A bundle is well formed (R289). -/
def bundleOk (ss : List Slot) : Bool :=
  decide (4 ≤ ss.length) && decide (ss.length ≤ 8) && (ss.getLast?.map Slot.stop).getD false &&
    (ss.zip ss.tail).all (fun p => decide (p.1.unit ≤ p.2.unit)) &&
    (List.range 8).all (fun u => decide ((ss.filter fun x => x.unit == u && x.op != .nop).length ≤ unitLimit u)) &&
    decide ((ss.filter fun x => isBranch x.op).length ≤ 1) && decide ((ss.filter fun x => isWait x.op).length ≤ 1) &&
    ss.all (fun x => x.op != .nop || x.gate == 0)

/-- A word of a bundle breaks R289 beside the sound ones before it. -/
def slotBad (ws : List Nat) (k : Nat) : Bool :=
  let older := (ws.take k).filterMap decodeSlot
  match decodeSlot (ws.getD k 0) with
  | none => true
  | some x =>
    (x.stop && decide (k < 3)) || (!x.stop && decide (7 ≤ k)) || older.any (fun y => decide (x.unit < y.unit)) ||
      (x.op != .nop && decide (unitLimit x.unit ≤ (older.filter fun y => y.unit == x.unit && y.op != .nop).length)) ||
      (isBranch x.op && older.any fun y => isBranch y.op) || (isWait x.op && older.any fun y => isWait y.op) ||
      (x.op == .nop && x.gate != 0)

/-- The slot that a bundle which breaks R289 faults at: the first that breaks it, with the unit code of its word (R195; log
82). -/
def badSlot (ws : List Nat) : Nat × Nat :=
  let k := (lowest ws.length (slotBad ws)).getD 0
  (k, fld (ws.getD k 0) 27 4)

/-- Some slot from an address on carries STOP: without one the bundle runs past the end of instruction memory (R289, R291). -/
def stopAhead (s : State) (av pc : Nat) : Bool :=
  (List.range ((65536 - pc) / 4)).any fun i => bit (memGet s.mem (imemKey av (pc + 4 * i + 3))).toNat 7

def fetchBundle (s : State) (av pc : Nat) : Fetched :=
  match bundleWords s av 8 pc with
  | none => .past
  | some ws =>
    let bad : Fetched := if !bit (ws.getLastD 0) 31 && !stopAhead s av pc then .past else .bad (badSlot ws).1 (badSlot ws).2
    match ws.mapM decodeSlot with
    | none => bad
    | some ss => if bundleOk ss then .ok ss else bad

/-! ## Issue (R392, R396, R402) -/

/-- Stride entries of a level applied `k` times (R402). -/
def AvCtx.stride (c : AvCtx) (l : Level) (k : Int) : AvCtx :=
  let es := l.str.toList.filter fun e => decide (e.str ≠ 0)
  let v := es.foldl (fun v e => v.set! e.reg (BitVec.ofInt 32 ((v[e.reg]!).toNat + k * e.str))) c.s
  { c with s := v }

/-- Active levels that end with the bundle at an address, innermost first. -/
def AvCtx.ending (c : AvCtx) (pc : Nat) : List Nat :=
  let ls := (List.range 6).filter fun i => (c.levels[i]!).active && (c.levels[i]!).last == pc
  ls.mergeSort fun i j => decide ((c.levels[j]!).order ≤ (c.levels[i]!).order)

/-- The boundary after the end bundle of the levels listed: until one loops back (R402). -/
def AvCtx.boundary : List Nat → AvCtx → AvCtx
  | [], c => c
  | i :: t, c =>
    let l := c.levels[i]!
    let n := l.i + 1
    if n + 1 < l.trip + l.stages then
      { c.stride l 1 with pc := l.start, lc := c.lc.set! i (BitVec.ofNat 16 n), levels := c.levels.set! i { l with i := n } }
    else AvCtx.boundary t { c.stride l (-(n - 1)) with levels := c.levels.set! i { l with i := n, active := false } }

/-- Control after a bundle at `pc` has issued (R396, R398, R402). -/
def AvCtx.advance (c : AvCtx) (pc : Nat) : AvCtx :=
  let c := (AvCtx.boundary (c.ending pc) c)
  if c.delay = 0 then c
  else if c.delay ≠ 1 then { c with delay := c.delay - 1 }
  else match c.target with
    | none => { c with delay := 0 }
    | some t =>
      let out := c.levels.toList.filter fun l => l.active && !(decide (l.start ≤ t) && decide (t ≤ l.last))
      (out.foldl (fun c l => c.dropLevel l.order) { c with delay := 0, target := none, pc := t })

/-- The slots of a bundle in the order in which they act: a WAITQ has made its reservation when its wait was satisfied, before
any slot acts (R405). -/
def waitFirst (iss : List Issue) : List Issue :=
  let w (i : Issue) : Bool := match i.2.op with | .waitq .. => true | _ => false
  iss.filter w ++ iss.filter (!w ·)

/-- A bundle issues: its slots act together, or it faults with no effect. -/
def issueBundle (s : State) (size : Nat) (iss : List Issue) : State :=
  let av := s.av
  let k := ic s
  let pc := (icx s).pc
  match bundleCheck s iss with
  | .error f => avFault s av k f
  | .ok _ =>
    match runSlots s (waitFirst iss) (modIc s fun c => { c with pc := pc + size, wait := .none, admitted := false }) with
    | .error f => avFault s av k f
    | .ok t =>
      if iss.any fun i => i.2.op == .halt then avHalt t av k pc false
      else modAvCtx t av k fun c => c.advance pc

/-- The handles that a slot names. -/
def slotCells : Instr → List (Fin 8)
  | .pushq h _ | .anvilDone h | .ldt _ _ h _ | .ldth _ _ h _ _ | .ldts _ h _ | .ldw _ h _ | .stc _ h _ _ _ _ | .stcw _ h _ _ _ _
  | .post h _ => [h]
  | .vga _ a b _ | .scan _ a b => [a, b]
  | _ => []

/-- A bundle that names a cell whose deadline has reached the table waits for the seal: it comes after it (R214). -/
def bundleHeld (s : State) (iss : List Issue) : Bool :=
  iss.any fun i => (slotCells i.2.op).any fun h =>
    let v := ((icx s).hr h).toNat
    handleCl v == s.av / 2 && (cellOf s (handleCl v) (handleIx v)).dlx

/-- The issuing context's turn in this cycle (R178, R392). -/
def avIssue (s : State) (av : Nat) : State :=
  let s := { s with av := av }
  let a := avOf s av
  let c := icx s
  if !c.running then
    if (avCtx a (1 - a.cur)).running then switchTo s av (1 - a.cur) a.cyc else s
  else if a.cyc < a.switchEnd ∨ a.cyc < c.readyAt then s
  else match fetchBundle s av c.pc with
    | .past => avFault s av a.cur { trap := { cause := 0x01 } }
    | .bad pos unit => avFault s av a.cur { trap := { cause := 0x11 }, pos := pos, unit := unit }
    | .ok ss =>
      let iss := ((List.range ss.length).zip ss).filter fun i => i.2.op != .nop && c.gateOk i.2.gate
      if bundleHeld s iss then s else
      match iss.find? fun i => isWait i.2.op with
      | none => issueBundle s (4 * ss.length) iss
      | some w =>
        let s := if c.wait = .none then waitReach s w.2.op else s
        if wantsSwitch s av then switchAtWait s av
        else if waitMet s av a.cur then
          let able := otherAble s av
          let s := modAv s av fun a => { a with urged := false }
          issueBundle (modAvCtx s av (1 - a.cur) fun o => { o with passed := if able then o.passed + 1 else 0 })
            (4 * ss.length) iss
        else s

/-! ## Starts (R177, R380) -/

/-- The request taken next: lowest class, oldest. -/
def nextStart (a : Anvil) : Option AvStart :=
  (List.range 4).findSome? fun k => a.startq.find? (·.cls == k)

/-- Registers of a context that starts (R177). -/
def AvCtx.started (c : AvCtx) (r : AvStart) (cyc : Nat) : AvCtx :=
  { running := true, run := c.run + 1, pc := r.pc, startCls := r.cls, notify := r.notify, starter := r.starter,
    readyAt := cyc + 8, s := ((Vector.replicate 16 (0 : BitVec 32)).set! 0 r.s0).set! 1 r.s1,
    pend := c.pend.filter fun p => p.eff.reg.isNone }

/-- A notice that is still owed when its context starts again keeps s0. -/
def AvNotice.keep (n : AvNotice) (v : BitVec 32) : AvNotice := { n with s0 := some (n.s0.getD v) }

/-- A halted context takes a request, A first; none while a copy of AVLOAD has or awaits its moment (R380). -/
def anvilStart (s : State) (av : Nat) : State :=
  let a := avOf s av
  let copy := match a.loads with
    | [] => false
    | l :: _ => l.copying || (!a.a.running && !a.b.running)
  let k := if !a.a.running then some 0 else if !a.b.running then some 1 else none
  match k, nextStart a with
  | some k, some r =>
    if copy then s
    else
      let t := releaseResv s av k
      let s0 := (avCtx a k).s[0]!
      let kept (n : AvNotice) : AvNotice := if n.c = k then n.keep s0 else n
      let now := if (avCtx a a.cur).running then a.cur else k
      let t := modAv t av fun a =>
        { a with startq := a.startq.filter (·.seq != r.seq), notices := a.notices.map kept, cur := now }
      wakeIf (modAvCtx t av k fun c => c.started r a.cyc) (· == .avstart av)
  | _, _ => s

/-- ANVIL_START (R177). -/
def execAnvilStart (av : Nat) (s : State) : Out := .next (anvilStart s av)

/-- An AVLOAD begins to copy when both contexts are halted (R380). -/
def loadBegin (s : State) (av : Nat) : State :=
  let a := avOf s av
  match a.loads with
  | [] => s
  | l :: t =>
    if l.copying || a.a.running || a.b.running then s
    else
      later (modCtx (modAv s av fun a => { a with loads := { l with copying := true } :: t }) l.cxa
        fun c => if c.wait = .avload av false then { c with wait := .avload av true } else c) (.avloadCopyDone l.cxa)

/-! ## A cycle -/

/-- The VGA unit has the anvil's port in the cycles that no load slot uses (R421). -/
def unitStep (a : Anvil) : Anvil :=
  if a.cyc < a.ldBusy then a
  else { a with unit := match a.unit with | [] => [] | j :: t => { j with left := j.left - 1 } :: t }

/-- The POSTs that wait for counted writes (R431). -/
def postSeals (s : State) (av : Nat) : State :=
  let cl := av / 2
  ((clOf s cl).cells.filter fun p => match p.2.apost with | some q => q.av == av | none => false).foldl
    (fun t p => postSeal t cl p.1) s

/-- What completes in this cycle, then starts. -/
def avBefore (s : State) (av : Nat) : State :=
  let t := modAv { s with av := av } av fun a => { a with cyc := a.cyc + 1 }
  let t := landCtx (landCtx t av 0) av 1
  let t := match (avOf t av).unit with
    | j :: _ => unitDone (unitDone t av j.c true) av j.c false
    | [] => t
  let t := fireWrites t av
  anvilStart (anvilStart (loadBegin (sendNotices (postSeals t av) av) av) av) av

/-- One cycle of an anvil. -/
def anvilCycle (s : State) (av : Nat) : State :=
  modAv (avIssue (avBefore s av) av) av fun a => fireTriggers (unitStep a)

/-- An anvil that has something to do. -/
def avBusy (s : State) (av : Nat) : Bool :=
  let a := avOf s av
  a.a.running || a.b.running || !a.a.pend.isEmpty || !a.b.pend.isEmpty || !a.unit.isEmpty || !a.startq.isEmpty ||
    !a.loads.isEmpty || !a.notices.isEmpty || !a.fire.isEmpty || a.trg.toList.any (fun t => t.armed && !t.fired) ||
    ((clOf s (av / 2)).cells.any fun p => match p.2.apost with | some q => q.av == av | none => false)

/-! ## Slots by themselves -/

/-- A slot issues as a bundle of its own (R392): it waits if it is a wait slot whose condition is unmet, and faults as
R194 gives. The pc is the caller's but for LOOP, which may skip its body. -/
def runSlot (i : Instr) (f : State → State → Ares) (s : State) : Out :=
  let av := s.av
  let k := ic s
  let iss : Issue := (3, { stop := true, unit := fld (encodeWord i) 27 4, gate := 0, op := i })
  let s := if isWait i ∧ (icx s).wait = .none then waitReach s i else s
  if isWait i ∧ !waitMet s av k then .next s
  else match bundleCheck s [iss] with
    | .error e => .next (avFault s av k e)
    | .ok _ => match f s (modIc s fun c => { c with wait := .none, admitted := false }) with
      | .error e => .next (avFault s av k (faultOf iss e))
      | .ok t => .next t

/-- HALT (R399). -/
def execHalt (s : State) : Out := .next (avHalt s s.av (ic s) (icx s).pc false)
/-- A slot whose whole effect lies in its wait. -/
def slotNone (_b s : State) : Ares := .ok s

def execNop (s : State) : Out := runSlot .nop slotNone s
def execBr (t : BitVec 14) (s : State) : Out := runSlot (.br t) (slotBr t) s
def execBrz (a : Fin 16) (t : BitVec 14) (s : State) : Out := runSlot (.brz a t) (slotBrz a t) s
def execBrnz (a : Fin 16) (t : BitVec 14) (s : State) : Out := runSlot (.brnz a t) (slotBrnz a t) s
def execLoop (l : Fin 8) (st : Fin 4) (t : Fin 16) (e : BitVec 10) (s : State) : Out := runSlot (.loop l st t e) (slotLoop l st t e) s
def execLstr (l : Fin 8) (k : Fin 4) (r : Fin 16) (str : BitVec 10) (s : State) : Out := runSlot (.lstr l k r str) (slotLstr l k r str) s
def execLext (l : Fin 8) (a : Fin 16) (s : State) : Out := runSlot (.lext l a) (slotLext l a) s
def execLgate (l : Fin 8) (s : State) : Out := runSlot (.lgate l) (slotLgate l) s
def execWaitq (d : Option (Fin 16)) (mask : BitVec 8) (s : State) : Out := runSlot (.waitq d mask) (slotWaitq d mask) s
def execWaittrg (t : Fin 4) (s : State) : Out := runSlot (.waittrg t) slotNone s
def execPopq (h : Fin 8) (q : Option (Fin 8)) (f : Option (Fin 16)) (s : State) : Out := runSlot (.popq h q f) (slotPopq h q f) s
def execPushq (h : Fin 8) (q : Fin 8) (s : State) : Out := runSlot (.pushq h q) (slotPushq h q) s
def execTrgset (t : Fin 4) (arm : Option (Fin 8 × Fin 16 × Fin 16)) (s : State) : Out := runSlot (.trgset t arm) (slotTrgset t arm) s
def execAnvilAdmit (n : Fin 16) (level : Fin 4) (s : State) : Out := runSlot (.anvilAdmit n level) slotNone s
def execAnvilDone (h : Fin 8) (s : State) : Out := runSlot (.anvilDone h) (slotDone h) s
def execSli (d : Fin 16) (i : BitVec 15) (s : State) : Out := runSlot (.sli d i) (slotSli d i) s
def execSadd (d a : Fin 16) (b : Fin 16 ⊕ BitVec 10) (s : State) : Out := runSlot (.sadd d a b) (slotSadd d a b) s
def execSsub (d a : Fin 16) (b : Fin 16 ⊕ BitVec 10) (s : State) : Out := runSlot (.ssub d a b) (slotSsub d a b) s
def execSand (d a : Fin 16) (b : Fin 16 ⊕ BitVec 10) (s : State) : Out := runSlot (.sand d a b) (slotSand d a b) s
def execSshl (d a : Fin 16) (sh : BitVec 6) (s : State) : Out := runSlot (.sshl d a sh) (slotSshl d a sh) s
def execFpcr (d : Fin 16) (s : State) : Out := runSlot (.fpcr d) (slotFpcr d) s
def execFpcw (a : Fin 16) (s : State) : Out := runSlot (.fpcw a) (slotFpcw a) s
def execLdt (bt : Bool) (n : Fin 4) (h : Fin 8) (s : Fin 16) (s₀ : State) : Out := runSlot (.ldt bt n h s) (slotLdt bt n h s) s₀
def execLdth (bt : Bool) (n : Fin 4) (h : Fin 8) (s : Fin 16) (half : Fin 2) (s₀ : State) : Out := runSlot (.ldth bt n h s half) (slotLdth bt n h s half) s₀
def execLdts (bt : Bool) (h : Fin 8) (s : Fin 16) (s₀ : State) : Out := runSlot (.ldts bt h s) (slotLdts bt h s) s₀
def execLdw (w : Fin 16) (h : Fin 8) (s : Fin 16) (s₀ : State) : Out := runSlot (.ldw w h s) (slotLdw w h s) s₀
def execMma (o : MmaOps) (s : State) : Out := runSlot (.mma o) (slotMma o) s
def execMmah (o : MmaOps) (ha hb : Fin 2) (s : State) : Out := runSlot (.mmah o ha hb) (slotMmah o ha hb) s
def execVga (acc : Fin 4) (hs ha : Fin 8) (s : Fin 16) (s₀ : State) : Out := runSlot (.vga acc hs ha s) (slotVga acc hs ha s) s₀
def execVgwait (s : State) : Out := runSlot .vgwait slotVgwait s
def execScan (d : Fin 16) (hs ho : Fin 8) (s : State) : Out := runSlot (.scan d hs ho) (slotScan d hs ho) s
def execScanwait (s : State) : Out := runSlot .scanwait slotScanwait s
def execWadd (d a b : Fin 16) (int : Bool) (s : State) : Out := runSlot (.wadd d a b int) (slotWadd d a b int) s
def execWsub (d a b : Fin 16) (int : Bool) (s : State) : Out := runSlot (.wsub d a b int) (slotWsub d a b int) s
def execWmul (d a b : Fin 16) (int : Bool) (s : State) : Out := runSlot (.wmul d a b int) (slotWmul d a b int) s
def execWfma (d a b : Fin 16) (int : Bool) (s : State) : Out := runSlot (.wfma d a b int) (slotWfma d a b int) s
def execWmax (d a b : Fin 16) (int : Bool) (s : State) : Out := runSlot (.wmax d a b int) (slotWmax d a b int) s
def execWmin (d a b : Fin 16) (int : Bool) (s : State) : Out := runSlot (.wmin d a b int) (slotWmin d a b int) s
def execWcvt (d a : Fin 16) (fmt : Fin 32) (mode : Fin 4) (s : State) : Out := runSlot (.wcvt d a fmt mode) (slotWcvt d a fmt mode) s
def execWexp (d a : Fin 16) (s : State) : Out := runSlot (.wexp d a) (slotWexp d a) s
def execWlog (d a : Fin 16) (s : State) : Out := runSlot (.wlog d a) (slotWlog d a) s
def execWrcp (d a : Fin 16) (s : State) : Out := runSlot (.wrcp d a) (slotWrcp d a) s
def execWrsq (d a : Fin 16) (s : State) : Out := runSlot (.wrsq d a) (slotWrsq d a) s
def execWtanh (d a : Fin 16) (s : State) : Out := runSlot (.wtanh d a) (slotWtanh d a) s
def execWsig (d a : Fin 16) (s : State) : Out := runSlot (.wsig d a) (slotWsig d a) s
def execRed (pl : Fin 4) (w : Fin 16) (int : Bool) (lane : Fin 32) (s : State) : Out := runSlot (.red pl w int lane) (slotRed pl w int lane) s
def execRedmax (pl : Fin 4) (w : Fin 16) (int : Bool) (lane : Fin 32) (s : State) : Out := runSlot (.redmax pl w int lane) (slotRedmax pl w int lane) s
def execRedclr (pl : Fin 4) (ninf : Bool) (s : State) : Out := runSlot (.redclr pl ninf) (slotRedclr pl ninf) s
def execStc (acc : Fin 4) (h : Fin 8) (s : Fin 16) (fmt : Fin 32) (tk : Fin 4) (int : Bool) (s₀ : State) : Out := runSlot (.stc acc h s fmt tk int) (slotStc acc h s fmt tk int) s₀
def execStcw (w : Fin 16) (h : Fin 8) (s : Fin 16) (fmt : Fin 32) (tk : Fin 4) (int : Bool) (s₀ : State) : Out := runSlot (.stcw w h s fmt tk int) (slotStcw w h s fmt tk int) s₀
def execPost (h : Fin 8) (s : Option (Fin 16)) (s₀ : State) : Out := runSlot (.post h s) (slotPost h s) s₀
def execMov (w : Fin 16) (pl : Fin 4) (clr : Bool) (s : State) : Out := runSlot (.mov w pl clr) (slotMov w pl clr) s
def execMova (toAcc : Bool) (acc : Fin 4) (w : Fin 16) (s : Fin 16) (col : Bool) (s₀ : State) : Out := runSlot (.mova toAcc acc w s col) (slotMova toAcc acc w s col) s₀
def execMovs (toS : Bool) (s : Fin 16) (h : Fin 8) (s₀ : State) : Out := runSlot (.movs toS s h) (slotMovs toS s h) s₀
def execZacc (acc : Fin 4) (s : State) : Out := runSlot (.zacc acc) (slotZacc acc) s

end Sys2Proof.Machine
end

