-- ==== Sys2Proof/Machine/Transfer.lean ====
section
/-!
DEFINITION. The transfer engine: the XFER family at issue (R369, R370, R373), the command queues (R146), the movement of
chunks and rows under the command's own clock (R371, R247), completion (R372), faults and restarts (R191 to R193).
-/

namespace Sys2Proof.Machine

/-! ## Commands -/

/-- A comb address in resolved form (R203). -/
def resolved (own va : Nat) : Nat :=
  if va < 2 ^ 48 ∧ isComb va ∧ fld va 36 8 = 0xFF then setFld va 36 8 own else va

/-- An address that is no comb structure (R370). -/
def notComb (own va : Nat) : Bool :=
  decide (2 ^ 48 ≤ va) || !isComb va || (match combAddr own va with | .error _ => true | .ok _ => false)

/-- Fields of a command that make it ill formed, each with the value reported (R369, R370). -/
def teBad (s : State) (own kind w : Nat) : Option Nat :=
  let ctrl := fld w 0 64
  let src := fld w 64 64
  let dst := fld w 128 64
  let len := fld w 192 64
  let index := fld w 256 64
  let compl := fld w 384 64
  let ck := fld ctrl 8 2
  let peer := bit dst 63
  let cell := bit dst 62
  let h := fld dst 0 32
  if fld ctrl 0 2 = 3 ∨ bit ctrl 7 ∨ ctrl / 4096 ≠ 0 then some ctrl
  else if src / 2 ^ 48 ≠ 0 then some src
  else if fld dst 60 2 ≠ 0 ∨ (!peer ∧ fld dst 48 12 ≠ 0) ∨ (peer ∧ (kind = 2 ∨ ck = 2)) ∨
      (ck = 2 ∧ (!cell ∨ h ≠ 0)) ∨ (cell ∧ (fld h 0 8 ≠ 0 ∨ !clusterOk (handleCl h))) ∨
      (peer ∧ !cell ∧ peerCombBad (fld dst 0 48)) then some dst
  else if peer && (match wayTo s (fld dst 48 12) dst with | .error _ => true | .ok _ => false) then some dst
  else if (if kind = 0 then len = 0 ∨ 2 ^ 32 ≤ len
      else fld len 0 16 = 0 ∨ fld len 32 16 = 0 ∨ fld len 16 16 ≠ 0 ∨ fld len 48 16 ≠ 0) then some len
  else if (if kind = 0 then index ≠ 0 else index / 2 ^ 48 ≠ 0) then some index
  else if (if ck = 1 ∨ ck = 2 then notComb own compl else compl != 0) then some compl
  else none

/-- The command of the context in hand, as its TE copies it (R203, R369). -/
def teCmdOf (s : State) (own kind w : Nat) : TeCmd :=
  let ctrl := fld w 0 64
  let dst := fld w 128 64
  let len := fld w 192 64
  let c := cur s
  let cell := bit dst 62
  { id := 0, kind := kind, issuer := nameOf c, asid := c.asid, priv := c.priv, cls := fld ctrl 10 2, scope := fld ctrl 0 2,
    acq := bit ctrl 2, rel := bit ctrl 3, noalloc := bit ctrl 4, prio := fld ctrl 5 2, compl := fld ctrl 8 2,
    src := resolved own (fld w 64 48),
    dst := if cell then fld dst 32 16 else if bit dst 63 then fld dst 0 48 else resolved own (fld dst 0 48),
    dstCell := cell, dstPeer := if bit dst 63 then some (fld dst 48 12) else none, handle := fld dst 0 32,
    len := if kind = 0 then len else fld len 0 16, rows := if kind = 0 then 0 else fld len 32 16,
    index := resolved own (fld w 256 48), stride := fld w 320 32, packpitch := fld w 352 32,
    complAddr := match combAddr own (fld w 384 48) with | .ok (cl, o) => combKey cl o | .error _ => 0,
    tag := wd (fld w 448 64), clock := 0, wmax := 0, running := false, done := 0, written := 0, slot := none,
    charged := 0, grant := none, waitGrant := false, unacked := 0, moved := false, fail := 0, seq := 0 }

/-- The EU that the first 16 MiB of a command cost (R370). -/
def TeCmd.firstEu (m : TeCmd) : Nat := (Nat.min m.amount (2 ^ 24) + 255) / 256

/-- Chunks or rows of a command (R371). -/
def TeCmd.units (m : TeCmd) : Nat := if m.kind = 0 then (m.len + 4095) / 4096 else m.rows

def admitRequired (b : Nat) : Trap := { cause := 0x0E, tval := b }

/-- The checks of R370 in their order. -/
def teCheck (s : State) (kind a : Nat) : Res TeCmd :=
  let own := ownCl (cur s)
  if a % 64 ≠ 0 then .error (misalign a)
  else match combOperand own a 1 with
    | .error e => .error e
    | .ok (cl, o) =>
      let w := combNat s cl o 64
      match teBad s own kind w with
      | some v => .error (badTarget v)
      | none =>
        let m := teCmdOf s own kind w
        if spillBase s cl < o + 64 then .error (protTrap a .read false)
        else match (match m.dstPeer with | some d => portFor s d | none => .ok .here) with
          | .error e => .error e
          | .ok _ =>
            if 2 ^ 20 < m.amount ∧ ((cur s).grant.map Grant.left).getD 0 < m.firstEu then .error (admitRequired m.amount)
            else .ok m

/-- The clock a command starts with, of the context in hand (te_issue of R247). -/
def teClock (c : Ctx) (acq : Bool) : Nat := if acq then Nat.max c.pts (Nat.max c.mts c.mrts) else c.pts

/-- An acquiring command waits for the issuer's earlier stores at its scope (R247, R243). -/
def teAcqWaits (c : Ctx) (m : TeCmd) : Bool :=
  m.acq && (!(sbCovered c (if m.scope = 0 then .clu else if m.scope = 1 then .dev else .sys)).isEmpty ||
    (m.scope == 2 && c.unacked != 0))

/-- A command queued again that still waits for remote accesses of its issuer (R247). -/
def teHeld (s : State) (m : TeCmd) : Bool :=
  s.tags.any fun (t : Nat × TagRec) => t.2.issuer == m.issuer && decide (t.2.seq < m.after) && (match t.2.kind with
    | .te .. => false
    | _ => true)

/-- The queue of a class is full (R146). -/
def teFull (s : State) (cl cls : Nat) : Bool :=
  decide (32 ≤ ((clOf s cl).te.filter fun m => m.cls == cls && !m.running).length)

/-- A command enters the queue of its class. -/
def teEnqueue (s : State) (cl : Nat) (m : TeCmd) : State :=
  let c := cur s
  let k := teClock c m.acq
  let m := { m with clock := k, wmax := Nat.max m.wmax k, running := false, seq := s.seq, after := 0 }
  later (modCl { s with seq := s.seq + 1 } cl fun c => { c with te := c.te ++ [m] }) (.teCommandStart cl)

/-- XFER, XGATHER, XSCATTER at issue (R370, R247). -/
def teIssue (s : State) (kind : Nat) (a : XReg) : Out :=
  let cl := slotCl s.cx
  if sbTouches s (rx s a).toNat 64 then .next (hold s) else
  match teCheck s kind (rx s a).toNat with
  | .error e => .next (takeTrap s e)
  | .ok m =>
    if teAcqWaits (cur s) m then .next (hold s)
    else if teFull s cl m.cls then .next (park s (.te cl m.cls false))
    else
      let id := (clOf s cl).teNext
      let t := modCl s cl fun c => { c with teNext := c.teNext + 1 }
      let t := if m.amount ≤ 2 ^ 20 then t
        else modCur t fun c => { c with grant := c.grant.map fun g => { g with left := g.left - m.firstEu } }
      .next (next (teEnqueue t cl { m with id := id, charged := Nat.min m.amount (2 ^ 24) }))

def execXfer (a : XReg) (s : State) : Out := teIssue s 0 a
def execXgather (a : XReg) (s : State) : Out := teIssue s 1 a
def execXscatter (a : XReg) (s : State) : Out := teIssue s 2 a

/-! ## Ends of commands (R192, R193, R372) -/

/-- XDONE (R372, R245). -/
def teXdone (s : State) (cl : Nat) (m : TeCmd) (status : Nat) : State :=
  unitMsg s (unitSrc 1 cl) m.cls 3 m.issuer (if m.rel then some m.wmax else none) m.tag
    (wd (status + m.done * 2 ^ 32)) (wd m.written)

def teGet (s : State) (cl id : Nat) : Option TeCmd := (clOf s cl).te.find? (·.id == id)
def tePut (s : State) (cl : Nat) (m : TeCmd) : State :=
  modCl s cl fun c => { c with te := c.te.map fun u => if u.id = m.id then m else u }

/-- Chunks are pending: the TE goes on. -/
def teGo (s : State) (cl : Nat) : State := if s.agenda.contains (.teChunk cl) then s else later s (.teChunk cl)

/-- A command leaves the TE: its grant ends, an entry of the queue is free for a parked context. -/
def teLeave (s : State) (cl : Nat) (m : TeCmd) : State :=
  let t := withdraw (endGrant s (.te cl m.id)) (clDie cl) (.te cl m.id)
  let t := modCl t cl fun c => { c with te := c.te.filter (·.id != m.id) }
  let t := wakeIf t fun w => match w with | .te k _ _ => k == cl | _ => false
  teGo (later t (.teCommandStart cl)) cl

/-- A command ends with a status other than 0 (R372). -/
def teFail (s : State) (cl : Nat) (m : TeCmd) (status : Nat) : State := teXdone (teLeave s cl m) cl m status

/-- A command enters the restart table (R191): the entry's index, or none when the table is full. -/
def teRestartPut (s : State) (cl : Nat) (m : TeCmd) (preempted : Bool) : Option (Nat × State) :=
  let tab := (clOf s cl).restarts
  match lowest 128 fun i => ((fget tab i).bind Restart.cmd).isNone with
  | none => none
  | some i =>
    let q := match fget tab i with | none => 0 | some r => (r.seq + 1) % 512
    some (i + q * 128, modCl s cl fun c =>
      { c with restarts := fset c.restarts i { cmd := some { m with running := false, grant := none, waitGrant := false },
                                               seq := q, preempted := preempted } })

/-- A fault of a command's addresses (R192): XLATE is restartable, every other cause ends the command. -/
def teFault (s : State) (cl : Nat) (m : TeCmd) (e : Trap) : State :=
  if e.cause ≠ 0x04 then teFail s cl m e.cause
  else match teRestartPut s cl m false with
    | none => teFail s cl m 0x04
    | some (token, t) =>
      unitMsg (teLeave t cl m) (unitSrc 1 cl) m.cls 4 m.issuer none (wd token)
        (wd (e.tval % 2 ^ 48 + m.asid * 2 ^ 48 + fld e.tval 48 2 * 2 ^ 60 + fld e.tval 50 1 * 2 ^ 62))
        (wd (m.done % 2 ^ 32 + m.cls * 2 ^ 32))

/-- The restart entry a token names for the context in hand (R193, R373). -/
def teToken (s : State) (cl : Nat) (w : Word) : Res (Nat × TeCmd) :=
  let v := w.toNat
  match fget (clOf s cl).restarts (v % 128) with
  | some { cmd := some m, seq := q, preempted := _ } =>
    if v / 65536 ≠ 0 ∨ fld v 7 9 ≠ q ∨ m.issuer ≠ nameOf (cur s) then .error (badTarget v) else .ok (v % 128, m)
  | _ => .error (badTarget v)

/-- A restart entry is freed (R191). -/
def teRestartFree (s : State) (cl i : Nat) : State :=
  modCl s cl fun c => { c with restarts := c.restarts.map fun p => if p.1 = i then (i, { p.2 with cmd := none }) else p }

/-- XRESTART (R193, R373): the command goes back into its class's queue; te_issue runs again. -/
def execXrestart (a : XReg) (s : State) : Out :=
  let cl := slotCl s.cx
  match teToken s cl (rx s a) with
  | .error e => .next (takeTrap s e)
  | .ok (i, m) =>
    if teAcqWaits (cur s) m then .next (hold s)
    else if teFull s cl m.cls then .next (park s (.te cl m.cls true))
    else .next (next (teEnqueue (teRestartFree s cl i) cl m))

/-- XDISCARD (R193): XDONE with status XLATE in place of the completion action. -/
def execXdiscard (a : XReg) (s : State) : Out :=
  let cl := slotCl s.cx
  match teToken s cl (rx s a) with
  | .error e => .next (takeTrap s e)
  | .ok (i, m) => .next (next (teXdone (teRestartFree s cl i) cl m 0x04))

/-! ## Movement (R371, R247) -/

/-- Why a chunk cannot move now: a line waits for the host (R105), or an address faults. -/
abbrev TeStop := Nat ⊕ Trap

/-- A range cut at lines: offsets and lengths. -/
def cuts : Nat → Nat → Nat → Nat → List (Nat × Nat)
  | 0, _, _, _ => []
  | k + 1, a, o, n =>
    if n = 0 then []
    else
      let l := Nat.min n (64 - a % 64)
      (o, l) :: cuts k (a + l) (o + l) (n - l)

/-- One piece of a command's range: comb, or a translated line; the TLBs it fills (R225). -/
def tePiece (s : State) (cl : Nat) (m : TeCmd) (va : Nat) (acc : Acc) (off len : Nat) : Res (Part × Option Xl) := do
  let v := va + off
  if 2 ^ 48 ≤ v then .error (xlateTrap v acc 0)
  else if isComb v then
    let (c, o) ← combAddr cl v
    .ok ({ pa := combKey c o, n := len, at_ := off, key := 0, cls := 0, sys := false }, none)
  else
    let x ← translate s ((clOf s cl).teTlb ++ (dieOf s (clDie cl)).llTlb) m.asid m.priv v acc
    .ok ({ pa := x.pa, n := len, at_ := off, key := x.key, cls := x.cls, sys := x.sys }, some x)

/-- The TE TLB and the last-level TLB after a translation (R225). -/
def teTlbFill (s : State) (cl asid va : Nat) (x : Xl) : State :=
  let e := x.entry asid va
  if (clOf s cl).teTlb.contains e then s
  else
    let t := if (tlbHit (dieOf s (clDie cl)).llTlb asid va).isSome then s else walkFill s asid va
    let t := modCl t cl fun c => { c with teTlb := boundedPut 32 t.fresh (dropPage c.teTlb e) e }
    let t := modDie t (clDie cl) fun d => { d with llTlb := llPut (t.fresh + 1) d.llTlb e }
    { t with fresh := t.fresh + 2 }

/-- The walks of a range that does not translate whole: they read their entries all the same (R219). -/
def teWalkMiss (s : State) (cl : Nat) (m : TeCmd) (va n : Nat) : State :=
  (cuts (n / 64 + 2) va 0 n).foldl (fun t p =>
    let v := va + p.1
    if 2 ^ 48 ≤ v ∨ isComb v ∨ (tlbHit ((clOf t cl).teTlb ++ (dieOf t (clDie cl)).llTlb) m.asid v).isSome then t
    else walkFill t m.asid v) s

/-- Every piece of a range, all translated before any moves. -/
def tePieces (s : State) (cl : Nat) (m : TeCmd) (va n : Nat) (acc : Acc) : State × Except TeStop (List Part) :=
  let tlb := (clOf s cl).teTlb ++ (dieOf s (clDie cl)).llTlb
  match (cuts (n / 64 + 2) va 0 n).findSome? fun p => walkPend s tlb m.asid (va + p.1) with
  | some line => (s, .error (.inl line))
  | none => match (cuts (n / 64 + 2) va 0 n).mapM fun p => tePiece s cl m va acc p.1 p.2 with
  | .error e => (teWalkMiss s cl m va n, .error (.inr e))
  | .ok ps =>
    (ps.foldl (fun t p => match p.2 with | some x => teTlbFill t cl m.asid (va + p.1.at_) x | none => t) s,
     .ok (ps.map Prod.fst))

/-- te_read at a home: rts covers the command's clock, no lease; a NOALLOC miss changes nothing (R219, R247). -/
def teHomeRead (s : State) (m : TeCmd) (noalloc : Bool) (p : Part) : State :=
  match fget s.home p.line with
  | some h =>
    let (h, t) := homeHit s p.line p.key { h with rts := Nat.max h.rts m.clock }
    setHome { t with seq := t.seq + 1 } p.line (if noalloc then h else { h with used := t.seq })
  | none =>
    if noalloc then s
    else
      let (h, t) := homeFor s p.line p.cls p.key m.prio
      setHome t p.line { h with rts := Nat.max h.rts m.clock }

/-- One part is read at its home or bank. -/
def teReadPart (s : State) (m : TeCmd) (va : Nat) (noalloc : Bool) (p : Part) : State × Except TeStop (List Byte) :=
  if p.isComb then
    let t := combDetect s p.combCl p.combOff p.n
    match combLoadOk t (va + p.at_) p.combCl p.combOff p.n with
    | .error e => (t, .error (.inr e))
    | .ok _ => (t, .ok (memRead t.mem p.pa p.n))
  else if biPending s p.line then (s, .error (.inl p.line))
  else
    let t := lineDetect s p.line
    if t.poison.contains p.line then (t, .error (.inr { cause := 0x0C, tval := va + p.at_ }))
    else (teHomeRead t m noalloc p, .ok (readUnder t p.key p.pa p.n))

def teReadParts (m : TeCmd) (va : Nat) (noalloc : Bool) : List Part → State → List Byte → State × Except TeStop (List Byte)
  | [], s, bs => (s, .ok bs)
  | p :: t, s, bs => match teReadPart s m va noalloc p with
    | (u, .error e) => (u, .error e)
    | (u, .ok b) => teReadParts m va noalloc t u (bs ++ b)

/-- A range is read whole. -/
def teRead (s : State) (cl : Nat) (m : TeCmd) (va n : Nat) (noalloc : Bool) : State × Except TeStop (List Byte) :=
  match tePieces s cl m va n .read with
  | (t, .error e) => (t, .error e)
  | (t, .ok ps) => teReadParts m va noalloc ps t []

/-- te_write at a home (R247, R219): its timestamp. -/
def teHomeWrite (s : State) (m : TeCmd) (p : Part) (bs : List Byte) : Nat × State :=
  let had := (fget s.home p.line).isSome
  let (h, t) := homeFor (dropLatent s p.line bs) p.line p.cls p.key m.prio
  let ts := Nat.max m.clock (h.rts + 1)
  let t := setHome (writeUnder t p.key p.pa bs) p.line { h with wts := ts, rts := ts, dirty := true }
  (ts, if m.noalloc && !had then l2Evict t p.line else t)

/-- Why a part cannot be written now. -/
def teWriteStop (s : State) (va : Nat) (p : Part) : Option TeStop :=
  if p.isComb then
    match combStoreOk s (va + p.at_) p.combCl p.combOff p.n with
    | .error e => some (.inr e)
    | .ok _ => none
  else if biBlocks s p.line then some (.inl p.line) else none

/-- A write into an OPEN cell raises its CTS to the command's clock (R246). -/
def raiseCts (s : State) (p : Part) (clock : Nat) : State :=
  match boundTo s p.combCl p.combOff with
  | some (i, _) => modCell s p.combCl i fun c => { c with cts := Nat.max c.cts clock }
  | none => s

/-- One part of a write: its bytes, and the largest timestamp so far (R247). -/
def teWritePart (bs : List Byte) (u : State × TeCmd) (p : Part) : State × TeCmd :=
  let b := (bs.drop p.at_).take p.n
  if p.isComb then (raiseCts (combStore u.1 p.combCl p.combOff b) p u.2.clock, u.2)
  else
    let (ts, v) := teHomeWrite u.1 u.2 p b
    (v, { u.2 with wmax := Nat.max u.2.wmax ts })

/-- A range of memory is written, part by part; wmax covers every timestamp (R247). -/
def teWriteMem (s : State) (cl : Nat) (m : TeCmd) (va : Nat) (bs : List Byte) : State × Except TeStop TeCmd :=
  match tePieces s cl m va bs.length .write with
  | (t, .error e) => (t, .error e)
  | (t, .ok ps) =>
    match ps.findSome? (teWriteStop t va) with
    | some e => (t, .error e)
    | none =>
      let r := ps.foldl (teWritePart bs) (t, m)
      (r.1, .ok r.2)

/-- A cell destination: OPEN, CGEN current, the range within the rows (R371). -/
def teCellStop (s : State) (m : TeCmd) (off n : Nat) : Option Trap :=
  let c := cellOf s (handleCl m.handle) (handleIx m.handle)
  if c.cgen ≠ handleGen m.handle ∨ c.st ≠ .opn then some (cellTrap m.handle c.st)
  else if c.dlx then some (cellTrap m.handle .sealed)
  else if c.extent < off + n then some (misalignCell m.handle off)
  else match inSpill s (handleCl m.handle) (c.base * 512 + off) n .write with
    | .error e => some e
    | .ok _ => none

/-- Bytes go into a cell as CPUT puts them: VALID of every row touched, CTS (R371, R246). -/
def teWriteCell (s : State) (m : TeCmd) (off : Nat) (bs : List Byte) : State :=
  let cl := handleCl m.handle
  let i := handleIx m.handle
  let c := cellOf s cl i
  let a := off / (c.pitch * 16)
  let z := (off + bs.length - 1) / (c.pitch * 16)
  modCell (combStore s cl (c.base * 512 + off) bs) cl i fun c =>
    { c with valid := c.valid ||| BitVec.ofNat 32 (2 ^ (z + 1) - 2 ^ a), cts := Nat.max c.cts m.clock }

/-- Bytes in whole 16-byte units, as a packet carries them: what fills the last unit up is free (R51, log 45). -/
def wholeUnits (fresh : Nat) (bs : List Byte) : List Byte :=
  bs ++ (leBytes 16 ((Config.freeWord fresh).toNat + (Config.freeWord (fresh + 1)).toNat * 2 ^ 64)).take ((16 - bs.length % 16) % 16)

/-- Bytes leave for a peer in packets of up to 224 bytes (R371). -/
def tePackets (cl dev : Nat) (w : Way) : Nat → State → TeCmd → Nat → List Byte → State × TeCmd
  | 0, s, m, _, _ => (s, m)
  | k + 1, s, m, off, bs =>
    if bs.isEmpty then (s, m)
    else
      let addr := if m.dstCell then m.handle * 2 ^ 32 + off else off
      let (_, t) := sendTagged { s with fresh := s.fresh + 2 } w (.te cl m.id) m.issuer (if m.dstCell then 2 else 1) m.cls dev
        (wd addr) (wholeUnits s.fresh (bs.take 224))
      tePackets cl dev w k t { m with unacked := m.unacked + 1 } (off + 224) (bs.drop 224)

/-- Bytes go to a destination offset or address of a command. -/
def teWrite (s : State) (cl : Nat) (m : TeCmd) (at_ : Nat) (bs : List Byte) : State × Except TeStop TeCmd :=
  match m.dstPeer with
  | some d => match portFor s d with
    | .error e => (s, .error (.inr e))
    | .ok w =>
      let (t, u) := tePackets cl d w (bs.length / 224 + 1) s m at_ bs
      (t, .ok u)
  | none => if m.dstCell then (teWriteCell s m at_ bs, .ok m) else teWriteMem s cl m at_ bs

/-- Distance of packed rows (R371). -/
def TeCmd.pack (m : TeCmd) : Nat := if m.packpitch = 0 then m.len else m.packpitch

/-- The destination range of a command whose end is known before its first write (R371). -/
def TeCmd.span (m : TeCmd) : Nat := if m.kind = 0 then m.len else (m.rows - 1) * m.pack + m.len

/-- Source, destination and length of the next chunk or row, given its row index (R371). -/
def TeCmd.unit (m : TeCmd) (i : Nat) : Nat × Nat × Nat :=
  let k := m.done
  if m.kind = 0 then (m.src + 4096 * k, m.dst + 4096 * k, Nat.min 4096 (m.len - 4096 * k))
  else if m.kind = 1 then (m.src + i * m.stride, m.dst + k * m.pack, m.len)
  else (m.src + k * m.pack, m.dst + i * m.stride, m.len)

/-- One chunk or row moves, given its row index. -/
def teMove (s : State) (cl : Nat) (m : TeCmd) (i : Nat) : State × Except TeStop TeCmd :=
  let (src, dst, n) := m.unit i
  let bad := if !m.dstCell || m.dstPeer.isSome then none
    else if m.kind = 2 then teCellStop s m dst n else teCellStop s m m.dst m.span
  match bad with
  | some e => (s, .error (.inr e))
  | none => match teRead s cl m src n m.noalloc with
    | (t, .error e) => (t, .error e)
    | (t, .ok bs) => match teWrite t cl m dst bs with
      | (u, .error e) => (u, .error e)
      | (u, .ok m) => (u, .ok { m with done := m.done + 1, written := m.written + n })

/-- The next chunk or row of a command: its index first, which never allocates (R371). -/
def teUnit (s : State) (cl : Nat) (m : TeCmd) : State × Except TeStop TeCmd :=
  if m.kind = 0 then teMove s cl m 0
  else match teRead s cl m (m.index + 4 * m.done) 4 true with
    | (t, .error e) => (t, .error e)
    | (t, .ok bs) => teMove t cl m (leNat bs)

/-! ## Events -/

/-- A command that names a circular buffer claims the slot at FILLPTR (R176): the claim, a wait, or BARRIER_MISUSE. -/
def teClaim (s : State) (m : TeCmd) : Option (State × TeCmd) :=
  let cl := (m.complAddr - 2 ^ 52) / 2 ^ 22
  let o := m.complAddr % 2 ^ 22
  if m.fail ≠ 0 ∨ !(clOf s cl).cbs.contains o then some (s, { m with fail := 0x0D })
  else
    let w := cbGet s cl o
    let i := cbFill w
    if cbSlot w i ≠ 0 then none
    else
      let w' := setFld (setFld (cbSetSlot w i 1) 56 8 ((i + 1) % cbN w)) 96 9 (cbFreeCnt w - 1)
      some (cbPut s cl o w', { m with slot := some i, handle := cbHandle s cl w i })

/-- One waiting command is considered for a start: at most 16 run at once (R146). -/
def teStart (s : State) (cl id : Nat) : State :=
  match teGet s cl id with
  | none => s
  | some m =>
    if !m.running ∧ m.fail ≠ 0 ∧ m.slot.isNone then teFail s cl m m.fail
    else if m.running ∨ teHeld s m ∨ 16 ≤ ((clOf s cl).te.filter TeCmd.running).length then s
    else
      let go (t : State) (m : TeCmd) : State :=
        let t := tePut t cl { m with running := true }
        wakeIf (if m.done = m.units then later (tePut t cl { m with running := true, moved := true }) (.teCommandComplete cl id)
          else teGo t cl) fun w => match w with | .te k c _ => k == cl && c == m.cls | _ => false
      if m.compl = 2 ∧ m.slot.isNone then
        match teClaim s m with
        | none => s
        | some (t, m) => if m.fail ≠ 0 then teFail t cl m m.fail else go t m
      else go s m

/-- TE_COMMAND_START (R146, R148): waiting commands start, by class and within one in arrival order. -/
def execTeCommandStart (cluster : Nat) (s : State) : Out :=
  let te := (clOf s cluster).te
  let ids := (List.range 4).flatMap fun k => (te.filter (·.cls == k)).map TeCmd.id
  .next (ids.foldl (fun t i => teStart t cluster i) s)

/-- A command with a chunk to move. -/
def TeCmd.pending (m : TeCmd) : Bool := m.running && !m.moved && !m.waitGrant

/-- The class served at a chunk boundary (R146): one that has waited 64 chunks, else the lowest with a pending chunk. -/
def teClass (c : Cluster) : Option Nat :=
  let has (k : Nat) : Bool := c.te.any fun m => m.cls == k && m.pending
  (lowest 4 fun k => has k && decide (64 ≤ c.tePassed.getD k 0)).orElse fun _ => lowest 4 has

/-- The next command of a class in rotation, by number (R146). -/
def teNextOf (c : Cluster) (k : Nat) : Option TeCmd :=
  let l := inOrder TeCmd.id (c.te.filter fun m => m.cls == k && m.pending)
  (l.find? fun m => decide (c.teRot.getD k 0 < m.id)).orElse fun _ => l.head?

/-- Counts of chunks by which the other classes were passed over. -/
def tePass (c : Cluster) (k : Nat) : List Nat :=
  (List.range 4).map fun j =>
    if j = k ∨ !(c.te.any fun m => m.cls == j && m.pending) then 0 else c.tePassed.getD j 0 + 1

/-- The queue of the port that a command's packets leave by is full: the command waits (R56). -/
def peerFull (s : State) (m : TeCmd) : Bool :=
  match m.dstPeer.map (portFor s) with
  | some (.ok w) => w.full s
  | _ => false

/-- TE_CHUNK (R146, R371, R26): one chunk or row of the command whose turn it is. -/
def execTeChunk (cluster : Nat) (s : State) : Out :=
  let c := clOf s cluster
  match (teClass c).bind fun k => (teNextOf c k) with
  | none => .next s
  | some m =>
    let after := if m.kind = 0 then Nat.min m.len (4096 * (m.done + 1)) else m.len * (m.done + 1)
    if m.charged < after then
      let t := tePut (endGrant s (.te cluster m.id)) cluster { m with grant := none, waitGrant := true }
      .next (teGo (askGrant t (clDie cluster) (.te cluster m.id) m.cls ((m.segEu + 3) / 4) 3) cluster)
    else
      if peerFull s m then .next (later (modCl s cluster fun d => { d with teRot := d.teRot.set m.cls m.id }) (.teChunk cluster))
      else match teUnit s cluster m with
      | (t, .error (.inl line)) => .next (biWait t line (.teChunk cluster))
      | (t, .error (.inr e)) => .next (teFault t cluster m e)
      | (t, .ok u) =>
        let t := modCl t cluster fun d => { d with teRot := d.teRot.set m.cls m.id, tePassed := tePass c m.cls }
        if u.done = u.units then .next (teGo (later (tePut t cluster { u with moved := true }) (.teCommandComplete cluster u.id)) cluster)
        else .next (teGo (tePut t cluster u) cluster)

/-- te_done of R174 on a LIVE slot. -/
def teDone (s : State) (cl off b ts : Nat) : State :=
  let w := barGet s cl off
  let w := setFld w 72 24 (Nat.max (barSts w) ts)
  tryComplete (tsCheck (barPut s cl off (barAddPend w (-(b : Int)))) ts) cl off

/-- The claimed slot becomes FILLED, its cell sealed first under SEALF (R176): none while a seal waits for counted
writes; a cause when the cell is not OPEN any more. -/
def teFilled (s : State) (m : TeCmd) (ts : Nat) : Option (Except Nat State) :=
  let cl := (m.complAddr - 2 ^ 52) / 2 ^ 22
  let o := m.complAddr % 2 ^ 22
  let w := cbGet s cl o
  let c := cellOf s (handleCl m.handle) (handleIx m.handle)
  let fill (t : State) : State :=
    let w' := setFld (setFld (cbSetSlot w (m.slot.getD 0) 2) 64 9 (cbFillCnt w + 1)) 160 24 (Nat.max (cbSts w) ts)
    wakeIf (tsCheck (cbPut t cl o w') ts) (· == .cbpop cl o)
  if !cbSealf w then some (.ok (fill s))
  else if c.st ≠ .opn ∨ c.dlx ∨ c.cgen ≠ handleGen m.handle then some (.error 0x09)
  else if c.counted ≠ 0 then none
  else some (.ok (fill (sealCell s (handleCl m.handle) (handleIx m.handle) (Nat.max c.cts ts) [] false)))

/-- TE_COMMAND_COMPLETE (R372, R247). -/
def execTeCommandComplete (cluster cmd : Nat) (s : State) : Out :=
  match teGet s cluster cmd with
  | none => .next s
  | some m =>
    let ts := if m.rel then m.wmax else 0
    if !m.moved || (m.scope == 2 && m.rel && m.unacked != 0) then .next s
    else if m.fail ≠ 0 then .next (teFail s cluster m m.fail)
    else
      let cl := (m.complAddr - 2 ^ 52) / 2 ^ 22
      let o := m.complAddr % 2 ^ 22
      match m.compl with
      | 0 => .next (teXdone (teLeave s cluster m) cluster m 0)
      | 1 =>
        if (clOf s cl).bars.contains o then .next (teDone (teLeave s cluster m) cl o m.amount ts)
        else .next (teFail s cluster m 0x0D)
      | 2 => match teFilled s m ts with
        | none => .next s
        | some (.error k) => .next (teFail s cluster m k)
        | some (.ok t) => .next (teLeave t cluster m)
      | _ => .next (teLeave s cluster m)

/-- The TE commands of a victim enter the restart table in issue order (R196); when it is full they run on. -/
def tePreempt (s : State) (cl name : Nat) : State :=
  let mine := ((clOf s cl).te.filter (·.issuer == name)).mergeSort fun a b => decide (a.seq ≤ b.seq)
  mine.foldl (fun t m => match teRestartPut t cl m true with
    | none => t
    | some (_, u) => teLeave u cl m) s

end Sys2Proof.Machine
end

