-- ==== Sys2Proof/Machine/AnvilControl.lean ====
section
/-!
DEFINITION. The swarm instructions that drive an anvil (R379 to R384): AVLOAD and its copy, AVSTART, AVSTOP, AVPOST,
AVSTAT.
-/

namespace Sys2Proof.Machine

/-- The anvil that bits 11:0 of an operand name; bits above `used` must be zero (R379). -/
def anvilNamed (v used : Nat) : Res Nat :=
  if fld v 0 3 ≠ 0 ∨ !clusterOk (fld v 4 8) ∨ v / 2 ^ used ≠ 0 then .error (badTarget v)
  else .ok (fld v 4 8 * 2 + fld v 3 1)

/-- The command by which an AVLOAD reads its source at home, with the clock of an acquiring command (R247, R380). -/
def avloadCmd (l : AvLoad) : TeCmd :=
  { id := 0, kind := 0, issuer := 0, asid := l.asid, priv := l.priv, cls := 0, scope := 0, acq := true, rel := false,
    noalloc := false, prio := 1, compl := 0, src := l.va, dst := 0, dstCell := false, dstPeer := none, handle := 0,
    len := l.len, rows := 1, index := 0, stride := 0, packpitch := 0, complAddr := 0, tag := 0, clock := l.clock, wmax := 0,
    running := true, done := 0, written := 0, slot := none, charged := 0, grant := none, waitGrant := false, unacked := 0,
    moved := false, fail := 0, seq := 0 }

/-- The first source line as AVLOAD checks it: XLATE, PROT, POISON (R380). -/
def avloadFirst (s : State) (va len : Nat) : Res State :=
  match partAt s s.cx va .read 0 (Nat.min len (64 - va % 64)) with
  | .error e => .error e
  | .ok (p, x) =>
    if p.isComb then
      match combLoadOk s va p.combCl p.combOff 4 with
      | .error e => .error e
      | .ok _ => .ok s
    else
      let t := fillParts s s.cx va [(p, x)]
      let t := lineDetect t p.line
      if t.poison.contains p.line then .error { cause := 0x0C, tval := va } else .ok t

/-- AVLOAD (R380). -/
def execAvload (a b : XReg) (s : State) : Out :=
  let va := (rx s a).toNat
  let v := (rx s b).toNat
  let off := fld v 16 16
  let len := fld v 32 17
  match anvilNamed (v % 4096) 12 with
  | .error _ => .next (takeTrap s (badTarget v))
  | .ok av =>
    if fld v 12 4 ≠ 0 ∨ v / 2 ^ 49 ≠ 0 ∨ len < 4 ∨ 65536 < off + len then .next (takeTrap s (badTarget v))
    else if va % 4 ≠ 0 ∨ off % 4 ≠ 0 ∨ len % 4 ≠ 0 then .next (takeTrap s (misalign va))
    else match avloadFirst s va len with
      | .error e => .next (takeTrap s e)
      | .ok t =>
        if !(cur s).sb.isEmpty then .next (hold s)
        else
          let c := cur s
          let l : AvLoad := { cxa := s.cx, asid := c.asid, priv := c.priv, clock := teClock c true,
                              va := resolved (ownCl c) va, off := off,
                              len := len, copying := false }
          .next (park (modAv t av fun a => { a with loads := a.loads ++ [l] }) (.avload av false))

/-- The copy whose issuer is a context. -/
def copyOf (s : State) (cxa : Nat) : Option (Nat × AvLoad) :=
  s.anvils.findSome? fun p => match p.2.loads with
    | l :: _ => if l.copying && l.cxa == cxa then some (p.1, l) else none
    | [] => none

/-- AVLOAD_COPY_DONE (R380): the code stands in instruction memory and the AVLOAD completes. A line that fails stops the
copy before it writes. -/
def execAvloadCopyDone (cxa : Nat) (s : State) : Out :=
  match copyOf s cxa with
  | none => .next s
  | some (av, l) =>
    let drop (t : State) : State := modAv t av fun a => { a with loads := a.loads.drop 1 }
    let waits (t : State) : Bool := (ctxOf t cxa).wait == .avload av true
    match teRead s (av / 2) (avloadCmd l) l.va l.len false with
    | (t, .error (.inl line)) => .next (biWait t line (.avloadCopyDone cxa))
    | (t, .error (.inr e)) => .next (if waits t then takeTrapAt (drop t) cxa { e with abnd := true } else drop t)
    | (t, .ok bs) =>
      let t := drop { t with mem := memWrite t.mem (imemKey av l.off) bs }
      .next (if waits t then nextAt t cxa else t)

/-- AVSTART (R381, R177). -/
def execAvstart (a b : XReg) (s : State) : Out :=
  let v := (rx s a).toNat
  let x := (rx s b).toNat
  match anvilNamed (v % 4096) 12 with
  | .error _ => .next (takeTrap s (badTarget v))
  | .ok av =>
    if fld v 12 4 ≠ 0 ∨ v / 2 ^ 35 ≠ 0 then .next (takeTrap s (badTarget v))
    else if fld v 16 2 ≠ 0 then .next (takeTrap s (misalign (fld v 16 16)))
    else if 8 ≤ (avOf s av).startq.length then .next (park s (.avstart av))
    else
      let (n, t) := serial s
      let r : AvStart := { pc := fld v 16 16, cls := fld v 32 2, notify := bit v 34, s0 := BitVec.ofNat 32 x,
                           s1 := BitVec.ofNat 32 (x / 2 ^ 32), starter := nameOf (cur s), seq := n }
      .next (next (modAv t av fun a => { a with startq := a.startq ++ [r] }))

/-- AVSTOP (R382). -/
def execAvstop (a : XReg) (s : State) : Out :=
  let v := (rx s a).toNat
  match anvilNamed (v % 4096) 12 with
  | .error _ => .next (takeTrap s (badTarget v))
  | .ok av =>
    if v / 2 ^ 14 ≠ 0 then .next (takeTrap s (badTarget v))
    else
      let name := nameOf (cur s)
      let left := (avOf s av).startq.filter fun r => !(bit v 13) || r.starter != name
      let t := if left.length = (avOf s av).startq.length then s
        else wakeIf (modAv s av fun a => { a with startq := left }) (· == .avstart av)
      let k := fld v 12 1
      let c := avCtx (avOf t av) k
      .next (next (if c.running then avHalt t av k c.pc true else t))

/-- AVPOST (R383, R361). -/
def execAvpost (a b : XReg) (s : State) : Out :=
  let v := (rx s b).toNat
  match handleReg (rx s a) with
  | .error e => .next (takeTrap s e)
  | .ok (cl, i) =>
    if v / 2 ^ 12 ≠ 0 then .next (takeTrap s (badTarget v))
    else match targetOf v with
      | .error e => .next (takeTrap s e)
      | .ok (av, q) => match cellAt s (rx s a).toNat with
        | .error e => .next (takeTrap s { e with abnd := (cur s).parked })
        | .ok c =>
          if c.st ≠ .sealed ∨ 4095 < c.refcnt + 1 then
            .next (takeTrap s { cellTrap (rx s a).toNat c.st with abnd := (cur s).parked })
          else if tqRoom s av q = 0 then .next (park s .seal)
          else
            let t := modCell s cl i fun c => { c with refcnt := c.refcnt + 1 }
            .next (next (tqPut t av q (rx s a).toNat (2 * b2n c.zero)))

/-- AVSTAT (R384). -/
def execAvstat (d a : XReg) (s : State) : Out :=
  let v := (rx s a).toNat
  match anvilNamed (v % 4096) 12 with
  | .error _ => .next (takeTrap s (badTarget v))
  | .ok av =>
    let an := avOf s av
    let blocked (k : Nat) : Bool := (avCtx an k).running && (avCtx an k).wait != .none && !waitMet s av k
    if v / 2 ^ 13 ≠ 0 then .next (takeTrap s (badTarget v))
    else if bit v 12 then
      .next (wbX s d (wd ((List.range 8).foldl (fun w q => w + (an.qs[q]!).es.length * 2 ^ (7 * q)) 0)))
    else
      .next (wbX s d (wd (an.a.pc % 65536 * 2 ^ 48 + an.b.pc % 65536 * 2 ^ 32 + b2n an.a.running * 2 ^ 31 +
        b2n an.b.running * 2 ^ 30 + an.cur * 2 ^ 29 + b2n (blocked 0) * 2 ^ 28 + b2n (blocked 1) * 2 ^ 27 +
        an.startq.length * 2 ^ 23)))

end Sys2Proof.Machine
end

