-- ==== Sys2Proof/Machine/Sched.lean ====
section
/-!
DEFINITION. Hardware scheduling: the launch window and receiver (R110 to R117), launch queues and the scheduler cycle
(R130 to R137), idle notices and forwarded records (R136), SPAWN packets (R139), and the choice and saving of a
pre-emption victim (R140, R196 to R199).
-/

namespace Sys2Proof.Machine

/-! ## Choosing a context (R135, R140) -/

def poolBit (s : State) (n : Nat) : Bool := (coreOf s (slotCore n)).poolEff.getLsbD (n % 16)
def c0Bit (s : State) (n : Nat) : Bool := (coreOf s (slotCore n)).c0resEff.getLsbD (n % 16)

/-- A slot that a GROUP or SPAWN record may use, idle or not. -/
def forRecord (s : State) (r : LRec) (n : Nat) : Bool :=
  match r.form with
  | .group => (groupsOf (ctxOf s n)).contains r.target
  | .spawn => poolBit s n
  | .named => false

/-- Active contexts of a core. -/
def activeIn (s : State) (k : Nat) : Nat := (s.ctxs.filter fun p => slotCore p.1 == k && p.2.active).length

/-- The element with the least rank. -/
def leastBy (l : List Nat) (f : Nat → Nat) : Option Nat :=
  match l with
  | [] => none
  | a :: t => some (t.foldl (fun b x => if f x < f b then x else b) a)

/-- The context a GROUP or SPAWN record starts on in a cluster (R135). -/
def pickCtx (s : State) (cl : Nat) (r : LRec) : Option Nat :=
  let e := ((List.range 128).map (cl * 128 + ·)).filter fun n => forRecord s r n && idle s n
  let free := e.filter fun n => !c0Bit s n
  leastBy (if free.isEmpty && r.cls == 0 then e else free) fun n => activeIn s (slotCore n) * 2 ^ 20 + n

/-- The victim of a class-0 record in a cluster (R140, R198). -/
def pickVictim (s : State) (cl : Nat) (r : LRec) : Option Nat :=
  if !s.ctxsaveEn || r.cls != 0 then none
  else
    let e := (s.ctxs.filter fun p => slotCl p.1 == cl && p.2.active && !p.2.dying && p.2.preempt.isNone &&
      p.2.moving.isNone && p.2.cls != 0 && forRecord s r p.1).map Prod.fst
    let rank (n : Nat) : Nat := ((ctxOf s n).cls * 2 ^ 64 + (ctxOf s n).born) * 2 ^ 16 + n
    leastBy e fun n => 2 ^ 90 - rank n

/-- A victim is chosen: it stops at its next boundary, and the record, which keeps its entry till then, starts on its slot
(R133, R140, R196). -/
def chooseVictim (s : State) (n : Nat) (r : LRec) : State :=
  lqMap (modCtx s n fun c => { c with preempt := some r }) fun q => if q.seq = r.seq then { q with hops := 2 } else q

/-! ## Launch queues (R130, R132, R133) -/

/-- Form and number by which records of one queue keep order (R133). -/
def recKey (r : LRec) : Nat × Nat :=
  match r.form with
  | .named => (0, r.target % 65536)
  | .group => (1, r.target)
  | .spawn => (2, 0)

/-- Source number of a record (R38, R157). -/
def recSrc (r : LRec) : Nat :=
  match r.src with
  | .host => unitSrc 9 0
  | .ctx name _ => name % 32768

/-- A queue with a record more: class-0 records of one mesh cycle stand by source number (R157). -/
def insRec : List LRec → LRec → List LRec
  | [], r => [r]
  | a :: t, r =>
    if r.cls = 0 ∧ a.cls = 0 ∧ a.at_ = r.at_ ∧ recSrc r < recSrc a then r :: a :: t else a :: insRec t r

/-- A record enters the queue of its class, if there is room. -/
def lqPut (s : State) (cl : Nat) (r : LRec) : Option State :=
  if 64 ≤ ((clOf s cl).lq.filter (·.cls == r.cls)).length then none
  else some (modCl { s with seq := s.seq + 1 } cl fun c =>
    { c with lq := insRec c.lq { r with seq := s.seq, passed := 0, hops := 0, at_ := meshCyc s } })

/-- A NAMED record whose generation no longer matches (R114). The name of a migrated or SAVED context still counts (R151,
R200). -/
def staleNamed (s : State) (r : LRec) : Bool :=
  r.form == .named && r.gmatch && (ctxOf s (r.target % 32768)).gen != fld r.target 16 12 && (fwdEntry s r.target).isNone &&
    (savedAs s r.target).isNone && !holds s (r.target % 32768) r.target

/-- The clusters a SPAWN address is owned by, in the order they are tried (R139). -/
def spawnOwners (s : State) (pa : Nat) : List Nat :=
  if 2 ^ 52 ≤ pa then [(pa - 2 ^ 52) / 2 ^ 22]
  else
    let sl := sliceOf s (pa / 64)
    (List.range 3).map fun k => sl / 16 * 64 + sl % 16 + 16 * k

/-- No core of a cluster has a pool (R139). -/
def poolless (s : State) (cl : Nat) : Bool := (List.range 8).all fun k => (coreOf s (cl * 8 + k)).pool == 0

/-- The context that still holds the ACTIVATE or SPAWN of a record (R132). -/
def launchHolder (s : State) (r : LRec) : Option Nat :=
  match r.src with
  | .host => none
  | .ctx name _ => match whereIs s name with
    | none => none
    | some n => match (ctxOf s n).wait with
      | .launch _ q _ => if q.seq = r.seq then some n else none
      | _ => none

/-- The record is accepted: its issuer goes on. -/
def launchDone (s : State) (r : LRec) : State :=
  match launchHolder s r with
  | some n => acceptedAt s n
  | none => s

/-- The record is refused by a full queue: its issuer holds it (R132). -/
def launchRefused (s : State) (cl : Nat) (r : LRec) : State :=
  match launchHolder s r with
  | some n => modCtx s n fun c => { c with wait := .launch cl r true }
  | none => s

/-- LAUNCH_QUEUE_ENTRY (R130, R132): a context's ACTIVATE reaches a cluster. An issuer that has given up sent nothing. -/
def execLaunchQueueEntry (cluster : Nat) (r : LRec) (s : State) : Out :=
  if (launchHolder s r).isNone then .next s
  else if staleNamed s r then .next (launchDiscard (launchDone s r) 0x09 r)
  else match lqPut s cluster r with
    | none => .next (launchRefused s cluster r)
    | some t => .next (launchDone t r)

/-- A SPAWN packet that finds no pool returns to its issuer, or is discarded (R139). -/
def spawnReturn (s : State) (r : LRec) : State :=
  match r.src with
  | .host => launchDiscard s 0x16 r
  | .ctx name _ =>
    let (f, t) := draw (launchDone s r)
    let w0 := wd ((Config.freeWord f).toNat % 2 ^ 28 * 2 ^ 36 + r.cls * 2 ^ 34 + 2 * 2 ^ 30 + 2 ^ 29 + 2 ^ 24 +
      b2n r.tsv * 2 ^ 27 + r.ts % 2 ^ 24)
    sendMsg t name ⟨w0, wd r.pc, r.a0, r.a1, t.devid⟩

/-- The cluster has an eligible context for a SPAWN (R139). -/
def spawnFits (s : State) (cl : Nat) (r : LRec) : Bool := (pickCtx s cl r).isSome

/-- SPAWN_PACKET_ARRIVAL (R139): the clusters are tried in turn; after the last the first keeps the packet. -/
def execSpawnPacketArrival (cluster : Nat) (r : LRec) (s : State) : Out :=
  if (launchHolder s r).isNone then .next s
  else
    let os := spawnOwners s r.target
    if os.all (poolless s) then .next (spawnReturn s r)
    else if spawnFits s cluster r ∨ os.length ≤ r.hops ∨ os.length = 1 then
      match lqPut s cluster r with
      | none => .next (launchRefused s cluster r)
      | some t => .next (launchDone t r)
    else .next (later s (.spawnPacketArrival (os.getD ((r.hops + 1) % os.length) cluster)
      { r with hops := r.hops + 1, via := cluster }))

/-! ## The scheduler cycle (R133) -/

/-- The record could start now. -/
def canStart (s : State) (cl : Nat) (r : LRec) : Bool :=
  match r.form with
  | .named => idle s (r.target % 32768) && !(r.gmatch && (fwdEntry s r.target).isSome)
  | .group => r.hops == 0 && (match fget (clOf s cl).homes r.target with | some h => !h.marks.isEmpty | none => false)
  | .spawn => r.hops == 0 && ((pickCtx s cl r).isSome || (pickVictim s cl r).isSome)

/-- The oldest record of its key and class in a queue. -/
def oldestOf (q : List LRec) (r : LRec) : Bool :=
  !(q.takeWhile (·.seq != r.seq)).any fun p => recKey p == recKey r && p.cls == r.cls

/-- Class-0 records stand by the mesh cycle in which they came, and those of one cycle by source number (R157). -/
def zeroRank (r : LRec) : Nat := r.at_ * 2 ^ 20 + recSrc r

/-- The record the scheduler starts: class 0 first, then aged records, then by class (R133). -/
def schedPick (l : List LRec) : Option LRec :=
  let of (p : LRec → Bool) : Option LRec := (List.range 4).findSome? fun c => l.find? fun r => r.cls == c && p r
  (inOrder zeroRank (l.filter (·.cls == 0))).head?.orElse fun _ => (of fun r => decide (64 ≤ r.passed)).orElse fun _ => of fun _ => true

/-- The next marked cluster after the one chosen last, wrapping round (R136). -/
def nextMark (h : GroupHome) : Option Nat :=
  match h.last with
  | none => h.marks.head?
  | some l => (h.marks.find? fun c => decide (l < c)).orElse fun _ => h.marks.head?

/-- One record starts, is forwarded, or pre-empts. -/
def schedStart (s : State) (cl : Nat) (r : LRec) : State :=
  match r.form with
  | .named => activate (lqDrop s r.seq) (r.target % 32768) r
  | .group =>
    if !(groupOf s r.target).valid then launchDiscard (lqDrop s r.seq) 0x16 r
    else match (fget (clOf s cl).homes r.target).bind fun h => (nextMark h).map fun c => (h, c) with
      | none => s
      | some (h, c) =>
        let t := lqMap s fun q => if q.seq = r.seq then { q with hops := 1 } else q
        let t := modCl t cl fun k => { k with homes := fset k.homes r.target { marks := nrem h.marks c, last := some c } }
        later t (.forwardedRecordArrival c { r with hops := 1, via := cl })
  | .spawn => match pickCtx s cl r with
    | some n => activate (lqDrop s r.seq) n r
    | none => match pickVictim s cl r with
      | some n => chooseVictim s n r
      | none => s

/-- A record that names a migrated context goes to the queue of the cluster where that issues (R151). -/
def forwardNamed (s : State) (cl : Nat) (r : LRec) : State :=
  match (if r.form = .named ∧ r.gmatch then fwdEntry s r.target else none) with
  | none => s
  | some f =>
    if f.moving ∨ slotCl f.here = cl then s else (lqPut (lqDrop s r.seq) (slotCl f.here) r).getD s

/-- A cluster that still has an idle member after a forwarded record says so again (R136). -/
def freshNotice (s : State) (cl g : Nat) : State :=
  if (idleMembers s cl g).isEmpty then s else later s (.idleNotice g cl true)

/-- A forwarded record leaves the scheduler of the cluster it came to. -/
def arrivedDrop (s : State) (cl : Nat) (r : LRec) : State :=
  modCl s cl fun c => { c with arrived := c.arrived.filter (·.seq != r.seq) }

/-- A forwarded record that can start here: a context, or a victim (R136, R140). -/
def arrivedFits (s : State) (cl : Nat) (r : LRec) : Bool := (pickCtx s cl r).isSome || (pickVictim s cl r).isSome

/-- A forwarded record that cannot start returns home (R136). -/
def arrivedBack (s : State) (cl : Nat) (r : LRec) : State :=
  if arrivedFits s cl r then s
  else freshNotice (later (arrivedDrop s cl r) (.returnedRecordArrival { r with via := cl })) cl r.target

/-- A forwarded record starts, or pre-empts (R136, R140). One whose group is not valid when it would start is discarded
(R120). -/
def arrivedStart (s : State) (cl : Nat) (r : LRec) : State :=
  let t := arrivedDrop s cl r
  if !(groupOf s r.target).valid then freshNotice (launchDiscard (lqDrop t r.seq) 0x16 r) cl r.target
  else match pickCtx t cl r with
  | some n => freshNotice (activate (lqDrop t r.seq) n r) cl r.target
  | none => match pickVictim t cl r with
    | some n => chooseVictim t n r
    | none => t

/-- SCHEDULER_START (R133): stale records are discarded and those for migrated contexts go on, then at most one record starts,
among the cluster's own and those forwarded to it, which go first within their class. Forwarding a GROUP record and choosing a
victim count as starts, discarding does not (DESIGN CHOICE, log 73). -/
def execSchedulerStart (cluster : Nat) (s : State) : Out :=
  let t := ((clOf s cluster).lq.filter (staleNamed s)).foldl (fun u r => launchDiscard (lqDrop u r.seq) 0x09 r) s
  let t := (clOf t cluster).lq.foldl (fun u r => forwardNamed u cluster r) t
  let t := (clOf t cluster).arrived.foldl (fun u r => arrivedBack u cluster r) t
  let q := (clOf t cluster).lq
  let a := (clOf t cluster).arrived
  let may := a ++ q.filter fun r => oldestOf q r && canStart t cluster r
  match schedPick may with
  | none => .next t
  | some r =>
    let outrun := ((may.filter fun p => decide (r.cls < p.cls) && (oldestOf a p || !a.any (·.seq == p.seq))).map LRec.seq)
    let pass (p : LRec) : LRec := if outrun.contains p.seq then { p with passed := p.passed + 1 } else p
    let t := modCl t cluster fun c => { c with lq := c.lq.map pass, arrived := c.arrived.map pass }
    .next (if (clOf t cluster).arrived.any (·.seq == r.seq) then arrivedStart t cluster r else schedStart t cluster r)

/-! ## Idle notices and forwarded records (R136) -/

/-- IDLE_NOTICE (R136): the home cluster marks or clears a cluster. -/
def execIdleNotice (group cluster : Nat) (idle : Bool) (s : State) : Out :=
  let home := (groupOf s group).bcluster
  if !clusterOk home then .next s
  else .next (modCl s home fun c =>
    let h := (fget c.homes group).getD { marks := [], last := none }
    let m := if idle then nins h.marks cluster else nrem h.marks cluster
    { c with homes := fset c.homes group { h with marks := m } })

/-- FORWARDED_RECORD_ARRIVAL (R136): the record comes before the scheduler of the cluster its home chose, unless it has left
its queue at home. -/
def execForwardedRecordArrival (cluster : Nat) (r : LRec) (s : State) : Out :=
  if !(s.clusters.any fun (p : Nat × Cluster) => p.2.lq.any (·.seq == r.seq)) then .next s
  else .next (modCl s cluster fun c => { c with arrived := c.arrived ++ [{ r with at_ := meshCyc s }] })

/-- RETURNED_RECORD_ARRIVAL (R136): the home cluster starts the choice again. -/
def execReturnedRecordArrival (r : LRec) (s : State) : Out :=
  .next (lqMap s fun q => if q.seq = r.seq then { q with hops := 0, passed := r.passed } else q)

/-! ## The launch window and receiver (R110 to R117) -/

/-- The fields of a host record (R113). -/
def hostRec (s : State) (bs : List Byte) : LRec :=
  let w (i : Nat) : Nat := leNat ((bs.drop (8 * i)).take 8)
  let h := w 0
  let form := fld h 60 4
  { form := if form = 1 then .group else if form = 2 then .spawn else .named, cls := fld h 58 2, asid := fld h 36 12,
    pc := w 1 % 2 ^ 48, a0 := wd (w 2), a1 := wd (w 3), deadline := if bit h 57 then some (w 4) else none,
    dltrap := bit h 56, gmatch := bit h 55,
    target := if form = 1 then w 5 % 256 else if form = 2 then w 5 % 2 ^ 48 else w 5 % 2 ^ 28,
    tag := wd (w 6), ts := s.hts, tsv := true, src := .host, hdr := wd h, tgtWord := wd (w 5), passed := 0, seq := 0,
    hops := 0 }

/-- The first case of R115 that applies. Bits of PC and TARGET beyond the fields named count as reserved (log 40). -/
def launchBad (s : State) (bs : List Byte) (r : LRec) : Option Nat :=
  let w (i : Nat) : Nat := leNat ((bs.drop (8 * i)).take 8)
  let h := w 0
  let form := fld h 60 4
  let g := groupOf s r.target
  if fld h 48 7 ≠ 0 ∨ fld h 0 36 ≠ 0 ∨ w 7 ≠ 0 ∨ 3 ≤ form ∨ (bit h 57 ∧ fld h 58 2 ≠ 0) ∨ 2 ^ 48 ≤ w 1 ∨ w 5 ≠ r.target then
    some 0x01
  else if r.form = .named ∧ !cxaOk (r.target % 65536) then some 0x16
  else if r.form = .group ∧ !g.valid then some 0x16
  else if r.pc % 4 ≠ 0 ∨ (r.pc = 0 ∧ r.form ≠ .group) then some 0x03
  else if r.form = .group ∧ g.asid ≠ r.asid then some 0x05
  else none

/-- The physical key of a host SPAWN's address (R139): comb window, or the record's space with any present mapping. -/
def hostSpawnKey (s : State) (r : LRec) : Except Nat Nat :=
  if isComb r.target then
    match combAddr 0 r.target with
    | .error _ => .error 0x16
    | .ok (c, o) => .ok (combKey c o)
  else match walk s r.asid r.target with
    | .error _ => .error 0x04
    | .ok (e, l) => .ok (fld e 4 36 * 65536 + r.target % 2 ^ pageBits l)

/-- A record is taken in (R111, R115 to R117, R46). A full buffer is looked at before the form of the record; after a
severity-2 stop a record is dropped uncounted; a record demoted to class 1 keeps its DEADLINE (DESIGN CHOICE, log 71). -/
def launchIn (s : State) (bs : List Byte) : State :=
  let r := hostRec s bs
  if s.devst ≠ .ready then { s with early := sat (s.early + 1) 16 }
  else if s.stopped then s
  else if 1024 ≤ s.launchBuf.length then
    let (f, t) := draw s
    launchDiscard { t with launchDropped := sat (t.launchDropped + 1) 16 } ((Config.freeWord f).toNat % 256) r
  else match launchBad s bs r with
    | some k => launchDiscard { s with launchMalformed := sat (s.launchMalformed + 1) 16 } k r
    | none =>
    match (if r.form = .spawn then walkPend s [] r.asid r.target else none) with
    | some line => biWait s line (.launchWrite 0 bs)
    | none =>
      let key := if r.form = .spawn then hostSpawnKey s r else .ok r.target
      let s := if r.form = .spawn ∧ r.target < 2 ^ 48 ∧ !isComb r.target then walkFill s r.asid r.target else s
      match key with
      | .error k => launchDiscard s k r
      | .ok key =>
        let soon := r.cls == 0 && (match s.lastC0Launch with | some g => decide (s.gtc < g + 100) | none => false)
        let r := { r with target := key, seq := s.seq, cls := if soon then 1 else r.cls }
        let t := { s with seq := s.seq + 1, launchBuf := s.launchBuf ++ [r] }
        let t := if soon then { t with launchDemoted := sat (t.launchDemoted + 1) 16 }
          else if r.cls = 0 then { t with lastC0Launch := some s.gtc } else t
        later t .launchDelivery

/-- Records of 64 bytes, in address order. -/
def launchAll : Nat → State → List Byte → State
  | 0, s, _ => s
  | k + 1, s, bs => if bs.isEmpty then s else launchAll k (launchIn s (bs.take 64)) (bs.drop 64)

/-- LAUNCH_WRITE (R110). A write that runs past the end of the window is discarded whole (DESIGN CHOICE, log 71). -/
def execLaunchWrite (off : Nat) (bytes : List Byte) (s : State) : Out :=
  if hostShut s then .next s
  else if off % 64 ≠ 0 ∨ bytes.length % 64 ≠ 0 ∨ bytes = [] ∨ 2 ^ 20 < off + bytes.length then
    .next { s with launchMalformed := sat (s.launchMalformed + 1) 16 }
  else .next (launchAll (bytes.length / 64) s bytes)

/-- The cluster a host record goes to now. -/
def hostCluster (s : State) (r : LRec) : Option Nat :=
  match r.form with
  | .named => some (slotCl (r.target % 32768))
  | .group => let b := (groupOf s r.target).bcluster; if clusterOk b then some b else none
  | .spawn =>
    let os := spawnOwners s r.target
    if os.all (poolless s) then none else (os.find? fun c => spawnFits s c r).orElse fun _ => os.head?

/-- Deliver the first record of the receiver whose queue has room; records for one cluster and class keep their order
(R111, R114, R132). -/
def deliverFrom (s : State) : List LRec → List (Nat × Nat) → State
  | [], _ => s
  | r :: t, held =>
    let gone (u : State) : State := { u with launchBuf := u.launchBuf.filter (·.seq != r.seq) }
    match hostCluster s r with
    | none => launchDiscard (gone s) 0x16 r
    | some cl =>
      if held.contains (cl, r.cls) then deliverFrom s t held
      else if staleNamed s r then launchDiscard (gone s) 0x09 r
      else match lqPut s cl r with
        | none => deliverFrom s t ((cl, r.cls) :: held)
        | some u => gone u

/-- LAUNCH_DELIVERY (R111). -/
def execLaunchDelivery (s : State) : Out := .next (deliverFrom s s.launchBuf [])

/-! ## The save of a victim (R196 to R199) -/

/-- Steps 1 to 3 of R196 and the pause of R199, in a context that stands at an instruction boundary. -/
def standDown (s : State) (n : Nat) : State :=
  let c := ctxOf s n
  let t := match c.wait with | .combAmo .. => dropDeferred s n | _ => s
  let t := if c.wait.byPreempt then leaveWait t n else t
  pauseOf (withdraw (endGrant t (.ctx n)) (clDie (slotCl n)) (.ctx n)) n

/-- The context stands at a boundary: it waits for nothing, or for what is abandoned or goes on by name (R190, R196). -/
def atBoundary (c : Ctx) : Bool :=
  c.loads.isEmpty && (match c.wait with
    | .none | .faultwait _ | .remoteAmo .. => true
    | w => w.byPreempt)

/-- What the image does not hold (R196). -/
def savedEntry (c : Ctx) : Saved :=
  { cxa := c.nameCxa, gen := c.nameGen, unacked := c.unacked, lost := c.lost, tag := c.tag, born := c.born,
    deadline := c.deadline,
    faultReq := match c.wait with | .faultwait q => some q | _ => none,
    amo := match c.wait with | .remoteAmo _ rd w => some (rd, w) | _ => none,
    devs := c.mailbox.map Msg.dev, ranTrap := c.ranTrap, ranHnd := c.ranHnd }

/-- PREEMPT_SAVE_DONE (R196): once the store buffer has drained the image is written under key slot 0, and the record
starts on the slot. -/
def execPreemptSaveDone (cxa : Nat) (s : State) : Out :=
  let c := ctxOf s cxa
  match c.preempt with
  | none => .next (if c.active ∨ (fget s.saved cxa).isNone then s else idleNotices (resumeSaved s cxa) cxa)
  | some r =>
    if !c.active ∨ c.dying ∨ !atBoundary c ∨ (imagePend s cxa).isSome then .next s
    else
      let cl := slotCl cxa
      let t := tePreempt (standDown s cxa) cl (nameOf c)
      let c := ctxOf t cxa
      if !c.sb.isEmpty then .next t
      else
        let img := imageOf t cxa c.pc (match c.wait with | .remoteAmo .. => true | _ => false)
        let t := writeSpan { t with fresh := t.fresh + 1 } 0 20 (imageAddr t cxa) img
        let t := { t with saved := fset t.saved cxa (savedEntry c) }
        let t := modCl t cl fun k => { k with preempts := sat (k.preempts + 1) 16 }
        let t := modCtx t cxa fun d => { d with active := false, wait := .none, preempt := none, offAfter := false }
        let t := startChosen t cxa r
        .next (if c.offAfter then
          modCore t (slotCore cxa) fun k => { k with off := k.off ||| BitVec.ofNat 16 (2 ^ (cxa % 16)) } else t)

end Sys2Proof.Machine
end

