-- ==== Sys2Proof/Machine/Message.lean ====
section
/-!
DEFINITION. Messages: delivery, spilling and bounces (R163 to R171), the receive instructions and the handler (R168,
R169, R377, R378), SEND, ACTIVATE and SPAWN (R374 to R376, R152), and EXIT (R160).
-/

namespace Sys2Proof.Machine

/-! ## Mailboxes (R166, R168) -/

/-- The place of the message a receive takes: lowest class, then oldest. -/
def selMsg (box : List Msg) : Option Nat := (List.range 4).findSome? fun c => firstIdx (fun m => msgCls m == c) box

/-- The handler is due at the next boundary (R168). A message left in the mailbox counts as an arrival (log 41). -/
def handlerPend (c : Ctx) : Bool :=
  c.mhEn && !c.mhMask && !c.mhInh && c.tl == 0 && c.ranHnd && c.faultDone.isNone && !c.fencing && !c.mailbox.isEmpty

/-- It is entered once every instruction before the boundary has completed its register writes. -/
def handlerDue (c : Ctx) : Bool := c.loads.isEmpty && handlerPend c

/-- MSGDEV after a receive (R163). -/
def devOf (s : State) (m : Msg) : Nat := if msgIsRemote m then m.dev else s.devid

/-- The message a receive takes leaves the mailbox, and the oldest spilled message of the name moves in. -/
def takeMsg (s : State) (n : Nat) : Option (Msg × State) :=
  let c := ctxOf s n
  (selMsg c.mailbox).bind fun i => c.mailbox[i]?.map fun m =>
    let t := modCtx s n fun c => { c with mailbox := c.mailbox.eraseIdx i, msgdev := devOf s m }
    (m, refill t n (nameOf c) 1)

/-- A receive puts a message into a pair of vector registers; the `.acq` forms acquire (R377). -/
def Ctx.received (c : Ctx) (vd : Nat) (acq : Bool) (m : Msg) : Ctx :=
  let c := c.setV (Fin.ofNat 16 vd) (m.w1 ++ m.w0)
  let c := c.setV (Fin.ofNat 16 (vd + 1)) (m.w3 ++ m.w2)
  let c := if acq then c.acquire .dev (if msgTsv m then msgTs m else 0) else c
  c.goto (c.pc + 4)

/-- A receive of slot `n` completes with the message it selects. -/
def receiveAt (s : State) (n vd : Nat) (acq : Bool) : State :=
  match takeMsg s n with
  | none => s
  | some (m, t) => modCtx t n (·.received vd acq m)

/-- A message has entered a mailbox: a parked RECV or WAITMSG completes; a due handler ends the waits it may (R168). -/
def mailWake (s : State) (n : Nat) : State :=
  let c := ctxOf s n
  match c.wait with
  | .recv vd acq => receiveAt s n vd acq
  | .waitmsg => nextAt s n
  | w => if w.byHandler && handlerDue c then leaveWait s n else s

/-- A message enters a mailbox. -/
def mailPut (s : State) (n : Nat) (m : Msg) : State := mailWake (modCtx s n fun c => { c with mailbox := c.mailbox ++ [m] }) n

/-- A message enters a spill area, if it has room (R170). -/
def spillPut (s : State) (cl name : Nat) (m : Msg) : Option State :=
  let k := (clOf s cl).spill.length
  if (clOf s cl).spillSize * 256 ≤ k then none
  else some (modCl { s with seq := s.seq + 1 } cl fun c =>
    { c with spill := c.spill ++ [{ dest := name, msg := m, num := s.seq }], spillPeak := Nat.max c.spillPeak (k + 1) })

/-! ## Delivery (R151, R165, R166, R171) -/

/-- The context that holds the SEND of a message in flight (R171). -/
def sendHolds (s : State) (n dest : Nat) (m : Msg) : Bool := (ctxOf s n).wait == .send dest m false

/-- A message is accepted: its sender goes on. -/
def sent (s : State) : Option Nat → State
  | none => s
  | some n => acceptedAt s n

/-- A message is refused by a full spill area (R171): its sender holds it; a remote one bounces; any other is a dead
letter. -/
def refused (s : State) (cl dest : Nat) (m : Msg) (held : Option Nat) : State :=
  let t := modCl s cl fun c => { c with spillFull := sat (c.spillFull + 1) 16 }
  match held with
  | some n => modCtx t n fun c => { c with wait := .send dest m true }
  | none => bounce t cl dest m 2

/-- A message goes into a spill area, or is refused. -/
def spillOr (s : State) (cl name : Nat) (m : Msg) (held : Option Nat) : State :=
  match spillPut s cl name m with
  | some t => sent t held
  | none => refused s cl name m held

/-- A message that is not kept for a context that is not ACTIVE: a bounce, a KILL (R165, R161). -/
def forActive (m : Msg) : Bool := msgIsBounce m || (msgFromUnit m && msgKind m == 9)

/-- A message for a name reaches the place `n` of the context that may hold it. -/
def deliverAt (s : State) (n name : Nat) (m : Msg) (held : Option Nat) : State :=
  let cl := slotCl n
  let org := name / 128 % 256
  if holds s n name then
    let waits (k : Nat) : Bool := (clOf s k).spill.any (·.dest == name)
    if (ctxOf s n).mailbox.length < 8 ∧ !waits cl ∧ !waits org then mailPut (sent s held) n m
    else spillOr s cl name m held
  else if (savedAs s name).isSome && !forActive m then spillOr s org name m held
  else bounce (sent s held) cl name m 0

/-- A message is delivered to a name (R165, R166, R151). -/
def deliver (s : State) (dest : Nat) (m : Msg) (held : Option Nat) : State :=
  let name := dest % 2 ^ 28
  match fwdEntry s name with
  | some f =>
    let m := { m with w0 := m.w0 ||| wd (2 ^ 26) }
    if f.moving then
      if forActive m then bounce s (name / 128 % 256) name m 0 else spillOr s (name / 128 % 256) name m held
    else deliverAt s f.here name m held
  | none => deliverAt s (name % 32768) name m held

/-- MESSAGE_DELIVERY (R166): a message whose sender has given up the SEND was not sent. -/
def execMessageDelivery (dest : Nat) (msg : Msg) (held : Option Nat) (s : State) : Out :=
  match held with
  | some n => if sendHolds s n dest msg then .next (deliver s dest msg held) else .next s
  | none => .next (deliver s dest msg none)

/-! ## The handler and asynchronous traps (R168, R188) -/

/-- MESSAGE_HANDLER_ENTRY (R168): an asynchronous trap that is due goes first. -/
def execMessageHandlerEntry (cxa : Nat) (s : State) : Out :=
  let c := ctxOf s cxa
  match (selMsg c.mailbox).bind fun i => c.mailbox[i]? with
  | none => .next s
  | some m =>
    if !c.active || c.wait != .none || !handlerDue c || (asyncDue s cxa).isSome then .next s
    else .next (modCtx s cxa fun c =>
      { c with mepc := c.pc, mhInh := true, pc := c.mhvec + wd (0x20 * msgCls m), msgdev := devOf s m, waitSince := none, parked := false })

/-- ASYNC_TRAP (R188). -/
def execAsyncTrap (cxa : Nat) (s : State) : Out :=
  if !(ctxOf s cxa).active then .next s
  else match asyncDue s cxa with
    | none => .next s
    | some (t, c) => .next (takeTrapAt (modCtx s cxa fun _ => c) cxa t)

/-! ## Receive, mask and return (R377, R378) -/

def recv (s : State) (d : Fin 8) (acq : Bool) : Out :=
  if (cur s).mailbox.isEmpty then .next (park s (.recv (2 * d.val) acq)) else .next (receiveAt s s.cx (2 * d.val) acq)

def execRecv (d : Fin 8) (s : State) : Out := recv s d false
def execRecvAcq (d : Fin 8) (s : State) : Out := recv s d true

/-- TRYRECV on an empty mailbox: word 0 all ones, words 1 to 3 zero; `.acq` then acquires with time 0. -/
def tryrecv (s : State) (d : Fin 8) (acq : Bool) : Out :=
  if (cur s).mailbox.isEmpty then
    .next (modCur s fun c =>
      let c := c.setV (Fin.ofNat 16 (2 * d.val)) (BitVec.ofNat 128 (2 ^ 64 - 1))
      let c := c.setV (Fin.ofNat 16 (2 * d.val + 1)) 0
      let c := if acq then c.acquire .dev 0 else c
      c.goto (c.pc + 4))
  else .next (receiveAt s s.cx (2 * d.val) acq)

def execTryrecv (d : Fin 8) (s : State) : Out := tryrecv s d false
def execTryrecvAcq (d : Fin 8) (s : State) : Out := tryrecv s d true

def execWaitmsg (s : State) : Out :=
  if (cur s).mailbox.isEmpty then .next (park s .waitmsg) else .next (next s)

/-- MSGMASK (R378, R169). -/
def execMsgmaskSet (s : State) : Out :=
  .next (next (modCur s fun c => { c with mhMask := true, masked := if c.mhMask then c.masked else 0 }))
def execMsgmaskClr (s : State) : Out := .next (next (modCur s fun c => { c with mhMask := false, masked := 0 }))

/-- MRET (R168, R378). -/
def execMret (s : State) : Out :=
  let c := cur s
  if !c.mhInh ∨ c.tl ≠ 0 then .next (takeTrap s (illegal .mret))
  else .next (modCur s fun c => { c.goto c.mepc with mhInh := false, ranTrap := false, ranHnd := false })

/-- EXIT (R160): the release, then the end of the activation. -/
def execExit (s : State) : Out :=
  match releaseStep s .dev with
  | .done => .next (exitCtx (modCur s (·.released .dev)) s.cx)
  | _ => .next (hold s)

/-! ## SEND (R374, R152, R171) -/

/-- Less than 100 ns have passed since a context's last class-0 send; an image holds 32 bits of its GTC (R152, R197). -/
def tooEarly (s : State) (c : Ctx) : Bool :=
  match c.lastC0 with
  | none => false
  | some g => if c.c0Short then decide ((s.gtc + 2 ^ 32 - g % 2 ^ 32) % 2 ^ 32 < 100) else decide (s.gtc < g + 100)

/-- The class of a send after policing, and what a class-0 send leaves behind once it is accepted (R152): a second one within
100 ns goes as class 1. -/
def police (s : State) (sel : ClsSel) : Nat × Option Pledge :=
  let c := cur s
  let k := match sel with | some f => f.val | none => c.cls
  if k ≠ 0 then (k, none)
  else if tooEarly s c then (1, some { gtc := s.gtc, demoted := true, dl := false })
  else (0, some { gtc := s.gtc, demoted := false, dl := false })

/-- An optional release before the effect of an instruction (R374 to R376). Its clock moves when the send is accepted
(R182). -/
def mayRelease (s : State) (rel : Option Scope) (k : Out) : Out :=
  match rel with
  | none => k
  | some sc => afterRelease s sc k

/-- The timestamp a release form carries: PTS after the release (R245). -/
def carried (s : State) (rel : Option Scope) : Option Nat := rel.map fun sc => ((cur s).released sc).pts

/-- What an accepted send leaves behind, its release among it. -/
def pledgeWith (s : State) (p : Option Pledge) (rel : Option Scope) : Option Pledge :=
  match p, rel with
  | some p, r => some { p with rel := r }
  | none, some sc => some { gtc := s.gtc, demoted := false, dl := false, c0 := false, rel := some sc }
  | none, none => none

/-- A MSG packet arrives at this device's own port (R339, log 29). -/
def msgOut (s : State) (w : Way) (p : Packet) : State :=
  match w with
  | .here => later s (.inMsg 0xFF p)
  | .port q => txPut s q p

/-- The destination operand of SEND: name, device if remote (R374). -/
def sendDest (s : State) (v : Nat) : Res (Nat × Option Nat) :=
  let dev := fld v 28 12
  if v / 2 ^ 41 ≠ 0 ∨ (!bit v 40 ∧ dev ≠ 0) ∨ !cxaOk (v % 65536) then .error (badTarget v)
  else if !bit v 40 then .ok (v % 2 ^ 28, none)
  else match wayTo s dev v with
    | .error e => .error e
    | .ok _ => .ok (v % 2 ^ 28, some dev)

def sendOp (s : State) (d : VReg) (a b : XReg) (c : ClsSel) (rel : Option Scope) : Out :=
  match sendDest s (rx s a).toNat with
  | .error e => .next (takeTrap s e)
  | .ok (name, dev) => match (match dev with | some d => portFor s d | none => .ok .here) with
    | .error e => .next (takeTrap s e)
    | .ok w => if w.full s then .next (hold s) else mayRelease s rel <|
      let (k, p) := police s c
      let t := modCur s fun c => { c with pledge := pledgeWith s p rel }
      let x := rv t d
      let m := mkMsg t (nameOf (cur t)) k 0 (carried t rel) (rx t b) (x.extractLsb' 0 64) (x.extractLsb' 64 64)
      match dev with
      | some d => .next (msgOut (acceptedAt t t.cx) w (msgPacket t d name k m))
      | none => .next (later (park t (.send name m false)) (.messageDelivery name m (some t.cx)))

def execSend (d : VReg) (a b : XReg) (c : ClsSel) (s : State) : Out := sendOp s d a b c none
def execSendRel (d : VReg) (a b : XReg) (c : ClsSel) (sc : Scope) (s : State) : Out := sendOp s d a b c (some sc)

/-! ## ACTIVATE and SPAWN (R375, R376) -/

/-- HEADER and TARGET of a record as R113 lays them out, for a discard record. -/
def recHeader (form cls : Nat) (dlv dltrap gmatch : Bool) (asid : Nat) : Word :=
  wd (form * 2 ^ 60 + cls * 2 ^ 58 + b2n dlv * 2 ^ 57 + b2n dltrap * 2 ^ 56 + b2n gmatch * 2 ^ 55 + asid * 2 ^ 36)

/-- The record of an ACTIVATE or SPAWN of the context in hand (R159). -/
def ctxRec (s : State) (form : LForm) (f k pc target : Nat) (vx : VWord) (dl : Option Nat) (dlt gm : Bool)
    (ts : Option Nat) (tgt : Nat) : LRec :=
  let c := cur s
  { form := form, cls := k, asid := c.asid, pc := pc, a0 := vx.extractLsb' 0 64, a1 := vx.extractLsb' 64 64,
    deadline := dl, dltrap := dlt, gmatch := gm, target := target, tag := wd pc, ts := ts.getD 0, tsv := ts.isSome,
    src := .ctx (nameOf c) s.cx, hdr := recHeader f k dl.isSome dlt gm c.asid, tgtWord := wd tgt, passed := 0,
    seq := s.seq, hops := 0, via := slotCl s.cx }

/-- The checks of ACTIVATE (R375). A PROT of the group's ASID has no TVAL stated (log 20). -/
def activateCheck (s : State) (v pc : Nat) : Res Unit :=
  let named := fld v 62 2 == 0
  let g := groupOf s (v % 256)
  if 2 ≤ fld v 62 2 ∨ (if named then fld v 28 32 ≠ 0 ∨ !cxaOk (v % 65536) else fld v 8 52 ≠ 0 ∨ !g.valid) then
    .error (badTarget v)
  else if pc % 4 ≠ 0 ∨ (pc = 0 ∧ named) then .error (misalign pc)
  else if !named ∧ g.asid ≠ (cur s).asid then .error (openTrap s 0x05)
  else .ok ()

def activateOp (s : State) (d : VReg) (a b : XReg) (c : ClsSel) (rel : Option Scope) : Out :=
  let v := (rx s a).toNat
  let pc := (rx s b).toNat
  match activateCheck s v pc with
  | .error e => trapFree s e
  | .ok _ => mayRelease s rel <|
    let named := fld v 62 2 == 0
    let (k, p) := police s c
    let nx := (cur s).nxtdl
    let dl := if k = 0 ∧ nx ≠ 0 then some nx.toNat else none
    let r := ctxRec s (if named then .named else .group) (if named then 0 else 1) k pc
      (if named then v % 2 ^ 28 else v % 256) (rv s d) dl (bit v 60) (bit v 61) (carried s rel)
      (if named then v % 2 ^ 28 else v % 256)
    let t := modCur { s with seq := s.seq + 1 } fun c =>
      { c with pledge := pledgeWith s (p.map fun q => { q with dl := k = 0 }) rel }
    if named then
      let cl := slotCl (v % 32768)
      .next (later (park t (.launch cl r false)) (.launchQueueEntry cl r))
    else match pickCtx t (slotCl t.cx) r with
      | some n => .next (activate (acceptedAt t t.cx) n r)
      | none =>
        let home := (groupOf t r.target).bcluster
        if !clusterOk home then .next (launchDiscard (acceptedAt t t.cx) 0x16 r)
        else .next (later (park t (.launch home r false)) (.launchQueueEntry home r))

def execActivate (d : VReg) (a b : XReg) (c : ClsSel) (s : State) : Out := activateOp s d a b c none
def execActivateRel (d : VReg) (a b : XReg) (c : ClsSel) (sc : Scope) (s : State) : Out := activateOp s d a b c (some sc)

/-- The physical key of a SPAWN address, with any present mapping (R139, R376). -/
def spawnKey (s : State) (v : Nat) : Res Nat :=
  if 2 ^ 48 ≤ v then .error (xlateTrap v .read 0)
  else if isComb v then (combAddr (ownCl (cur s)) v).map fun p => combKey p.1 p.2
  else match leafFor s (tlbsOf s s.cx) (cur s).asid v with
    | .error r => .error (xlateTrap v .read r)
    | .ok (e, l) => .ok (fld e 4 36 * 65536 + v % 2 ^ pageBits l)

def spawnOp (s : State) (d : VReg) (a b : XReg) (c : ClsSel) (rel : Option Scope) : Out :=
  let v := (rx s a).toNat
  let pc := (rx s b).toNat
  if pc % 4 ≠ 0 ∨ pc = 0 then .next (takeTrap s (misalign pc))
  else match spawnKey s v with
    | .error e => accessTrap s v 1 e
    | .ok key => mayRelease s rel <|
      let (k, p) := police s c
      let r := ctxRec s .spawn 2 k pc key (rv s d) none false false (carried s rel) v
      let t := walkMiss s s.cx v 1
      let t := modCur { t with seq := t.seq + 1 } fun c => { c with pledge := pledgeWith s p rel }
      let cl := (spawnOwners t key).headD 0
      .next (later (park t (.launch cl r false)) (.spawnPacketArrival cl r))

def execSpawn (d : VReg) (a b : XReg) (c : ClsSel) (s : State) : Out := spawnOp s d a b c none
def execSpawnRel (d : VReg) (a b : XReg) (c : ClsSel) (sc : Scope) (s : State) : Out := spawnOp s d a b c (some sc)

end Sys2Proof.Machine
end

