-- ==== Sys2Proof/Machine/Collective.lean ====
section
/-!
DEFINITION. Collectives of the CE (R84 to R92): element arithmetic (R86), the tree and the ring (R87), retained inputs
(R88), what a view change does to an operation (R89 to R91), and completion (R92). The manual gives the contents of a
CE_DATA packet and not its bits; a packet here holds one partial or chunk whole (log 9).
-/

namespace Sys2Proof

/-- The contributor range of R87, and its fields KIND, COUNT and FIRST. -/
def rangeWord (tree : Bool) (first cover : Nat) : Nat := (if tree then 2 ^ 31 else 0) + cover % 2048 * 1024 + first % 1024

def CeData.tree (d : CeData) : Bool := decide (d.range / 2 ^ 31 % 2 = 1)
def CeData.cover (d : CeData) : Nat := d.range / 1024 % 2048
def CeData.first (d : CeData) : Nat := d.range % 1024

/-- Pieces of one partial or chunk. -/
def CeData.sameAs (d e : CeData) : Bool := d.kind == e.kind && d.chunk == e.chunk && d.range == e.range && d.whole == e.whole

/-- Elements that one packet carries: eight bytes each, beside what names them (R51; DESIGN CHOICE, log 9). -/
def cePer : Nat := 16

/-- The pieces in which data travels, one packet each, in order (R51). -/
def CeData.cut : Nat → CeData → List CeData
  | 0, d => [d]
  | k + 1, d =>
    if d.elems.length ≤ cePer then [d]
    else { d with elems := d.elems.take cePer } :: CeData.cut k { d with at_ := d.at_ + cePer, elems := d.elems.drop cePer }

end Sys2Proof

namespace Sys2Proof.Machine

/-! ## CE packets (R76) -/

/-- A CE packet sets out for a device; with no live route it is lost (R56). It enters a queue that is full (DESIGN CHOICE,
log 9). -/
def ceSend (s : State) (dev kind cls vid : Nat) (b : CeBody) : State :=
  let p : Packet := { kind := kind, cls := cls, hops := 0, dest := dev, source := s.devid, tag := 0, addr := 0, data := [],
                      resv := false, ce := some (⟨vid, s.devid, s.incarnation⟩, b) }
  match routeOf s dev with
  | some (some q) => txPut s q p
  | _ => s

/-- CE control packets travel in class 0 (R49). -/
def ceCtl (s : State) (n dev : Nat) (b : CeBody) : State := ceSend s dev 0x10 0 (viewOf s n).vid b

/-! ## Operations in hand -/

def ceGet (s : State) (id : Nat) : Option CeOp := s.ceOps.find? (·.id == id)
def cePut (s : State) (o : CeOp) : State := { s with ceOps := s.ceOps.map fun p => if p.id = o.id then o else p }

/-- The members that the algorithm runs over, and own rank among them. -/
def CeOp.n (o : CeOp) : Nat := o.live.length
def rankIn (l : List Nat) (dev : Nat) : Nat := l.idxOf dev

/-- Bytes of an element: FP32, BF16, FP16, FP64, INT32, INT64 (R84). -/
def esize (ety : Nat) : Nat := if ety = 1 ∨ ety = 2 then 2 else if ety = 3 ∨ ety = 5 then 8 else 4

/-- A tree serves small operations and every BARRIER (R87). -/
def CeOp.tree (o : CeOp) : Bool := o.op == 4 || decide (o.count * esize o.ety < 65536)

/-! ## Arithmetic (R86) -/

/-- The format in which partial sums travel. -/
def ceFmt (ety : Nat) : Fmt := if ety = 3 then .f64 else .f32

/-- An element of INPUT as it enters a sum. -/
def ceIn (ety w : Nat) : Nat :=
  if ety = 1 then (fcvtBits .rne false .f32 (unpack .bf16 w)).1
  else if ety = 2 then (fcvtBits .rne false .f32 (unpack .fp16 w)).1
  else w

/-- A final value as it is written; a NaN is canonical. -/
def ceOut (ety w : Nat) : Nat :=
  if ety = 1 then (fcvtBits .rne false .bf16 (unpack .f32 w)).1
  else if ety = 2 then (fcvtBits .rne false .fp16 (unpack .f32 w)).1
  else if ety < 4 ∧ (unpack (ceFmt ety) w).isNan then (ceFmt ety).nanBits
  else w

/-- One addition, or one MAX or MIN: canonical NaN if either is a NaN. -/
def ceAdd (redop ety a b : Nat) : Nat :=
  let bits := 8 * esize ety
  if 4 ≤ ety then
    if redop < 2 then (a + b) % 2 ^ bits
    else if decide (sint a bits ≤ sint b bits) == (redop == 2) then b else a
  else
    let f := ceFmt ety
    if redop < 2 then (farith f .rne .add a b).1
    else if (unpack f a).isNan || (unpack f b).isNan then f.nanBits
    else (fminmax f (redop == 2) a b).1

/-- The division of MEAN. -/
def ceMean (ety n w : Nat) : Nat :=
  if 4 ≤ ety then wrapN (8 * esize ety) ((sint w (8 * esize ety)).tdiv n)
  else (farith (ceFmt ety) .rne .div w (packIeee (ceFmt ety) .rne (ofInt n)).1).1

/-- How two contributions of one operation combine: a reduction, or disjoint placement for ALLGATHER and BROADCAST. -/
def CeOp.comb (o : CeOp) (a b : List Word) : List Word :=
  if o.op < 2 then List.zipWith (fun x y => wd (ceAdd o.redop o.ety x.toNat y.toNat)) a b
  else List.zipWith (fun x y => x ||| y) a b

/-! ## Chunks (R87) -/

/-- First element and length of chunk `c` of `count` elements over `n` members. -/
def chunkAt (count n c : Nat) : Nat × Nat :=
  let q := count / n
  (c * q + Nat.min c (count % n), q + if c < count % n then 1 else 0)

def chunkOf (v : List Word) (count n c : Nat) : List Word :=
  let (a, k) := chunkAt count n c
  (v.drop a).take k

/-- What a member puts into the tree: its elements where they stand in the whole. -/
def CeOp.place (o : CeOp) (dev : Nat) : List Word :=
  let r := rankIn o.live dev
  match o.op with
  | 2 => List.replicate (r * o.count) 0 ++ o.inp ++ List.replicate ((o.n - 1 - r) * o.count) 0
  | 3 => if o.root = dev then o.inp else List.replicate o.count 0
  | 4 => []
  | _ => o.inp

/-! ## Steps -/

/-- A packet of an operation. -/
def CeOp.data (o : CeOp) (kind : CeKind) (chunk : Nat) (tree : Bool) (first cover : Nat) (es : List Word) : CeData :=
  { kind := kind, tag := o.tag, op := o.op, redop := o.redop, ety := o.ety, count := o.count, vid0 := o.vid0, chunk := chunk,
    range := rangeWord tree first cover, at_ := 0, whole := es.length, elems := es }

/-- The command by which the CE reads and writes the issuer's memory at home (R248). -/
def ceCmd (o : CeOp) : TeCmd :=
  { id := 0, kind := 0, issuer := 0, asid := o.asid, priv := o.priv, cls := 0, scope := 0, acq := false, rel := false,
    noalloc := false, prio := 1, compl := 0, src := 0, dst := 0, dstCell := false, dstPeer := none, handle := 0,
    len := 0, rows := 0, index := 0, stride := 0, packpitch := 0, complAddr := 0, tag := 0, clock := o.clock,
    wmax := o.clock, running := true, done := 0, written := 0, slot := none, charged := 0, grant := none,
    waitGrant := false, unacked := 0, moved := false, fail := 0, seq := 0 }

def splitElems (n : Nat) : Nat → List Byte → List Word
  | 0, _ => []
  | k + 1, bs => wd (leNat (bs.take n)) :: splitElems n k (bs.drop n)

/-- Why the CE has no data: a line that the host holds is asked back (R105), or a fault (R85). -/
inductive CeStop where
  | wait | fault
  deriving DecidableEq, Repr, Inhabited

/-- Elements of INPUT are read, as they enter a sum (R86, R88, R248). -/
def ceFetch (s : State) (o : CeOp) (a k : Nat) : State × Except CeStop (List Word) :=
  match teRead s o.own (ceCmd o) (o.input + a * esize o.ety) (k * esize o.ety) false with
  | (t, .error (.inl line)) => (biAsk t line, .error .wait)
  | (t, .error (.inr _)) => (t, .error .fault)
  | (t, .ok bs) =>
    let es := splitElems (esize o.ety) k bs
    (t, .ok (if o.op < 2 then es.map fun w => wd (ceIn o.ety w.toNat) else es))

/-- Own contribution: `k` elements from the `a`-th on. It was read when the operation began; what is resent after a view change
is what INPUT holds at the resend (R88). -/
def ceOwn (s : State) (o : CeOp) (a k : Nat) : State × Except CeStop (List Word) :=
  if o.changed then ceFetch s o a k else (s, .ok ((o.inp.drop a).take k))

/-- Elements of a member's INPUT. -/
def CeOp.inLen (o : CeOp) (dev : Nat) : Nat :=
  match o.op with
  | 4 => 0
  | 3 => if o.root = dev then o.count else 0
  | _ => o.count

/-- The chunks in turn; one that has to wait for its INPUT holds up only itself. -/
def ceEach (f : State → CeOp → Nat → State × Except CeStop CeOp) : List Nat → State → CeOp → State × Option CeOp
  | [], s, o => (s, some o)
  | c :: l, s, o => match f s o c with
    | (t, .ok p) => ceEach f l t p
    | (t, .error .wait) => ceEach f l t o
    | (t, .error .fault) => (t, none)

/-- Start-view rank of the member at a place of the algorithm (R87, R89). -/
def CeOp.rk (o : CeOp) (i : Nat) : Nat := rankIn o.start (o.live.getD i 0)

/-- Data goes to a member at the operation's class. -/
def ceTo (s : State) (o : CeOp) (dev : Nat) (d : CeData) : State :=
  (CeData.cut d.elems.length d).foldl (fun t p => ceSend t dev 0x11 o.cls (viewOf s o.slot).vid (.data p)) s

/-- A piece from the member of a rank comes in: the whole, once all of it is there. -/
def CeOp.gather (o : CeOp) (r : Nat) (d : CeData) : CeOp × Option CeData :=
  if d.whole ≤ d.elems.length then (o, some d)
  else
    let mine (p : Nat × CeData) : Bool := p.1 == r && p.2.sameAs d
    let ps := (o.pieces.filter mine).map Prod.snd ++ [d]
    let es := (ps.mergeSort fun a b => decide (a.at_ ≤ b.at_)).flatMap CeData.elems
    if d.whole ≤ es.length then ({ o with pieces := o.pieces.filter fun p => !mine p }, some { d with at_ := 0, elems := es })
    else ({ o with pieces := o.pieces ++ [(r, d)] }, none)

def CeOp.did (o : CeOp) (k : Nat) : Bool := o.sent.contains k
def CeOp.mark (o : CeOp) (k : Nat) : CeOp := { o with sent := nins o.sent k }

/-- Ranks of a subtree (R87). -/
def subtree (n : Nat) : Nat → Nat → Nat
  | 0, _ => 0
  | k + 1, i => if n ≤ i then 0 else 1 + subtree n k (2 * i + 1) + subtree n k (2 * i + 2)

/-- The tree at own rank, upward: (own + left) + right, once both subtrees have come. -/
def treeUp (s : State) (o : CeOp) : State × Except CeStop CeOp :=
  let r := rankIn o.live s.devid
  let kids := [2 * r + 1, 2 * r + 2].filter fun i => decide (i < o.n)
  let got := kids.filterMap fun i => o.parts.find? fun d => d.tree && d.first == o.rk i
  if got.length ≠ kids.length ∨ o.did 0 then (s, .ok o)
  else match ceOwn s o 0 (o.inLen s.devid) with
    | (t, .error e) => (t, .error e)
    | (t, .ok mine) =>
      let o := { o with inp := mine }
      let v := got.foldl (fun a d => o.comb a d.elems) (o.place s.devid)
      if r = 0 then (t, .ok ({ o with chunks := fset o.chunks 0 v }.mark 0))
      else (ceTo t o (o.live.getD ((r - 1) / 2) 0) (o.data .part 0 true (o.rk r) (subtree o.n 11 r) v), .ok (o.mark 0))

/-- The tree at own rank, downward: the result. -/
def treeDown (s : State) (o : CeOp) : State × CeOp :=
  let r := rankIn o.live s.devid
  let kids := [2 * r + 1, 2 * r + 2].filter fun i => decide (i < o.n)
  match fget o.chunks 0 with
  | some v =>
    if o.did 1 then (s, o)
    else (kids.foldl (fun t i => ceTo t o (o.live.getD i 0) (o.data .done 0 true (o.rk 0) o.n v)) s, o.mark 1)
  | none => (s, o)

/-- The tree at own rank. -/
def treeStep (s : State) (o : CeOp) : State × Option CeOp :=
  match treeUp s o with
  | (t, .ok p) => let (u, p) := treeDown t p; (u, some p)
  | (t, .error .wait) => (t, some o)
  | (t, .error .fault) => (t, none)

/-- The place where a completed chunk starts its round: at rank c, at the root, at the member whose contribution it is part
of. Every contribution is split into n chunks (R87). -/
def CeOp.home (o : CeOp) (c : Nat) : Nat := if o.op = 3 then rankIn o.live o.root else if o.op = 2 then c / o.n else c

/-- Reduce-scatter of one chunk at own rank (R87). -/
def ringReduce (s : State) (o : CeOp) (c : Nat) : State × Except CeStop CeOp :=
  let n := o.n
  let r := rankIn o.live s.devid
  let org := (c + 1) % n
  let k := (r + n - org) % n
  let part := o.parts.find? fun d => d.chunk == c && !d.tree && d.first == o.rk org && d.cover == k
  if o.did (2 * c) ∨ (r ≠ org ∧ part = none) then (s, .ok o)
  else
    let (a, len) := chunkAt o.count n c
    match ceOwn s o a len with
    | (t, .error e) => (t, .error e)
    | (t, .ok mine) =>
      let v := if r = org then mine else ((part.map fun d => o.comb d.elems mine).getD mine)
      if r = c then (t, .ok ({ o with chunks := fset o.chunks c v }.mark (2 * c)))
      else (ceTo t o (o.live.getD ((r + 1) % n) 0) (o.data .part c false (o.rk org) (k + 1) v), .ok (o.mark (2 * c)))

/-- The chunks of own contribution that travel as they are: those of ALLGATHER, and those of BROADCAST at its root (R87). -/
def ringOwn (s : State) (o : CeOp) : State × Except CeStop CeOp :=
  let first := if o.op = 2 then rankIn o.live s.devid * o.n else 0
  if o.op < 2 ∨ (o.op = 3 ∧ o.root ≠ s.devid) ∨ (fget o.chunks first).isSome then (s, .ok o)
  else match ceOwn s o 0 o.count with
    | (t, .error e) => (t, .error e)
    | (t, .ok es) => (t, .ok { o with chunks := (List.range o.n).foldl (fun m c =>
        fset m (first + c) (chunkOf es o.count o.n c)) o.chunks })

/-- A completed chunk goes on round the ring (R87). -/
def ringPass (s : State) (o : CeOp) (c : Nat) : State × CeOp :=
  let nxt := (rankIn o.live s.devid + 1) % o.n
  match fget o.chunks c with
  | some v =>
    if o.did (2 * c + 1) || o.op == 1 || nxt == o.home c then (s, o)
    else (ceTo s o (o.live.getD nxt 0) (o.data .done c false (o.rk (o.home c)) o.n v), o.mark (2 * c + 1))
  | none => (s, o)

/-- The ring at own rank. -/
def ringStep (s : State) (o : CeOp) : State × Option CeOp :=
  let r := if o.op < 2 then ceEach ringReduce (List.range o.n) s o else ceEach (fun t p _ => ringOwn t p) [0] s o
  match r with
  | (t, none) => (t, none)
  | (t, some o) => let (u, o) := (o.chunks.map Prod.fst).foldl (fun u c => ringPass u.1 u.2 c) (t, o); (u, some o)

/-! ### REWEIGHT of a ring (R90) -/

/-- Start-view ranks of the survivors. -/
def CeOp.ranks (o : CeOp) : List Nat := o.live.map (rankIn o.start)

/-- Ranks a range covers. -/
def rangeOf (n first cover : Nat) : List Nat := (List.range cover).map fun i => (first + i) % n

/-- The longest retained range of a chunk from its origin that holds no removed rank. -/
def keptOf (o : CeOp) (c : Nat) : Option CeData :=
  let n := o.start.length
  (o.parts.filter fun d => d.chunk == c && !d.tree && d.first == (c + 1) % n &&
    (rangeOf n d.first d.cover).all o.ranks.contains).foldl (fun b d =>
      match b with
      | none => some d
      | some e => if e.cover < d.cover then some d else b) none

/-- What this member retains of a chunk: all of it when the chunk has completed without a removed contribution. -/
def CeOp.retains (o : CeOp) (c : Nat) : Nat :=
  if (fget o.chunks c).isSome then o.start.length else ((keptOf o c).map CeData.cover).getD 0

/-- Every survivor says which range it retains of each chunk; the manual does not say how the holder is found (log 9). -/
def claimAll (s : State) (o : CeOp) : State × CeOp :=
  let n := o.start.length
  let claims := (List.range n).map fun c => o.data .claim c false ((c + 1) % n) (o.retains c) []
  let me := rankIn o.start s.devid
  let t := (o.live.filter (· != s.devid)).foldl (fun u dev => claims.foldl (fun v d => ceTo v o dev d) u) s
  (t, { o with got := o.got ++ claims.map fun d => (me, d) })

/-- Holder and range of a chunk once every survivor has claimed: the combiner's start rank and the ranks kept. -/
def combiner (o : CeOp) (c : Nat) : Option (Nat × List Nat) :=
  let claim (r : Nat) : Option Nat := (o.got.find? fun p => p.1 == r && p.2.chunk == c && p.2.kind == .claim).map fun p => p.2.cover
  if o.ranks.all fun r => (claim r).isSome then
    let best := o.ranks.foldl (fun (b : Nat × Nat) r => if b.2 < (claim r).getD 0 then (r, (claim r).getD 0) else b)
      (o.ranks.headD 0, 0)
    some (best.1, rangeOf o.start.length ((c + 1) % o.start.length) best.2)
  else none

/-- The combiner adds to what is kept, in ring order from the origin, each survivor's contribution that it does not cover
(R90); none while one is missing. -/
def ceCombined (o : CeOp) (c : Nat) (range : List Nat) (me : Nat) (mine : List Word) : Option (List Word) :=
  let n := o.start.length
  let rest := ((List.range n).map fun i => (c + 1 + i) % n).filter fun r => o.ranks.contains r && !range.contains r
  let vs := rest.filterMap fun r =>
    if r = me then some mine
    else (o.got.find? fun p => p.1 == r && p.2.chunk == c && p.2.kind == .part).map fun p => p.2.elems
  if vs.length ≠ rest.length then none
  else match (if range.isEmpty then none else keptOf o c) with
    | some d => some (vs.foldl o.comb d.elems)
    | none => some (vs.tail.foldl o.comb (vs.headD []))

/-- One chunk under R90 at own rank: its contribution, read from INPUT as it is resent (R88), its combination, its passing
on. -/
def reweightChunk (s : State) (o : CeOp) (c : Nat) : State × Except CeStop CeOp :=
  let n := o.start.length
  let me := rankIn o.start s.devid
  match combiner o c with
  | none => (s, .ok o)
  | some (k, range) =>
    let (a, len) := chunkAt o.count n c
    let need := !range.contains me && (if me = k then (fget o.chunks c).isNone else !o.did (2 * c))
    match (if need then ceFetch s o a len else (s, .ok [])) with
    | (t, .error e) => (t, .error e)
    | (t, .ok mine) =>
      let (t, o) :=
        if me ≠ k then
          if need then (ceTo t o (o.start.getD k 0) (o.data .part c false me 1 mine), o.mark (2 * c)) else (t, o)
        else if (fget o.chunks c).isSome then (t, o)
        else match ceCombined o c range me mine with
          | some v => (t, { o with chunks := fset o.chunks c v })
          | none => (t, o)
      let nxt := (rankIn o.live s.devid + 1) % o.n
      match fget o.chunks c with
      | some v =>
        if o.did (2 * c + 1) || o.live.getD nxt 0 == o.start.getD k 0 then (t, .ok o)
        else (ceTo t o (o.live.getD nxt 0) (o.data .done c false ((c + 1) % n) o.n v), .ok (o.mark (2 * c + 1)))
      | none => (t, .ok o)

/-! ## Completion (R92) -/

/-- The elements an operation leaves once it has all it needs. -/
def CeOp.result (o : CeOp) (dev : Nat) : Option (List Word) :=
  let r := rankIn o.live dev
  let all (n : Nat) : Option (List Word) := ((List.range n).mapM fun c => fget o.chunks c).map List.flatten
  if o.reweight then all o.start.length
  else if o.tree then
    (fget o.chunks 0).map fun v => if o.op = 1 then chunkOf v o.count o.n r else v
  else match o.op with
    | 1 => fget o.chunks r
    | 2 => all (o.n * o.n)
    | _ => all o.n

/-- The bytes of OUTPUT. -/
def CeOp.bytes (o : CeOp) (es : List Word) : List Byte :=
  es.flatMap fun w =>
    leBytes (esize o.ety) (if o.op < 2 then ceOut o.ety (if o.redop = 1 then ceMean o.ety o.n w.toNat else w.toNat)
      else w.toNat)

/-- COLLDONE (R92, R245); contexts parked for one of the 32 places issue again (R85). A FREE slot has no view id (R84): word 2
carries the one it last held (DESIGN CHOICE, log 17). -/
def ceDone (s : State) (o : CeOp) (status reason count ts : Nat) : State :=
  let t := { s with ceOps := s.ceOps.filter (·.id != o.id) }
  let t := unitMsg t (unitSrc 6 0) o.cls 5 o.issuer (some ts) (wd o.desc)
    (wd (status + reason * 2 ^ 8 + count % 2 ^ 11 * 2 ^ 16 + (viewOf s o.slot).vid * 2 ^ 32))
    (wd (o.tag % 2 ^ 32 + s.gtc % 2 ^ 32 * 2 ^ 32))
  wakeIf t (· == .coll)

/-- Bytes of OUTPUT that an aborted operation leaves undefined. Where the slot holds no view, the number of members and the own
rank are free (log 17). -/
def abortedLen (s : State) (o : CeOp) : Nat :=
  let ds := if o.start.isEmpty then (viewOf s o.slot).view.map Member.dev else o.start
  let n := if ds.isEmpty then 1 + (Config.freeWord s.fresh).toNat % 1024 else ds.length
  let r := if ds.isEmpty then (Config.freeWord (s.fresh + 1)).toNat % n else rankIn ds s.devid
  if o.op = 4 then 0
  else if o.op = 2 then n * o.count * esize o.ety
  else if o.op = 1 then (chunkAt o.count n r).2 * esize o.ety
  else o.count * esize o.ety

/-- A part of OUTPUT is filled; one that may not be written keeps its bytes, one that the host holds is filled beneath the
host's copy. -/
def scrapPart (va : Nat) (bs : List Byte) (u : State × TeCmd) (p : Part) : State × TeCmd :=
  match teWriteStop u.1 va p with
  | some (.inr _) => u
  | _ => teWritePart bs u p

/-- OUTPUT of an aborted operation has undefined contents (R91): free bytes, piece by piece where it can be written; the
largest timestamp written (log 17). -/
def scrap (s : State) (o : CeOp) : State × TeCmd :=
  let n := abortedLen s o
  let put (u : State × TeCmd) (p : Nat × Nat) : State × TeCmd :=
    let bs := (List.range p.2).map fun i => Config.abortedByte (s.fresh + p.1 + i)
    match tePieces u.1 o.own u.2 (o.output + p.1) p.2 .write with
    | (t, .ok ps) => ps.foldl (scrapPart (o.output + p.1) bs) (t, u.2)
    | (_, .error _) => u
  (cuts (n / 64 + 2) o.output 0 n).foldl put ({ s with fresh := s.fresh + n + 2 }, ceCmd o)

/-- ABORTED. The contributor count of an aborted operation is not stated: a free value (log 20). One that has completed here
before only stops taking part. -/
def ceAbort (s : State) (o : CeOp) (reason : Nat) : State :=
  if o.past then { s with ceOps := s.ceOps.filter (·.id != o.id) }
  else
    let (f, t) := draw s
    let (t, m) := scrap t o
    ceDone t o 3 reason (Config.freeWord f).toNat m.wmax

/-- Status of an operation that ends well (R92). -/
def CeOp.status (o : CeOp) : Nat := if !o.changed then 0 else if o.policy = 1 then 2 else 1

/-- INPUT is read as the operation begins (R88, R248); after a view change each contribution is read as it is resent. -/
def ceRead (s : State) (o : CeOp) : State × Except CeStop CeOp :=
  if o.ready || o.changed then (s, .ok o)
  else match ceFetch s o 0 (o.inLen s.devid) with
    | (t, .error e) => (t, .error e)
    | (t, .ok es) => (t, .ok { o with ready := true, inp := es })

/-- An operation that has completed here is remembered (R89). -/
def keepPast (s : State) (o : CeOp) : State :=
  { s with
    ceOps := s.ceOps.filter (·.id != o.id),
    cePast := s.cePast.filter (fun p => !(p.slot == o.slot && p.tag == o.tag)) ++ [{ o with past := true }] }

/-- An operation has its result: OUTPUT is written and COLLDONE sent. -/
def ceFinish (s : State) (o : CeOp) (es : List Word) : State :=
  if o.past then keepPast s o
  else match teWriteMem s o.own (ceCmd o) o.output (o.bytes es) with
    | (u, .ok m) => keepPast (ceDone u o o.status 0 o.n m.wmax) o
    | (u, .error (.inl line)) => biAsk (cePut u o) line
    | (u, .error (.inr _)) => ceAbort (cePut u o) o 8

/-- An operation goes as far as it can: it reads, sends, and completes. -/
def ceRun (s : State) (id : Nat) : State :=
  match ceGet s id with
  | none => s
  | some o =>
    if o.held then s
    else
      let (t, r) := if o.reweight then ceEach reweightChunk (List.range o.start.length) s o
        else match ceRead s o with
          | (t, .error .wait) => (t, some o)
          | (t, .error .fault) => (t, none)
          | (t, .ok o) => if o.tree then treeStep t o else ringStep t o
      match r with
      | none => ceAbort t o 8
      | some o => match o.result t.devid with
        | none => cePut t o
        | some es => ceFinish t o es

/-- Operations that wait for a line try again. -/
def ceRetry (s : State) : State := (s.ceOps.map CeOp.id).foldl ceRun s

/-! ## Start, data, and view changes -/

/-- Nothing of a slot is remembered, and its collectives end ABORTED. -/
def ceAbortAll (s : State) (n reason : Nat) : State :=
  let t := { s with
    ceEarly := s.ceEarly.filter fun e => e.1 != n, cePast := s.cePast.filter fun o => o.slot != n,
    ceDead := s.ceDead.filter fun e => e.1 != n }
  (t.ceOps.filter (·.slot == n)).foldl (fun u o => ceAbort u o reason) t

/-- A started operation reruns in the new view (R91). The other members are told, in case they have completed it. -/
def ceRerun (s : State) (o : CeOp) : State :=
  let o := { o with changed := true, reweight := false, ready := false, inp := [], parts := [], got := [], pieces := [],
                     chunks := [], sent := [] }
  ceRun ((o.live.filter (· != s.devid)).foldl (fun u d => ceTo u o d (o.data .again 0 false 0 0 [])) (cePut s o)) o.id

/-- What the install of a view does to an operation in flight (R89 to R91). Completed chunks carry the contributions of every
member that was still in the operation. -/
def ceChange (s : State) (o : CeOp) : State :=
  let v := viewOf s o.slot
  let live := o.start.filter (v.view.map Member.dev).contains
  let lost := o.live.any fun d => !live.contains d
  let o := { o with live := live, ran := v.vid }
  if o.policy = 2 then ceAbort s o 1
  else if o.op = 1 ∨ o.op = 2 then ceAbort s o 3
  else if o.op = 3 ∧ !live.contains o.root then ceAbort s o 4
  else if o.op = 0 ∧ o.policy = 1 ∧ o.redop < 2 ∧ !o.tree then
    let o := { o with changed := true, reweight := true, got := [], pieces := [], chunks := if lost then [] else o.chunks, sent := [] }
    let (t, o) := claimAll s o
    ceRun (cePut t o) o.id
  else ceRerun s o

/-- A mismatch (R85): it is told to every other member, once; the operation ends, and so it will on them. -/
def ceMismatch (s : State) (o : CeOp) (heard : Option Nat) : State :=
  let rest := o.start.filter (· != s.devid)
  let t := rest.foldl (fun u dev => ceTo u o dev (o.data .mismatch 0 false 0 0 [])) s
  ceAbort { t with ceDead := t.ceDead ++ (rest.filter fun d => some d != heard).map fun d => (o.slot, o.tag, d) } o 5

/-- Data of the same start of an operation: another member's partial or claim, a completed chunk (R87, R90), which counts once
all its pieces have come. -/
def ceAdd1 (s : State) (o : CeOp) (src : Nat) (d : CeData) : State :=
  let r := rankIn o.start src
  match o.gather r d with
  | (o, none) => cePut s o
  | (o, some d) =>
    let o := match d.kind with
      | .done => if (fget o.chunks d.chunk).isSome then o else { o with chunks := fset o.chunks d.chunk d.elems }
      | .part => if o.reweight then { o with got := o.got ++ [(r, d)] } else { o with parts := o.parts ++ [d] }
      | .claim => if o.reweight then { o with got := o.got ++ [(r, d)] } else o
      | _ => o
    ceRun (cePut s o) o.id

/-- Data for an operation in hand (R85, R87). The others may have started it in an earlier view, which this member learns when
it issues its COLL after the change: it joins them as R89 has it. -/
def ceTake (s : State) (o : CeOp) (src : Nat) (d : CeData) : State :=
  let same := d.op == o.op && (decide (2 ≤ o.op) || d.redop == o.redop) && d.ety == o.ety && d.count == o.count
  if d.kind = .mismatch then ceMismatch s o (some src)
  else if !same then ceMismatch s o none
  else if d.vid0 = o.vid0 then ceAdd1 s o src d
  else if o.vid0 % 65536 < d.vid0 % 65536 then s
  else match fget (viewOf s o.slot).hist d.vid0 with
    | none => s
    | some ds =>
      let o := { o with vid0 := d.vid0, start := ds, live := ds, reweight := false, ready := false, inp := [], parts := [],
                        got := [], pieces := [], chunks := [], sent := [] }
      let t := ceChange (cePut s o) o
      match ceGet t o.id with
      | some p => ceAdd1 t p src d
      | none => t

/-- Data of the current view reaches a slot: its operation, one that has completed here and is rerun elsewhere (R89), or none
yet. -/
def ceDeliver (s : State) (n src : Nat) (d : CeData) : State :=
  let v := viewOf s n
  match s.ceOps.find? fun o => o.slot == n && o.tag == d.tag && !o.held with
  | some o => ceTake s o src d
  | none =>
    if s.ceDead.contains (n, d.tag, src) then
      if d.kind = .mismatch then { s with ceDead := s.ceDead.erase (n, d.tag, src) } else s
    else match (if d.vid0 = v.vid then none
        else s.cePast.find? fun o => o.slot == n && o.tag == d.tag && o.vid0 == d.vid0) with
      | some p =>
        if p.ran = v.vid then s
        else
          let t := ceChange { s with ceOps := s.ceOps ++ [p], cePast := s.cePast.erase p } p
          match ceGet t p.id with
          | some q => ceAdd1 t q src d
          | none => t
      | none => { s with ceEarly := s.ceEarly ++ [(n, src, v.vid, d)] }

/-- The early data that answers to a choice is delivered. -/
def ceCatchUp (s : State) (p : Nat × Nat × Nat × CeData → Bool) : State :=
  (s.ceEarly.filter p).foldl (fun u e => ceDeliver u e.1 e.2.1 e.2.2.2) { s with ceEarly := s.ceEarly.filter fun e => !p e }

/-- A held or new operation starts in the view its slot holds (R84). -/
def ceStart (s : State) (o : CeOp) : State :=
  let v := viewOf s o.slot
  let ds := v.view.map Member.dev
  if o.viewid ≠ 0 ∧ o.viewid ≠ v.vid then ceAbort s o 7
  else if o.op = 3 ∧ ds.length ≤ o.root then ceAbort s o 9
  else
    let p := { o with held := false, vid0 := v.vid, ran := v.vid, start := ds, live := ds, root := ds.getD o.root 0 }
    let other (q : CeOp) : Bool := !(q.slot == o.slot && q.tag == o.tag)
    let t := { s with ceOps := s.ceOps.filter fun q => !q.past || other q, cePast := s.cePast.filter other }
    ceRun (ceCatchUp (cePut t p) fun e => e.1 == o.slot && e.2.2.2.tag == o.tag && e.2.2.1 == v.vid) o.id

/-- The operations a slot holds start (R84, R94). -/
def ceRelease (s : State) (n : Nat) : State :=
  ((s.ceOps.filter fun o => o.slot == n && o.held).map CeOp.id).foldl (fun u id => match ceGet u id with
    | some o => ceStart u o
    | none => u) s

/-- Operations of a slot meet the view it now holds; data of that view that came before its install follows, data of earlier
views is dropped. -/
def ceInstall (s : State) (n : Nat) : State :=
  let vid := (viewOf s n).vid
  let t := { s with
    ceEarly := s.ceEarly.filter fun e => e.1 != n || decide (vid % 65536 ≤ e.2.2.1 % 65536),
    ceDead := s.ceDead.filter fun e => e.1 != n }
  let t := ((t.ceOps.filter fun o => o.slot == n && !o.held).map CeOp.id).foldl (fun u id => match ceGet u id with
    | some o => ceChange u o
    | none => u) t
  ceCatchUp (ceRelease t n) fun e => e.1 == n && e.2.2.1 == vid

/-- Collectives of a slot that have started and not completed. -/
def ceFlying (s : State) (n : Nat) : Bool := s.ceOps.any fun o => o.slot == n && !o.held && !o.past

end Sys2Proof.Machine
end

