-- ==== Sys2Proof/Machine/Control.lean ====
section
/-!
DEFINITION. Control transfer (R324 to R327). A pc that becomes 0 is the next boundary's concern: the context executes
EXIT there (R327).
-/

namespace Sys2Proof.Machine

/-- Target of a B form (R282). -/
def branchTo (s : State) (i : BitVec 16) : Word := (cur s).pc + sextI i <<< 2

def branch (s : State) (taken : Bool) (i : BitVec 16) : Out := .next (if taken then goto s (branchTo s i) else next s)

def execBeq (a b : XReg) (i : BitVec 16) (s : State) : Out := branch s (rx s a == rx s b) i
def execBne (a b : XReg) (i : BitVec 16) (s : State) : Out := branch s (rx s a != rx s b) i
def execBlt (a b : XReg) (i : BitVec 16) (s : State) : Out := branch s ((rx s a).slt (rx s b)) i
def execBge (a b : XReg) (i : BitVec 16) (s : State) : Out := branch s (!(rx s a).slt (rx s b)) i
def execBltu (a b : XReg) (i : BitVec 16) (s : State) : Out := branch s ((rx s a).ult (rx s b)) i
def execBgeu (a b : XReg) (i : BitVec 16) (s : State) : Out := branch s (!(rx s a).ult (rx s b)) i
def execBmany (m : MReg) (i : BitVec 16) (s : State) : Out := branch s (rm s m != 0) i
def execBmnone (m : MReg) (i : BitVec 16) (s : State) : Out := branch s (rm s m == 0) i
def execBmall (m : MReg) (i : BitVec 16) (s : State) : Out := branch s (rm s m == 0xFFFF) i

/-- JAL (R326). -/
def execJal (d : XReg) (i : BitVec 21) (s : State) : Out :=
  let pc := (cur s).pc
  .next (modCur s fun c => (c.setX d (pc + 4)).goto (pc + i.signExtend 64 <<< 2))

/-- JALR: the target is read before rd is written; it must be a multiple of 4 (R326). -/
def execJalr (d a : XReg) (i : BitVec 16) (s : State) : Out :=
  let t := rx s a + sextI i
  let pc := (cur s).pc
  if t.toNat % 4 ≠ 0 then .next (takeTrap s (misalign t.toNat))
  else .next (modCur s fun c => (c.setX d (pc + 4)).goto t)

end Sys2Proof.Machine
end

