-- ==== Sys2Proof/Machine/Float.lean ====
section
/-!
DEFINITION. Scalar floating point (R317 to R323): operands in the low bits of x registers, one rounding under FCSR.RM,
flags ORed into FCSR.
-/

namespace Sys2Proof.Machine

/-- FCSR.RM and FCSR.SAT (R275). -/
def Ctx.round (c : Ctx) : Rm := rmOf (fld c.fcsr.toNat 5 3)
def Ctx.sat (c : Ctx) : Bool := c.fcsr.getLsbD 8

/-- Flags are ORed into FCSR (R275). -/
def Ctx.flag (c : Ctx) (f : Fl) : Ctx := { c with fcsr := c.fcsr ||| f.fcsr }

/-- rd := a pattern, flags set, and the next instruction (R317). -/
def wbF (s : State) (d : XReg) (r : Nat × Fl) : State := next (modCur s fun c => (c.setX d (wd r.1)).flag r.2)

/-- An operand in the low bits of its register (R317). -/
def fArg (f : FFmt) (w : Word) : Nat := w.toNat % 2 ^ (fmtOf f).width

def fop2 (s : State) (f : FFmt) (d a b : XReg) (op : Fmt → Rm → Nat → Nat → Nat × Fl) : Out :=
  .next (wbF s d (op (fmtOf f) (cur s).round (fArg f (rx s a)) (fArg f (rx s b))))

def execFadd (f : FFmt) (d a b : XReg) (s : State) : Out := fop2 s f d a b fun t r x y => farith t r .add x y
def execFsub (f : FFmt) (d a b : XReg) (s : State) : Out := fop2 s f d a b fun t r x y => farith t r .sub x y
def execFmul (f : FFmt) (d a b : XReg) (s : State) : Out := fop2 s f d a b fun t r x y => farith t r .mul x y
def execFdiv (f : FFmt) (d a b : XReg) (s : State) : Out := fop2 s f d a b fun t r x y => farith t r .div x y
def execFsqrt (f : FFmt) (d a : XReg) (s : State) : Out :=
  .next (wbF s d (fsqrtBits (fmtOf f) (cur s).round (fArg f (rx s a))))
/-- FMA reads rd (R318). -/
def execFma (f : FFmt) (d a b : XReg) (s : State) : Out :=
  .next (wbF s d (ffma (fmtOf f) (cur s).round (fArg f (rx s a)) (fArg f (rx s b)) (fArg f (rx s d))))
def execFmin (f : FFmt) (d a b : XReg) (s : State) : Out := fop2 s f d a b fun t _ x y => fminmax t false x y
def execFmax (f : FFmt) (d a b : XReg) (s : State) : Out := fop2 s f d a b fun t _ x y => fminmax t true x y

/-- A compare writes 0 or 1 (R320). -/
def fcmp (s : State) (f : FFmt) (d a b : XReg) (op : FCmp) : Out :=
  fop2 s f d a b fun t _ x y => let (r, k) := fcompare t op x y; (b2n r, k)

def execFeq (f : FFmt) (d a b : XReg) (s : State) : Out := fcmp s f d a b .eq
def execFlt (f : FFmt) (d a b : XReg) (s : State) : Out := fcmp s f d a b .lt
def execFle (f : FFmt) (d a b : XReg) (s : State) : Out := fcmp s f d a b .le
def execFclass (f : FFmt) (d a : XReg) (s : State) : Out := .next (wbF s d (2 ^ fclassBit (fmtOf f) (fArg f (rx s a)), {}))

/-- Sign injection (R321). -/
def fsign (f : FFmt) (inv : Bool) (a b : Nat) : Nat :=
  let w := (fmtOf f).width - 1
  a % 2 ^ w + b2n (bit b w != inv) * 2 ^ w

def execFsgnj (f : FFmt) (d a b : XReg) (s : State) : Out := fop2 s f d a b fun _ _ x y => (fsign f false x y, {})
def execFsgnjn (f : FFmt) (d a b : XReg) (s : State) : Out := fop2 s f d a b fun _ _ x y => (fsign f true x y, {})

/-- Float to integer (R277, R322). -/
def ftoInt (s : State) (f : FFmt) (d a : XReg) (lo hi : Int) : Out :=
  let (i, k) := toInt (cur s).round lo hi (unpack (fmtOf f) (fArg f (rx s a)))
  .next (wbF s d (wrapN 64 i, k))

def execFtoi (f : FFmt) (d a : XReg) (s : State) : Out := ftoInt s f d a (-2 ^ 63) (2 ^ 63 - 1)
def execFtou (f : FFmt) (d a : XReg) (s : State) : Out := ftoInt s f d a 0 (2 ^ 64 - 1)
def execItof (f : FFmt) (d a : XReg) (s : State) : Out :=
  .next (wbF s d (packIeee (fmtOf f) (cur s).round (ofInt (rx s a).toInt)))
def execUtof (f : FFmt) (d a : XReg) (s : State) : Out :=
  .next (wbF s d (packIeee (fmtOf f) (cur s).round (ofInt (rx s a).toNat)))
def execFcvt (dst src : FFmt) (d a : XReg) (s : State) : Out :=
  .next (wbF s d (fcvtBits (cur s).round (cur s).sat (fmtOf dst) (unpack (fmtOf src) (fArg src (rx s a)))))

end Sys2Proof.Machine
end

