-- ==== Sys2Proof/Machine/View.lean ====
section
/-!
DEFINITION. Membership views (R73 to R83, R93 to R95): forming, heartbeats and suspicion, the agreement table of R80, the
install of a view, and joining. One event per packet or timer; a timer that is not due changes nothing.
-/

namespace Sys2Proof.Machine

/-! ## View slots (R74) -/

def VSt.code : VSt → Nat
  | .free => 0 | .forming => 1 | .active => 2 | .changing => 3 | .stalled => 4 | .excluded => 5

def memberOf (w : Word) : Member := ⟨fld w.toNat 32 12, fld w.toNat 0 32⟩
def memberWord (m : Member) : Word := wd (m.dev * 2 ^ 32 + m.inc)

/-- Members in ascending device id (R73). -/
def ranked (l : List Member) : List Member := l.mergeSort fun a b => decide (a.dev ≤ b.dev)

/-- The digest of a list (R75): the first 8 bytes of the SHA-256 of its member words, in order (log 65). -/
def listDigest (l : List Member) : Word := wd (leNat ((sha256 (l.flatMap fun m => leBytes 8 (memberWord m).toNat)).take 8))

/-- The list the runtime wrote. -/
def writtenList (v : ViewSlot) : List Member := ranked (v.members.map fun p => memberOf p.2)

/-- Own rank, and the rank of a device. -/
def rankOf (v : ViewSlot) (dev : Nat) : Nat := v.view.findIdx fun m => m.dev == dev
def inView (l : List Member) (dev : Nat) : Bool := l.any fun m => m.dev == dev

/-- VSTAT (R74). -/
def vstat (s : State) (n : Nat) : Nat :=
  let v := viewOf s n
  let r := if inView v.view s.devid then rankOf v s.devid else 0
  v.st.code * 2 ^ 29 + b2n v.quorum * 2 ^ 28 + r % 1024 * 2 ^ 16 + v.view.length % 2048

/-- A view event record (R124 type 0x11). -/
def viewEvent (s : State) (n ev rank : Nat) : State :=
  event s (unitSrc 6 0) 0x11
    [(16, 4, (viewOf s n).vid), (20, 1, n), (21, 1, ev), (22, 2, rank), (24, 2, (viewOf s n).view.length)]

/-- A discarded CE packet is counted (R76). -/
def ceDiscard (s : State) (n : Nat) : State := modView s n fun v => { v with vdiscard := sat (v.vdiscard + 1) 32 }

/-- The slot that holds a family (R76), a joining slot included. -/
def ceSlotOf (s : State) (vid : Nat) : Option Nat :=
  lowest 16 fun n => let v := viewOf s n; (v.st != .free || v.joining) && v.vid / 65536 == vid / 65536

/-- The incarnation at which a device takes part in a slot's view (R95): that of the list this member proposes, which a joiner
answers (R94), else the entry of the member list. -/
def incOf (v : ViewSlot) (dev : Nat) : Option Nat :=
  let proposed := match v.agree with | .proposing _ l .. => l | _ => []
  let held := if v.st = .forming ∨ v.st = .free then writtenList v else v.view
  ((proposed ++ held).find? fun m => m.dev == dev).map Member.inc

/-- The incarnation last recorded for a device id, a removed member's included, with which a join request is compared (R94,
R477). -/
def recordedInc (v : ViewSlot) (dev : Nat) : Option Nat := (incOf v dev).orElse fun _ => fget v.known dev

/-- A packet of a device whose incarnation is not that of its list entry (R95, R477); a device without an entry is no member.
A joiner's list may not name the device. -/
def staleInc (v : ViewSlot) (h : CeHdr) : Bool :=
  match incOf v h.src with
  | some k => k != h.inc
  | none => !v.joining

/-- Whether a packet counts (R76, R95): the slot it is for. A later epoch from a member sends FETCH; every other packet
that does not match is discarded and counted, by a slot of the device's choice when none holds the family. A slot that joins
holds no view: it takes only what its joining needs (R94). -/
def ceGateAs (s : State) (h : CeHdr) (join : Bool) : State × Option Nat :=
  match ceSlotOf s h.vid with
  | none =>
    let (f, t) := draw s
    (ceDiscard t ((Config.freeWord f).toNat % 16), none)
  | some n =>
    let v := viewOf s n
    if staleInc v h then (ceDiscard s n, none)
    else if v.joining then (if join then (s, some n) else (ceDiscard s n, none))
    else if h.vid = v.vid then
      (modView s n fun v => match v.agree with
        | .bound c _ => if c = h.src then { v with agree := .bound c s.gtc } else v
        | _ => v, some n)
    else if v.vid % 65536 < h.vid % 65536 ∧ inView v.view h.src then
      (modView (ceSend s h.src 0x10 0 h.vid .fetch) n fun v => { v with fetching := nins v.fetching h.src }, none)
    else (ceDiscard s n, none)

def ceGate (s : State) (h : CeHdr) : State × Option Nat := ceGateAs s h false

/-- The slot for which data of a view not installed here is kept until the install: a later epoch from a member, which is
excepted from the discarding of R76, and any while the slot joins (log 68). -/
def ceAhead (s : State) (h : CeHdr) : Option Nat :=
  (ceSlotOf s h.vid).bind fun n =>
    let v := viewOf s n
    if !staleInc v h && (v.joining || (decide (v.vid % 65536 < h.vid % 65536) && inView v.view h.src)) then some n else none

/-! ## Leaving service, and installs (R80, R82, R93) -/

/-- STALLED (R81). -/
def stallSlot (s : State) (n : Nat) : State :=
  let t := viewEvent (modView s n fun v => { v with st := .stalled, agree := .idle }) n 3 (rankOf (viewOf s n) s.devid)
  ceAbortAll t n 2

/-- EXCLUDED (R82). -/
def excludeSlot (s : State) (n : Nat) : State :=
  let t := viewEvent (modView s n fun v => { v with st := .excluded, agree := .idle }) n 4 (rankOf (viewOf s n) s.devid)
  ceAbortAll t n 6

/-- VIEW_CHANGE becomes pending in every context whose mask includes the slot, saved ones included (R93, R188, R199). -/
def viewTraps (s : State) (n : Nat) : State :=
  let b : BitVec 16 := BitVec.ofNat 16 (2 ^ n)
  let t := { s with ctxs := s.ctxs.map fun (p : Nat × Ctx) =>
    if p.2.active && p.2.mtrapm.getLsbD n then (p.1, { p.2 with pendView := p.2.pendView ||| b }) else p }
  t.saved.foldl (fun u (p : Nat × Saved) =>
    let a := imageAddr u p.1 + 0x3F8
    let w := leNat (readUnder u 0 a 8)
    let b := imageAddr u p.1 + 0x348
    if bit w n then
      let u := writeUnder u 0 a (leBytes 8 (setFld w (16 + n) 1 1))
      writeUnder u 0 b (leBytes 8 (setFld (leNat (readUnder u 0 b 8)) 58 1 1))
    else u) t

/-- Data kept by a joiner that belongs to another view than the one it installs (R94, R76). -/
def strayEarly (s : State) (n vid : Nat) : Nat := (s.ceEarly.filter fun e => e.1 == n && e.2.2.1 != vid).length

/-- A new view is installed (R80, R89, R93): S is cleared and suspicion starts afresh. Join requests that waited are taken up
again. -/
def installView (s : State) (n newVid : Nat) (list : List Member) : State :=
  if !inView list s.devid then excludeSlot s n
  else
    let l := ranked list
    let t := modView s n fun v => { v with
      st := .active, vid := newVid, view := l, members := l.zipIdx.map fun p => (p.2, memberWord p.1), suspects := [],
      agree := .idle, beats := (l.map Member.dev).foldl (fun m d => fset m d s.gtc) [], lastBeat := s.gtc, joining := false,
      holdColl := false, fetching := [], known := l.foldl (fun m e => fset m e.dev e.inc) v.known, joins := [],
      hist := fset v.hist newVid (l.map Member.dev),
      vdiscard := if v.joining then sat (v.vdiscard + strayEarly s n newVid) 32 else v.vdiscard }
    let t := viewTraps (viewEvent t n 2 (rankOf (viewOf t n) s.devid)) n
    (viewOf s n).joins.foldl (fun u j => later u (.joinReq ⟨newVid, j.dev, j.inc⟩ j.dev j.inc)) (ceInstall t n)

/-! ## Forming (R75) and closing (R74) -/

/-- A slot whose HELLOs are complete enters ACTIVE. -/
def helloCheck (s : State) (n : Nat) : State :=
  let v := viewOf s n
  let l := writtenList v
  if v.st = .forming ∧ inView l s.devid ∧ l.all (fun m => m.dev == s.devid || v.hellos.contains m.dev) then
    ceInstall (modView s n fun v => { v with
      st := .active, view := l, hist := fset v.hist v.vid (l.map Member.dev), members := l.zipIdx.map fun p => (p.2, memberWord p.1), agree := .idle, suspects := [],
      beats := (l.map Member.dev).foldl (fun m d => fset m d s.gtc) [], lastBeat := s.gtc,
      known := l.foldl (fun m e => fset m e.dev e.inc) v.known }) n
  else s

/-- FORM (R75): HELLO to every other member. -/
def execForm (slot vid : Nat) (s : State) : Out :=
  if 16 ≤ slot ∨ hostShut s ∨ (viewOf s slot).st ≠ .free then .next s
  else
    let t := modView s slot fun v => { v with
      st := .forming, vid := vid % 2 ^ 32, view := [], hellos := [], formSince := s.gtc, suspects := [], agree := .idle,
      joining := false, holdColl := false, fetching := [], joins := [], hist := [] }
    let l := writtenList (viewOf t slot)
    let t := (l.filter fun m => m.dev != s.devid).foldl (fun u m => ceCtl u slot m.dev (.hello (listDigest l))) t
    .next (helloCheck t slot)

/-- HELLO (R75): an equal id and digest counts, and the first from a member is answered, which makes the exchange. -/
def execHello (h : CeHdr) (digest : Word) (s : State) : Out :=
  match ceGate s h with
  | (t, none) => .next t
  | (t, some n) =>
    let v := viewOf t n
    let l := writtenList v
    if v.st ≠ .forming ∨ digest ≠ listDigest l ∨ v.hellos.contains h.src then .next t
    else
      let t := modView t n fun v => { v with hellos := nins v.hellos h.src }
      .next (helloCheck (ceCtl t n h.src (.hello (listDigest l))) n)

/-- FORM_TIMEOUT (R75, R84): 100 ms without success. -/
def execFormTimeout (slot : Nat) (s : State) : Out :=
  let v := viewOf s slot
  if v.st ≠ .forming ∨ s.gtc < v.formSince + 100000000 then .next s
  else .next (ceAbortAll (viewEvent (modView s slot fun v => { v with st := .free }) slot 0 0) slot 7)

/-- CLOSE (R74). -/
def execClose (slot : Nat) (s : State) : Out :=
  if 16 ≤ slot ∨ hostShut s then .next s
  else
    let t := ceAbortAll s slot 10
    .next (modView t slot fun v => { v with
      st := .free, view := [], hellos := [], suspects := [], agree := .idle, joining := false, holdColl := false,
      fetching := [], joins := [], hist := [] })

/-! ## Agreement (R79 to R81) -/

/-- The lowest-ranked member not in S (R79). -/
def candidate (v : ViewSlot) : Nat := ((v.view.find? fun m => !v.suspects.contains m.dev).map Member.dev).getD 0xFFF

/-- Members of a list other than this device. -/
def others (s : State) (l : List Member) : List Nat := (l.map Member.dev).filter (· != s.devid)

/-- A proposal that adds a member: an entry, incarnation included, that the view does not hold (R94). -/
def addsMember (v : ViewSlot) (list : List Member) : Bool := list.any fun m => !v.view.contains m

/-- The coordinator decides once every listed member has acknowledged (R80, R81). A proposal that adds a member waits
for the coordinator's own collectives too (R94). -/
def tryDecide (s : State) (n : Nat) : State :=
  let v := viewOf s n
  match v.agree with
  | .proposing round list acks _ _ nv =>
    if !(others s list).all acks.contains then s
    else if addsMember v list && ceFlying s n then s
    else
      let kept := (v.view.filter fun m => inView list m.dev).length
      if !v.quorum ∨ v.view.length < 2 * kept then
        let t := (others s list).foldl (fun u d => ceCtl u n d (.commit nv list)) s
        let omitted := (v.view.filter fun m => !inView list m.dev).map Member.dev
        let t := omitted.foldl (fun u d => ceCtl u n d (.exclude nv)) t
        installView t n nv list
      else stallSlot ((others s list).foldl (fun u d => ceCtl u n d (.stall round)) s) n
  | _ => s

/-- PROPOSE(round) to the list; a 1 ms round starts. -/
def proposeTo (s : State) (n round : Nat) (list : List Member) : State :=
  let nv := ((viewOf s n).vid + 1) % 2 ^ 32
  let t := modView s n fun v => { v with st := .changing, agree := .proposing round list [] [] s.gtc nv }
  tryDecide ((others s list).foldl (fun u d => ceCtl u n d (.propose round nv list)) t) n

/-- The old members minus S. -/
def survivors (v : ViewSlot) : List Member := v.view.filter fun m => !v.suspects.contains m.dev

/-- CHANGING towards the present candidate, with its 2 ms timer. After ABANDON or the 2 ms of BOUND the table of R80 names no
action of the new state: the member starts a fresh 2 ms timer, also when it is itself the candidate, and sends no SUSPECT
(DESIGN CHOICE, log 67). -/
def changeTo (s : State) (n : Nat) : State :=
  modView s n fun v => { v with st := .changing, agree := .changing (candidate v) s.gtc }

/-- The first two rows of R80. A view of epoch 0xFFFF stalls instead (R73). -/
def elect (s : State) (n : Nat) : State :=
  let v := viewOf s n
  if v.vid % 65536 = 0xFFFF then stallSlot s n
  else if candidate v = s.devid then proposeTo s n 0 (survivors v)
  else changeTo (ceCtl s n (candidate v) (.suspect { ranks := v.suspects.map (rankOf v), gtc := s.gtc })) n

/-- Members enter S (R78, R79). -/
def suspectAll (s : State) (n : Nat) (ds : List Nat) : State :=
  modView s n fun v => { v with suspects := (ds.filter fun d => d != s.devid && inView v.view d).foldl nins v.suspects }

/-- This member suspects one of them, which writes a record; what a report names writes none (R78, R478). -/
def suspectOwn (s : State) (n d : Nat) : State :=
  viewEvent (suspectAll s n [d]) n 1 (rankOf (viewOf s n) d)

/-- The ring neighbours of R77. -/
def neighbours (s : State) (v : ViewSlot) : List Nat :=
  let k := v.view.length
  let r := rankOf v s.devid
  if k < 2 then []
  else
    let a := (v.view.getD ((r + k - 1) % k) ⟨0, 0⟩).dev
    let b := (v.view.getD ((r + 1) % k) ⟨0, 0⟩).dev
    if a = b then [a] else [a, b]

/-- HEARTBEAT_TIMER (R77): every 50 µs in every ACTIVE slot with two or more members. -/
def execHeartbeatTimer (s : State) : Out :=
  .next ((List.range 16).foldl (fun t n =>
    let v := viewOf t n
    if v.st = .active ∧ v.lastBeat + 50000 ≤ t.gtc then
      let u := modView t n fun v => { v with lastBeat := t.gtc }
      (neighbours t v).foldl (fun w d => ceCtl w n d (.heartbeat (rankOf v t.devid) t.gtc)) u
    else t) s)

/-- HEARTBEAT (R77). -/
def execHeartbeat (h : CeHdr) (_rank _gtc : Nat) (s : State) : Out :=
  match ceGate s h with
  | (t, none) => .next t
  | (t, some n) => .next (modView t n fun v => { v with beats := fset v.beats h.src t.gtc })

/-- A neighbour is due for suspicion: 400 µs without a heartbeat, or no live route (R77). -/
def suspectDue (s : State) (v : ViewSlot) (d : Nat) : Bool :=
  v.st == .active && (neighbours s v).contains d && !v.suspects.contains d &&
    (decide ((fget v.beats d).getD 0 + 400000 ≤ s.gtc) || routeOf s d == some none)

/-- SUSPICION_TIMEOUT (R77, R78). -/
def execSuspicionTimeout (slot rank : Nat) (s : State) : Out :=
  let v := viewOf s slot
  match v.view[rank]? with
  | some m => if suspectDue s v m.dev then .next (elect (suspectOwn s slot m.dev) slot) else .next s
  | none => .next s

/-- SUSPECT (R78): at a slot in ACTIVE it is a suspicion with this device as candidate; at one in CHANGING the ranks enter S,
and while PROPOSING the next round's list omits them. Of the reports that have come, the one of the least GTC and source goes
first. -/
def execSuspect (h : CeHdr) (report : Suspicion) (s : State) : Out :=
  match ceGate s h with
  | (t, none) => .next t
  | (t, some n) =>
    let v := viewOf t n
    let ds := report.ranks.filterMap fun r => v.view[r]?.map Member.dev
    match v.st, v.agree with
    | .active, _ =>
      let u := suspectAll t n ds
      if v.vid % 65536 = 0xFFFF then .next (stallSlot u n) else .next (proposeTo u n 0 (survivors (viewOf u n)))
    | .changing, _ => .next (suspectAll t n ds)
    | _, _ => .next t

/-- SUSPECT_TIMER (R80): no PROPOSE from the candidate within 2 ms. Adding the candidate to S, here and at the 2 ms of BOUND, is
a row of the table and no suspicion of R77, and writes no record (DESIGN CHOICE, log 51). -/
def execSuspectTimer (slot : Nat) (s : State) : Out :=
  let v := viewOf s slot
  match v.agree with
  | .changing c since =>
    if v.st ≠ .changing ∨ s.gtc < since + 2000000 then .next s
    else .next (elect (modView s slot fun v => if c = s.devid then v else { v with suspects := nins v.suspects c }) slot)
  | _ => .next s

/-- An acknowledgement binds; a proposal that adds a member is answered WAIT while a collective is in flight (R94). The
proposal has come, so the 2 ms in which a member waits for one from that candidate start again (R80). -/
def ackOrWait (s : State) (n : Nat) (h : CeHdr) (round : Nat) (list : List Member) : State :=
  let joins := addsMember (viewOf s n) list
  if joins && ceFlying s n then modView (ceCtl s n h.src (.wait round)) n fun v =>
    { v with holdColl := true,
             agree := match v.agree with
               | .changing c since => .changing c (if c = h.src then s.gtc else since)
               | a => a }
  else modView (ceCtl s n h.src (.ack round s.incarnation)) n fun v =>
    { v with st := .changing, agree := .bound h.src s.gtc, holdColl := v.holdColl || joins }

/-- PROPOSE (R80). -/
def execPropose (h : CeHdr) (round _newVid : Nat) (list : List Member) (s : State) : Out :=
  match ceGateAs s h true with
  | (t, none) => .next t
  | (t, some n) =>
    let v := viewOf t n
    let me := inView list t.devid
    let lower := decide (rankOf v h.src < rankOf v t.devid)
    if v.joining then
      if !me then .next t
      else match (match v.agree with | .bound c _ => if c = h.src then none else some c | _ => none) with
        | some c => .next (ceSend t h.src 0x10 0 h.vid (.busy c))
        | none => .next (modView (ceSend t h.src 0x10 0 h.vid (.ack round t.incarnation)) n fun v =>
            { v with agree := .bound h.src t.gtc })
    else if !me ∧ lower ∧ (v.st = .active ∨ v.st = .changing ∨ v.st = .stalled) then .next (excludeSlot t n)
    else if v.st ≠ .active ∧ v.st ≠ .changing then .next t
    else match v.agree with
      | .idle | .changing .. =>
        if me then .next (ackOrWait t n h round list)
        else .next (proposeTo t n 0 (ranked (list ++ v.view.filter fun m => m.dev == t.devid)))
      | .proposing _ _ acks .. =>
        if lower then
          let u := modView (acks.foldl (fun u d => ceCtl u n d .abandon) t) n fun v =>
            { v with agree := .changing h.src t.gtc }
          .next (ackOrWait u n h round list)
        else .next (ceCtl t n h.src (.busy t.devid))
      | .bound c _ =>
        if c ≠ h.src then .next (ceCtl t n h.src (.busy c))
        else if me then .next (ackOrWait t n h round list)
        else .next t

/-- CE_ACK (R80, R81). -/
def execCeAck (h : CeHdr) (round inc : Nat) (s : State) : Out :=
  match ceGate s h with
  | (t, none) => .next t
  | (t, some n) => match (viewOf t n).agree with
    | .proposing r list acks answers since nv =>
      if r = round ∧ list.any (fun m => m.dev == h.src && m.inc == inc) then
        .next (tryDecide (modView t n fun v => { v with agree := .proposing r list (nins acks h.src) answers since nv }) n)
      else .next t
    | _ => .next t

/-- A member has answered without acknowledging. -/
def answered (s : State) (n dev : Nat) : State :=
  modView s n fun v => match v.agree with
    | .proposing r l acks answers since nv => { v with agree := .proposing r l acks (nins answers dev) since nv }
    | _ => v

/-- BUSY (R80): a lower coordinator takes over; a higher one only counts as an answer. -/
def execBusy (h : CeHdr) (cand : Nat) (s : State) : Out :=
  match ceGate s h with
  | (t, none) => .next t
  | (t, some n) =>
    let v := viewOf t n
    match v.agree with
    | .proposing _ _ acks .. =>
      if rankOf v cand < rankOf v t.devid then
        .next (modView (acks.foldl (fun u d => ceCtl u n d .abandon) t) n fun v => { v with agree := .changing cand t.gtc })
      else .next (answered t n h.src)
    | _ => .next t

/-- WAIT (R94): it counts as an answer. -/
def execJoinWait (h : CeHdr) (round : Nat) (s : State) : Out :=
  match ceGate s h with
  | (t, none) => .next t
  | (t, some n) => match (viewOf t n).agree with
    | .proposing r .. => if r = round then .next (answered t n h.src) else .next t
    | _ => .next t

/-- ROUND_EXPIRY (R80, R78): members that gave no answer, and members suspected since, are dropped. -/
def execRoundExpiry (slot : Nat) (s : State) : Out :=
  let v := viewOf s slot
  match v.agree with
  | .proposing r list acks answers since _ =>
    if s.gtc < since + 1000000 then .next s
    else
      let keep (m : Member) : Bool := m.dev == s.devid ||
        ((acks.contains m.dev || answers.contains m.dev) && !v.suspects.contains m.dev)
      .next (proposeTo s slot (r + 1) (list.filter keep))
  | _ => .next s

/-- A member unbinds: CHANGING; a joiner, which holds no view, only waits for another proposal. -/
def unbind (s : State) (n : Nat) : State :=
  if (viewOf s n).joining then modView s n fun v => { v with agree := .idle } else changeTo s n

/-- ABANDON (R80). -/
def execAbandon (h : CeHdr) (s : State) : Out :=
  match ceGateAs s h true with
  | (t, none) => .next t
  | (t, some n) => match (viewOf t n).agree with
    | .bound c _ => if c = h.src then .next (unbind t n) else .next t
    | _ => .next t

/-- BOUND_TIMEOUT (R80): 2 ms with no packet from the coordinator. -/
def execBoundTimeout (slot : Nat) (s : State) : Out :=
  match (viewOf s slot).agree with
  | .bound c since =>
    if s.gtc < since + 2000000 then .next s
    else .next (unbind (modView s slot fun v => { v with suspects := nins v.suspects c }) slot)
  | _ => .next s

/-- COMMIT (R80, R76, R94): from the bound coordinator, or in answer to a FETCH. -/
def execCommit (h : CeHdr) (newVid : Nat) (members : List Member) (s : State) : Out :=
  match ceSlotOf s h.vid with
  | some n =>
    if (viewOf s n).fetching.contains h.src && newVid == h.vid && !staleInc (viewOf s n) h then
      .next (installView s n newVid members)
    else match ceGateAs s h true with
      | (t, none) => .next t
      | (t, some n) =>
        let v := viewOf t n
        if !inView members t.devid then .next (if v.joining then t else excludeSlot t n)
        else match v.agree with
          | .bound c _ => if c = h.src then .next (installView t n newVid members) else .next (ceDiscard t n)
          | _ => .next (ceDiscard t n)
  | none => .next (ceGate s h).1

/-- EXCLUDE (R80). -/
def execExclude (h : CeHdr) (_newVid : Nat) (s : State) : Out :=
  match ceGate s h with
  | (t, none) => .next t
  | (t, some n) =>
    if (viewOf t n).joining then .next t else .next (excludeSlot t n)

/-- STALL (R80): from the coordinator bound to, or from the candidate when unbound. -/
def execStall (h : CeHdr) (_round : Nat) (s : State) : Out :=
  match ceGate s h with
  | (t, none) => .next t
  | (t, some n) =>
    let v := viewOf t n
    let from_ : Bool := match v.agree with
      | .bound c _ => c == h.src
      | .proposing .. => false
      | _ => candidate v == h.src
    if (v.st = .active ∨ v.st = .changing) ∧ from_ then .next (stallSlot t n) else .next t

/-- FETCH (R76): answered with the COMMIT of the view held. -/
def execFetch (h : CeHdr) (s : State) : Out :=
  match ceGate s h with
  | (t, none) => .next t
  | (t, some n) => .next (ceCtl t n h.src (.commit (viewOf t n).vid (viewOf t n).view))

/-! ## Joining (R94) -/

/-- JOIN: JOIN_REQ to the lowest device of the old list that can be reached. The slot's VID is the id of the command from then
on, a JOIN_NAK or not (DESIGN CHOICE, log 67). -/
def execJoin (slot vid : Nat) (s : State) : Out :=
  let v := viewOf s slot
  if 16 ≤ slot ∨ hostShut s ∨ (v.st ≠ .free ∧ v.st ≠ .excluded) then .next s
  else
    let l := if v.st = .free then writtenList v else v.view
    let t := modView s slot fun v => { v with joining := true, vid := vid % 2 ^ 32, agree := .idle, suspects := [] }
    match (others s l).find? fun d => (match routeOf s d with | some (some _) => true | _ => false) with
    | some d => .next (ceCtl t slot d (.joinReq s.devid s.incarnation))
    | none => .next t

/-- JOIN_REQ: forwarded to the coordinator, refused, or proposed (R94); during a change the coordinator takes it up after the
install, a slot that holds no view refuses it, and a view of epoch 0xFFFF, which cannot change (R73), leaves it without an
answer (DESIGN CHOICE, log 67). The view id names the family only. One that a member forwards counts only at that member's
incarnation (R95). -/
def execJoinReq (h : CeHdr) (joiner inc : Nat) (s : State) : Out :=
  match ceSlotOf s h.vid with
  | none => .next (ceSend s joiner 0x10 0 h.vid .joinNak)
  | some n =>
    let v := viewOf s n
    if (if h.src = joiner then h.inc != inc else staleInc v h) then .next (ceDiscard s n)
    else if v.joining ∨ (v.st ≠ .active ∧ v.st ≠ .changing) then .next (ceSend s joiner 0x10 0 h.vid .joinNak)
    else if candidate v ≠ s.devid then .next (ceCtl s n (candidate v) (.joinReq joiner inc))
    else if (match recordedInc v joiner with | some k => decide (inc ≤ k) | none => false) then
      .next (ceSend s joiner 0x10 0 h.vid .joinNak)
    else if v.st = .changing then .next (modView s n fun v => { v with joins := v.joins ++ [⟨joiner, inc⟩] })
    else if v.vid % 65536 = 0xFFFF then .next s
    else
      let t := modView s n fun v => { v with holdColl := true }
      .next (proposeTo t n 0 (ranked (v.view.filter (fun m => m.dev != joiner) ++ [⟨joiner, inc⟩])))

/-- JOIN_NAK: the slot stays as it was. -/
def execJoinNak (h : CeHdr) (s : State) : Out :=
  match ceGateAs s h true with
  | (t, some n) => .next (modView t n fun v => { v with joining := false })
  | (t, none) => .next t

/-! ## Collective data (R76, R85) -/

/-- CE_DATA: for the view held, or kept until the view it belongs to is installed. -/
def execCeData (h : CeHdr) (d : CeData) (s : State) : Out :=
  match ceAhead s h with
  | some n =>
    let t := if (viewOf s n).joining then s else (ceGate s h).1
    .next { t with ceEarly := t.ceEarly ++ [(n, h.src, h.vid, d)] }
  | none => match ceGate s h with
    | (t, some n) => .next (ceDeliver t n h.src d)
    | (t, none) => .next t

end Sys2Proof.Machine
end

