-- ==== Sys2Proof/Machine/Engine.lean ====
section
/-!
DEFINITION. The ENG instructions: COLL, VIEWGET, MTRAP, ADMIT (R84, R85, R385 to R387).
-/

namespace Sys2Proof.Machine

/-- The operation a descriptor asks for, of the context in hand (R84). -/
def ceOpOf (s : State) (own adr w : Nat) : CeOp :=
  let c := cur s
  { id := s.seq, issuer := nameOf c, own := own, asid := c.asid, priv := c.priv, clock := c.pts, desc := adr,
    op := fld w 0 8, redop := fld w 8 8, ety := fld w 16 8, policy := fld w 24 2, slot := fld w 26 4, cls := fld w 30 2,
    viewid := fld w 32 32, count := fld w 64 64, input := fld w 128 64, output := fld w 192 64, root := fld w 256 16,
    tag := fld w 288 32, held := true, vid0 := 0, ran := 0, start := [], live := [], past := false, changed := false, reweight := false, ready := false,
    inp := [], parts := [], got := [], pieces := [], chunks := [], sent := [] }

/-- A descriptor that R84 does not allow: a value outside its set, a reserved byte, POLICY 3, or OUTPUT equal to INPUT
where it may not be. -/
def ceBad (o : CeOp) (w : Nat) : Bool :=
  decide (4 < o.op) || (decide (o.op < 2) && decide (3 < o.redop)) || decide (5 < o.ety) || o.policy == 3 ||
  fld w 272 16 != 0 || fld w 320 192 != 0 || (decide (o.op < 3) && o.input == o.output)

/-- The CE takes an operation (R81, R82, R84, R94): ended at once, held, or started. -/
def ceAccept (s : State) (o : CeOp) (bad : Bool) : State :=
  let t := { s with ceOps := s.ceOps ++ [o], seq := s.seq + 1 }
  let v := viewOf t o.slot
  if bad then ceAbort t o 9
  else match v.st with
    | .free => ceAbort t o 7
    | .stalled => ceAbort t o 2
    | .excluded => ceAbort t o 6
    | .forming | .changing => t
    | .active => if v.holdColl then t else ceStart t o

/-- COLL (R385): release(DEV), then the CE reads the descriptor; a full CE parks the context (R85). Poison met in the
descriptor is a memory fault. -/
def execColl (a : XReg) (s : State) : Out :=
  let adr := (rx s a).toNat
  let own := ownCl (cur s)
  match combOperand own adr 64 with
  | .error e => .next (takeTrap s e)
  | .ok (cl, o) =>
    if spillBase s cl < o + 64 then .next (takeTrap s (protTrap adr .read false))
    else afterRelease s .dev <|
      if 32 ≤ (s.ceOps.filter (!·.past)).length then .next (park s .coll)
      else
        let t := modCur s (·.released .dev)
        let w := combNat t cl o 64
        let op := ceOpOf t own adr w
        let u := next (combDetect t cl o 64)
        match combLoadOk u adr cl o 64 with
        | .error _ => .next (ceAbort { u with ceOps := u.ceOps ++ [op], seq := u.seq + 1 } op 8)
        | .ok _ => .next (ceAccept u op (ceBad op w))

/-- VIEWGET (R386): VSTAT and VID, or the entry of a rank. -/
def execViewget (d a : XReg) (s : State) : Out :=
  let w := (rx s a).toNat
  let n := fld w 0 4
  let v := viewOf s n
  .next (wbX s d (if bit w 4 then (v.view[fld w 16 10]?.map memberWord).getD 0 else wd (vstat s n * 2 ^ 32 + v.vid)))

/-- MTRAP (R386): clearing a slot's bit discards its pending VIEW_CHANGE (R188). -/
def execMtrap (a : XReg) (s : State) : Out :=
  let w := rx s a
  if w.toNat / 2 ^ 16 ≠ 0 then .next (takeTrap s (badTarget w.toNat))
  else .next (next (modCur s fun c => { c with mtrapm := w.setWidth 16, pendView := c.pendView &&& w.setWidth 16 }))

/-- ADMIT (R387, R25, R26): the earlier grant ends; n = 0 parks nothing. -/
def execAdmitS (a b : XReg) (s : State) : Out :=
  let n := (rx s a).toNat
  let l := (rx s b).toNat
  if n / 2 ^ 32 ≠ 0 then .next (takeTrap s (badTarget n))
  else if 3 < l then .next (takeTrap s (badTarget l))
  else
    let t := endGrant s (.ctx s.cx)
    if n = 0 then .next (next t)
    else .next (askGrant (park t .forGrant) (clDie (slotCl s.cx)) (.ctx s.cx) (cur s).cls n l)

end Sys2Proof.Machine
end

