-- ==== Sys2Proof/Machine/Power.lean ====
section
/-!
DEFINITION. Power and heat: windows of the bellows (R22, R23), the end of grants (R26), clock steps (R19, R20, R32),
laggard boost (R153 to R155), the ranking table and barrel slots (R30 to R32), and the migration of a context (R150,
R151, R201).
-/

namespace Sys2Proof.Machine

/-! ## Windows and grants (R23, R26) -/

/-- Clusters of a die that exist. -/
def dieClusters (d : Nat) : List Nat := ((List.range 64).map (d * 64 + ·)).filter clusterOk

/-- GRANT_END (R26): n cycles have passed. A grant of the TE ends with its segment instead. -/
def execGrantEnd (h : Holder) (s : State) : Out :=
  let ended (g : Option Grant) : Bool := match g with | some g => decide (g.endCyc ≤ holderCyc s h) | none => false
  match h with
  | .ctx n => if ended (ctxOf s n).grant then .next (endGrant s h) else .next s
  | .anvil av k => if ended (avCtx (avOf s av) k).grant then .next (endGrant s h) else .next s
  | .te .. => .next s

/-! ## Clock steps (R20, R32, R33) -/

/-- The step a cluster is to hold: at or below CLKCAP.STEP, and with no boost above the limit that heat has set (R20, R32,
R154, R157). -/
def clockTarget (c : Cluster) : Nat :=
  if 0 < c.heat then Nat.min c.base c.cap else Nat.min (Nat.min c.base c.cap + c.boost) (Nat.min c.cap 14)

/-- A change to the step a cluster is to hold is ordered; it completes later (R20). -/
def orderStep (s : State) (cl : Nat) : State :=
  let c := clOf s cl
  let t := clockTarget c
  if t = c.order.getD c.cur then s
  else
    let u := modCl s cl fun c => { c with order := some t }
    if c.order.isNone then later u (.clockStepChangeDone cl) else u

/-- CLOCK_STEP_CHANGE_DONE (R20). -/
def execClockStepChangeDone (cluster : Nat) (s : State) : Out :=
  .next (modCl s cluster fun c => match c.order with
    | some k => { c with cur := k, order := none }
    | none => c)

/-- The cluster drops one clock step (R32). -/
def dropStep (s : State) (cl : Nat) : State :=
  orderStep (modCl s cl fun c => { c with base := Nat.min c.base c.cap - 1, heat := c.heat + 1 }) cl

/-! ## Laggard boost (R153 to R155) -/

def Wait.isBwait : Wait → Bool
  | .bwait .. => true
  | _ => false

/-- Members of a group that sleep at a barrier slot. -/
def sleepers (s : State) (cl off g : Nat) : List Nat :=
  (waiting s (· == .bwait cl off)).filter fun n => (groupsOf (ctxOf s n)).contains g

/-- Clusters of a die that hold a member of a group, active or idle, that is not in BWAIT. -/
def stragglers (s : State) (d g : Nat) : List Nat :=
  (dieClusters d).filter fun k => s.ctxs.any fun (p : Nat × Ctx) =>
    slotCl p.1 == k && (groupsOf p.2).contains g && !p.2.wait.isBwait

/-- Steps that the boost of one slot gives a cluster of a die (R154); at COST 0 the cap of four (DESIGN CHOICE, log 33). -/
def boostSteps (s : State) (d cl : Nat) (b : BoostRec) (k : Nat) : Nat :=
  let e := dieOf s d
  let m := stragglers s d b.group
  let asleep := ((sleepers s cl b.off b.group).filter fun n => clDie (slotCl n) == d).length
  if !e.boostEn || asleep == 0 || !m.contains k || b.ended.contains k then 0
  else if m.length * e.boostCost = 0 then 4
  else Nat.min 4 (e.boostSleep * asleep / (m.length * e.boostCost))

/-- A core of a cluster reads above THERM.HOT. -/
def clusterHot (s : State) (k : Nat) : Bool :=
  (List.range 8).any fun j => decide ((dieOf s (clDie k)).hot < (coreOf s (k * 8 + j)).temp)

/-- Every boost ends for the clusters of a die that are hot now (R155). -/
def endHotBoosts (s : State) (d : Nat) : State :=
  let hot := (dieClusters d).filter (clusterHot s)
  if hot.isEmpty then s
  else { s with clusters := s.clusters.map fun (p : Nat × Cluster) =>
    (p.1, { p.2 with boosts := p.2.boosts.map fun b => { b with ended := hot.foldl nins b.ended } }) }

/-- Every boost in force: the cluster of its slot and its record. -/
def allBoosts (s : State) : List (Nat × BoostRec) := s.clusters.flatMap fun (p : Nat × Cluster) => p.2.boosts.map fun b => (p.1, b)

/-- A die's bellows recomputes the steps it gives; a cluster takes the largest (R155). -/
def boostDie (s : State) (d : Nat) : State :=
  let s := endHotBoosts s d
  let bs := allBoosts s
  (dieClusters d).foldl (fun t k =>
    let n := bs.foldl (fun m (b : Nat × BoostRec) => Nat.max m (boostSteps s d b.1 b.2 k)) 0
    if n = (clOf t k).boost then t else orderStep (modCl t k fun c => { c with boost := n }) k) s

def boostAll (s : State) : State := (List.range 4).foldl boostDie s

/-- A core whose active contexts all wait in BWAIT is clock-gated (R154). -/
def gateCores (s : State) : State :=
  let ks := (s.ctxs.filter fun (p : Nat × Ctx) => p.2.active).map fun p => slotCore p.1
  let asleep (k : Nat) : Bool := s.ctxs.all fun (p : Nat × Ctx) =>
    slotCore p.1 != k || !p.2.active || p.2.wait.isBwait
  (ks.filter asleep).foldl (fun t k => modCore t k fun c => { c with gated := true }) s

/-- The bank's condition on a slot: live, members known, three quarters of them waiting (R154). -/
def boostOn (s : State) (cl off : Nat) : Bool :=
  let w := barGet s cl off
  let members := (groupOf s (fld w 64 8)).members
  (clOf s cl).bars.contains off && bit w 62 && decide (members ≠ 0) && decide (3 * members ≤ 4 * fld w 16 15)

/-- BOOST (R154). -/
def execBoost (cluster off : Nat) (s : State) : Out :=
  if !boostOn s cluster off || (clOf s cluster).boosts.any (·.off == off) then .next s
  else
    let g := fld (barGet s cluster off) 64 8
    .next (boostAll (gateCores (modCl s cluster fun c => { c with boosts := c.boosts ++ [{ off := off, group := g, ended := [] }] })))

/-- RELEASE (R155): the clusters return to the step they would otherwise hold. -/
def execRelease (cluster off : Nat) (s : State) : Out :=
  if boostOn s cluster off then .next s
  else .next (boostAll (modCl s cluster fun c => { c with boosts := c.boosts.filter (·.off != off) }))

/-- What the die meter and the cluster meters of a die read together (R35). -/
def dieEnergy (s : State) (d : Nat) : Nat := ((dieClusters d).map fun c => (clOf s c).meter).sum + (dieOf s d).meter

/-- The meters of a die count on by what its units have drawn (R34, log 5). -/
def meterWindow (s : State) (d : Nat) : State :=
  let t := (dieClusters d).foldl (fun u c => let (f, v) := draw u; meterCl v c (Config.energy f)) s
  let (f, t) := draw t
  meterDie t d (Config.energy f)

/-- The unadmitted term of R23: what the meters have counted since the last boundary, less the metered energy of what
grants paid for (R35). -/
def unadmitted (s : State) (d f : Nat) : Nat := dieEnergy s d - (dieOf s d).mark - Config.admitted f

/-- WINDOW_BOUNDARY (R22, R23, R35, R155): the budget as written applies, the level refills less the unadmitted energy of
the window that ends, boosts are worked out again. -/
def execWindowBoundary (die : Nat) (s : State) : Out :=
  if 4 ≤ die ∨ !s.gtcRun then .next s
  else
    let b := s.watts * 500
    let (f, t) := draw s
    let t := meterWindow t die
    let t := modDie t die fun e =>
      { e with level := min e.level ((b / 2 : Nat) : Int) + (b : Int) - (unadmitted t die f : Int), b := b, win := e.win + 1,
               mark := dieEnergy t die }
    .next (bellows (boostDie t die) die)

/-- The first window opens with level B (R23). -/
def firstWindow (s : State) (die : Nat) : State :=
  let b := s.watts * 500
  bellows (modDie s die fun e => { e with level := (b : Int), b := b, win := e.win + 1 }) die

/-! ## Heat (R30 to R32) -/

/-- Idle slots of a cluster. -/
def idleSlots (s : State) (cl : Nat) : List Nat := ((List.range 128).map (cl * 128 + ·)).filter (idle s)

/-- THERMAL_TABLE_REFRESH (R30): sixteen entries of the die's own clusters, the coolest first. -/
def execThermalTableRefresh (die : Nat) (temps : List (Nat × Nat)) (s : State) : Out :=
  if 4 ≤ die then .next s
  else
    let own := temps.filter fun p => clusterOk p.1 && clDie p.1 == die
    let l := (own.mergeSort fun a b => decide (a.2 ≤ b.2)).take 16
    .next (modDie s die fun e => { e with ranks := l.map fun p =>
      { cluster := p.1, temp := p.2 % 256, free := Nat.min 31 (idleSlots s p.1).length } })

/-- Disabled slots of a core. -/
def offCount (k : Core) : Nat := ((List.range 16).filter fun i => k.off.getLsbD i).length

/-- A slot of a core is being given up: its context is on its way out, or is saved first (R31, R157). -/
def givingUp (s : State) (core : Nat) : Bool :=
  (List.range 16).any fun i => let c := ctxOf s (core * 16 + i); c.active && (c.moving.isSome || c.offAfter)

/-- The slot R31 chooses: the highest-numbered enabled one, never slot 0, whose context is not class 0. -/
def hotSlot (s : State) (core : Nat) : Option Nat :=
  ((List.range 15).map fun i => core * 16 + (15 - i)).find? fun n =>
    let c := ctxOf s n
    slotOn s n && !(c.active && (c.cls == 0 || c.dying || c.moving.isSome || c.offAfter))

/-- A barrel slot is disabled. -/
def disableSlot (s : State) (n : Nat) : State :=
  modCore s (slotCore n) fun k => { k with off := k.off ||| BitVec.ofNat 16 (2 ^ (n % 16)) }

/-- A forwarding table with an entry for a name: the one it has, rewritten, or else the first free one (R151). -/
def fwdPut (l : FMap Fwd) (name : Nat) (e : Fwd) : FMap Fwd :=
  match l.find? fun p => p.2.of name with
  | some p => fset l p.1 e
  | none => match lowest 64 fun i => (fget l i).isNone with
    | some i => fset l i e
    | none => l

/-- A context starts to move to a cluster: its origin sets MOVING and sends a flush marker on every class, and the seal
deadlines of its cells pause (R151, R201). -/
def startMove (s : State) (n dst : Nat) : State :=
  let name := nameOf (ctxOf s n)
  let e : Fwd := { gen := name / 65536 % 4096, origin := name % 128, here := n, moving := true }
  let t := modCl s (name / 128 % 256) fun c => { c with fwd := fwdPut c.fwd name e }
  let t := modCtx (pauseOf t n) n fun c => { c with moving := some ([0, 1, 2, 3], dst) }
  (List.range 4).foldl (fun u k => later u (.flushMarker name k)) t

/-- The context of a slot is to move: to the first ranked cluster with a free context other than its own; without one, or
with a full forwarding table at its origin, the cluster drops a clock step (R31, R32, R151). -/
def displace (s : State) (n : Nat) : State :=
  let name := nameOf (ctxOf s n)
  let dst := (dieOf s (clDie (slotCl n))).ranks.find? fun r => decide (1 ≤ r.free) && r.cluster != slotCl n
  let room := (fwdEntry s name).isSome || decide ((clOf s (name / 128 % 256)).fwd.length < 64)
  match dst with
  | some r => if room then startMove s n r.cluster else dropStep s (slotCl n)
  | none => dropStep s (slotCl n)

/-- THERMAL_SLOT_DISABLE (R31, R32): a core reads above THERM.HOT. -/
def execThermalSlotDisable (core temp : Nat) (s : State) : Out :=
  let cl := core / 8
  if !clusterOk cl then .next s
  else
    let s := modCore s core fun k => { k with temp := temp }
    let s := boostDie s (clDie cl)
    let k := coreOf s core
    let soon := match k.lastOff with | some g => decide (s.gtc < g + 100000) | none => false
    if decide (temp ≤ (dieOf s (clDie cl)).hot) || soon then .next s
    else
      let t := modCore s core fun k => { k with lastOff := some s.gtc }
      if 12 ≤ offCount k then .next (dropStep t cl)
      -- slots go one at a time, so that no more than 12 are ever disabled
      else if givingUp s core then .next s
      else match hotSlot s core with
        | none => .next s
        | some n =>
          let c := ctxOf t n
          if !c.active then .next (idleNotices (disableSlot t n) n)
          else if c.preempt.isSome then .next (modCtx t n fun c => { c with offAfter := true })
          else .next (displace t n)

/-- THERMAL_SLOT_ENABLE (R32): a core reads below THERM.HOT − 5. -/
def execThermalSlotEnable (core temp : Nat) (s : State) : Out :=
  let cl := core / 8
  if !clusterOk cl then .next s
  else
    let s := modCore s core fun k => { k with temp := temp }
    let s := boostDie s (clDie cl)
    let k := coreOf s core
    if (dieOf s (clDie cl)).hot ≤ temp + 5 then .next s
    else
      let ready (o : Option Nat) : Bool := match o with | some g => decide (g + 1000000 ≤ s.gtc) | none => true
      let t := match lowest 16 fun i => k.off.getLsbD i with
        | some i =>
          if ready k.lastOn then
            idleNotices (modCore s core fun k =>
              { k with off := k.off &&& ~~~(BitVec.ofNat 16 (2 ^ i)), lastOn := some s.gtc }) (core * 16 + i)
          else s
        | none => s
      if ready k.lastRegain && decide ((clOf t cl).base < (clOf t cl).cap) then
        let t := modCore t core fun k => { k with lastRegain := some s.gtc }
        .next (orderStep (modCl t cl fun c => { c with base := c.base + 1, heat := c.heat - 1 }) cl)
      else .next t

/-! ## Migration (R151, R201) -/

/-- FLUSH_MARKER (R151): the marker of a class reaches the context's place. After the last the context stands down as
for a pre-emption, and its image leaves. -/
def execFlushMarker (origin cls : Nat) (s : State) : Out :=
  match whereIs s origin with
  | none => .next s
  | some n => match (ctxOf s n).moving with
    | none => .next s
    | some (l, d) =>
      let l' := l.filter (· != cls)
      let t := modCtx s n fun c => { c with moving := some (l', d) }
      if l ≠ [] ∧ l' = [] then .next (later t (.imageInstall origin)) else .next t

/-- The context may leave: all markers have come and it stands at a boundary. -/
def mayLeave (c : Ctx) : Bool :=
  (match c.moving with | some ([], _) => true | _ => false) && c.active && !c.dying && atBoundary c

/-- The context as it is installed in a slot: what the image holds on top of what belongs to the slot (R197, R201). -/
def Ctx.moved (slot c : Ctx) : Ctx :=
  { c with gen := slot.gen, grpValid := slot.grpValid, grp := slot.grp, grpHeld := slot.grpHeld, drift := 0,
           lastIssue := none, readySince := none, grant := none, moving := none, preempt := none, offAfter := false }

/-- Restart entries of a pre-empted issuer move to the head of another cluster's TE queue under numbers of that TE, in issue
order; the remote writes that they have not had acknowledged follow (R201, R247). -/
def moveCmds (s : State) (old new name : Nat) (c : Ctx) : State :=
  let (ids, cmds) := preemptedOf s old name
  let base := (clOf s new).teNext
  let num := cmds.zipIdx.map fun (p : TeCmd × Nat) => (p.1.id, base + p.2)
  let t := modCl s old (·.freed ids)
  let queued := cmds.zipIdx.map fun (p : TeCmd × Nat) => { p.1.requeued c s.seq with id := base + p.2 }
  let t := modCl t new fun k => { k with teNext := base + cmds.length, te := queued ++ k.te }
  let follow (p : Nat × TagRec) : Nat × TagRec := match p.2.kind with
    | .te cl id => match (if cl = old then num.find? (fun (q : Nat × Nat) => q.1 == id) else none) with
      | some q => (p.1, { p.2 with kind := .te new q.2 })
      | none => p
    | _ => p
  let t := { t with tags := t.tags.map follow }
  if cmds.isEmpty then t else later t (.teCommandStart new)

/-- Copies in an L1 that a context with these clocks must not read: older than what it has stored or loaded elsewhere (R236,
DEDUCED: the manual gives the outcome, not the means; log 74). -/
def freshCopies (c : Ctx) (l : List L1Copy) : List L1Copy := l.filter fun k => decide (Nat.max c.mts c.mrts ≤ k.rts)

/-- Spilled messages enter another cluster's area as they come, in order of arrival (R166, R170). -/
def spillInto (s : State) (cl : Nat) (l : List Spilled) : State :=
  modCl s cl fun c =>
    let all := inOrder Spilled.num (c.spill ++ l)
    { c with spill := all, spillPeak := Nat.max c.spillPeak all.length }

/-- What the cluster that a context leaves had spilled for it goes with it, unless that is its origin (R151, R166): the manual
names no refusal there, so it goes in whatever the room (log 35). -/
def spillFollows (s : State) (old dst org name : Nat) : State :=
  let mine := (clOf s old).spill.filter (·.dest == name)
  if old = org ∨ old = dst ∨ mine.isEmpty then s
  else spillInto (modCl s old fun c => { c with spill := c.spill.filter (·.dest != name) }) dst mine

/-- At the end of a move the origin forwards what it still holds, in order, as far as the area of the new place has room
(R151, R166). -/
def forwardHeld (s : State) (dst org name : Nat) : State :=
  let held := (clOf s org).spill.filter (·.dest == name)
  let go := held.take ((clOf s dst).spillSize * 256 - (clOf s dst).spill.length)
  if dst = org ∨ go.isEmpty then s
  else spillInto (modCl s org fun c => { c with spill := c.spill.filter fun e => !go.any fun g => g.num == e.num }) dst go

/-- IMAGE_INSTALL (R151, R201): once the store buffer has drained, the context takes an idle slot of the cluster chosen,
the old slot is disabled, and the origin forwards to the new place. Its spilled messages follow (DESIGN CHOICE, log 35). -/
def execImageInstall (origin : Nat) (s : State) : Out :=
  match whereIs s origin with
  | none => .next s
  | some n => match (ctxOf s n).moving with
    | none => .next s
    | some (_, dst) =>
      if !mayLeave (ctxOf s n) then .next s
      else
        let t := standDown s n
        if !(ctxOf t n).sb.isEmpty then .next t
        else match idleSlots t dst with
          | [] => .next t
          | free =>
            let (f, t) := draw t
            let m := free.getD (Config.victim f % free.length) 0
            let old := slotCl n
            let org := origin / 128 % 256
            let t := tePreempt t old origin
            let c := ctxOf t n
            let t := modCtx t m fun slot => slot.moved c
            let t := modCore t (slotCore m) fun k => { k with l1d := freshCopies c k.l1d, l1i := freshCopies c k.l1i }
            let t := modCtx t n fun d =>
              { d.applyGrp with
                active := false, wait := .none, waitSince := none, parked := false, moving := none, lastIssue := none, readySince := none }
            let t := disableSlot (modCore t (slotCore n) fun k => k.applyBits (n % 16)) n
            let here (p : Nat × Fwd) : Nat × Fwd :=
              if p.2.of origin then (p.1, { p.2 with here := m, moving := false }) else p
            let t := modCl t org fun c => { c with fwd := c.fwd.map here }
            let t := forwardHeld (refill (spillFollows t old dst org origin) m origin 8) dst org origin
            let t := moveCmds t old dst origin c
            .next (idleNotices (idleNotices t n) m)

end Sys2Proof.Machine
end

