-- ==== Sys2Proof/Machine/Timers.lean ====
section
/-!
DEFINITION. Timers: drift (R238), mask overrun (R169), launch deadlines (R128, R129), the timeouts of waits (R171, R206,
R334), seal deadlines of cells (R212), and rebasing (R252 to R255). A timer that is not due changes nothing.
-/

namespace Sys2Proof.Machine

/-! ## Counters of a context -/

/-- DRIFT_TICK (R238): PTS rises by 1 at 1,024 cycles. -/
def execDriftTick (cxa : Nat) (s : State) : Out :=
  let c := ctxOf s cxa
  if !c.active || decide (c.drift < 1024) then .next s
  else .next (tsCheck (modCtx s cxa fun c => { c with drift := c.drift - 1024, pts := c.pts + 1 }) (c.pts + 1))

/-- MSGMASK_OVERRUN (R169): the mask is cleared; the trap is taken at the next boundary. -/
def execMsgmaskOverrun (cxa : Nat) (s : State) : Out :=
  let c := ctxOf s cxa
  if !c.active || !c.mhMask || decide (c.masked < 4096) then .next s
  else .next (modCtx s cxa fun c => { c with mhMask := false, masked := 0, pendMask := true })

/-- The deadline of an activation is reached. -/
def deadlineDue (s : State) (d : Option DeadlineRec) : Option DeadlineRec :=
  d.filter fun r => !r.done && decide (r.gtc ≤ s.gtc)

/-- The deadline of the context in a slot. -/
def deadlineCtx (s : State) (n : Nat) : State :=
  let c := ctxOf s n
  match (if c.active then deadlineDue s c.deadline else none) with
  | none => s
  | some r =>
    modCtx (deadlineRecord s (nameOf c) (c.nameCxa % 32768) r.gtc c.tag false r.trap) n fun c =>
      { c with deadline := some { r with done := true }, pendDl := c.pendDl || r.trap }

/-- The deadline of a SAVED context: the trap becomes pending in its image (R199, R197). -/
def deadlineSaved (s : State) (n : Nat) : State :=
  match fget s.saved n with
  | none => s
  | some sv => match deadlineDue s sv.deadline with
    | none => s
    | some r =>
      let t := deadlineRecord s (sv.gen * 65536 + sv.cxa) (sv.cxa % 32768) r.gtc sv.tag false r.trap
      let t := { t with saved := fset t.saved n { sv with deadline := some { r with done := true } } }
      if r.trap then
        let a := imageAddr t n + 0x348
        writeUnder t 0 a (leBytes 8 (setFld (leNat (readUnder t 0 a 8)) 57 1 1))
      else t

/-- DEADLINE (R128, R129). -/
def execDeadline (cxa : Nat) (s : State) : Out := .next (deadlineSaved (deadlineCtx s cxa) cxa)

/-! ## Timeouts of waits -/

/-- Cycles since a waiting instruction was issued. -/
def waitedFor (s : State) (n : Nat) (limit : Nat) : Bool :=
  match (ctxOf s n).waitSince with
  | some t => decide (t + limit ≤ cycOf s n)
  | none => false

/-- FE_TIMEOUT (R334): the request is withdrawn. -/
def execFeTimeout (cxa : Nat) (s : State) : Out :=
  match (ctxOf s cxa).wait with
  | .fe va =>
    if waitedFor s cxa (2 ^ 20) then .next (takeTrapAt (leaveWait s cxa) cxa { cause := 0x07, tval := va, abnd := true })
    else .next s
  | _ => .next s

/-- SEND_TIMEOUT (R171, R132): the message or the record is not sent. TVAL of a record with no name is free (log 20). -/
def execSendTimeout (cxa : Nat) (s : State) : Out :=
  let trap (t : State) (v : Nat) : State := takeTrapAt (leaveWait t cxa) cxa { cause := 0x08, tval := v, abnd := true }
  if !waitedFor s cxa (2 ^ 16) then .next s
  else match (ctxOf s cxa).wait with
    | .send dest .. => .next (trap s dest)
    | .launch _ r _ =>
      if r.form = .named then .next (trap s r.target)
      else let (f, t) := draw s; .next (trap t ((Config.freeWord f).toNat % 2 ^ 40))
    | _ => .next s

/-- DEFERRED_SIGNAL_TIMEOUT (R206): the AMO is removed from its bank. -/
def execDeferredSignalTimeout (cxa : Nat) (s : State) : Out :=
  match (ctxOf s cxa).wait with
  | .combAmo _ _ va =>
    if !waitedFor s cxa (2 ^ 20) then .next s
    else .next (takeTrapAt (leaveWait (dropDeferred s cxa) cxa) cxa { cause := 0x07, tval := va, abnd := true })
  | _ => .next s

/-- REMOTE_AMO_BANK_TIMEOUT (R206): the bank removes the AMO and answers with a NACK of cause FE_TIMEOUT. -/
def execRemoteAmoBankTimeout (cluster tag : Nat) (s : State) : Out :=
  let now := (clOf s cluster).cyc
  let due (d : DefSig) : Bool := match d.who with
    | .remote p => p.tag == tag && decide (d.since + 2 ^ 20 ≤ now)
    | _ => false
  let gone := (clOf s cluster).defer.filter due
  let t := if gone.isEmpty then s else modCl s cluster fun c => { c with defer := c.defer.filter (!due ·) }
  .next (gone.foldl (fun u d =>
    let u := deferRefill u cluster (bankOf d.off)
    match d.who with
    | .remote p => nack u p 0x07
    | _ => u) t)

/-! ## Seal deadlines (R212) -/

/-- The deadline of an OPEN cell has run out, and no POST is ahead of it. -/
def expired (c : Cell) : Bool := (c.dlx || (c.dlv && !c.dlp && c.dlrem == 0)) && c.st == .opn && c.apost.isNone

/-- Its expiry can be taken: no counted write is on its way (R244). -/
def expiryDue (c : Cell) : Bool := expired c && c.counted == 0

/-- CELL_DEADLINE_EXPIRY (R212): STS := CTS, TOUT := 1, one entry with TIMEOUT to DLTGT, retried while the queue is
full. One that has to wait keeps its place (R214). -/
def execCellDeadlineExpiry (cluster index : Nat) (s : State) : Out :=
  let c := cellOf s cluster index
  if !expiryDue c then .next (if expired c then modCell s cluster index fun c => { c with dlx := true } else s)
  else match targetOf c.dltgt with
    | .error _ => .next (sealCell s cluster index c.cts [] true)
    | .ok g =>
      if tqRoom s g.1 g.2 = 0 then
        .next (modCell (sealCell s cluster index c.cts [] true) cluster index fun c =>
          { c with refcnt := c.refcnt + 1, tpost := some (s.gtc + 40) })
      else .next (sealCell s cluster index c.cts [g] true)

/-- TIMER_SEAL_POST_RETRY (R212): every 64 mesh cycles, 40 ns. -/
def execTimerSealPostRetry (cluster index : Nat) (s : State) : Out :=
  let c := cellOf s cluster index
  match c.tpost with
  | none => .next s
  | some g =>
    if s.gtc < g then .next s
    else match targetOf c.dltgt with
      | .error _ => .next s
      | .ok q =>
        if tqRoom s q.1 q.2 = 0 then .next (modCell s cluster index fun c => { c with tpost := some (s.gtc + 40) })
        else
          let t := tqPut s q.1 q.2 (handleOf cluster index c.cgen) (1 + 2 * b2n c.zero)
          .next (modCell t cluster index fun c => { c with tpost := none })

/-! ## Rebasing (R252, R253) -/

/-- clamp of R253. -/
def clampTs (o : Nat) : Nat := o - 0x800000

def clampMsg (m : Msg) : Msg :=
  if msgTsv m then { m with w0 := wd (setFld m.w0.toNat 0 24 (clampTs (msgTs m))) } else m

def clampRec (r : LRec) : LRec := { r with ts := clampTs r.ts }
def TeCmd.clamp (m : TeCmd) : TeCmd := { m with clock := clampTs m.clock, wmax := clampTs m.wmax }

def Wait.clamp : Wait → Wait
  | .send d m r => .send d (clampMsg m) r
  | .launch c r f => .launch c (clampRec r) f
  | w => w

/-- A context moves to the new base. -/
def Ctx.clamp (c : Ctx) : Ctx :=
  { c with pts := clampTs c.pts, mts := clampTs c.mts, mrts := clampTs c.mrts,
           sb := c.sb.map fun e => { e with pts := clampTs e.pts }, mailbox := c.mailbox.map clampMsg,
           loads := c.loads.map fun r => { r with snap := { r.snap with mrts := clampTs r.snap.mrts } },
           wait := c.wait.clamp, preempt := c.preempt.map clampRec }

/-- L1 copies: those whose lease lies below the new base are dropped. -/
def clampCopies (l : List L1Copy) : List L1Copy :=
  (l.filter fun c => decide (0x800000 ≤ c.rts)).map fun c => { c with rts := clampTs c.rts, wts := clampTs c.wts }

/-- A cluster's cells, TE, queues and spill area. -/
def Cluster.clamp (c : Cluster) : Cluster :=
  { c with cells := c.cells.map fun (p : Nat × Cell) => (p.1, { p.2 with sts := clampTs p.2.sts, cts := clampTs p.2.cts }),
           te := c.te.map TeCmd.clamp,
           restarts := c.restarts.map fun (p : Nat × Restart) => (p.1, { p.2 with cmd := p.2.cmd.map TeCmd.clamp }),
           lq := c.lq.map clampRec, arrived := c.arrived.map clampRec, spill := c.spill.map fun e => { e with msg := clampMsg e.msg } }

/-- What is in flight between agents is converted on its way (R252). -/
def clampEvent : Instr → Instr
  | .messageDelivery d m h => .messageDelivery d (clampMsg m) h
  | .launchQueueEntry c r => .launchQueueEntry c (clampRec r)
  | .spawnPacketArrival c r => .spawnPacketArrival c (clampRec r)
  | .forwardedRecordArrival c r => .forwardedRecordArrival c (clampRec r)
  | .returnedRecordArrival r => .returnedRecordArrival (clampRec r)
  | i => i

/-- STS of the LIVE barrier slots and circular buffers of a cluster. -/
def clampComb (s : State) (cl : Nat) : State :=
  let t := (clOf s cl).bars.foldl (fun u o =>
    let w := barGet u cl o
    barPut u cl o (setFld w 72 24 (clampTs (fld w 72 24)))) s
  (clOf t cl).cbs.foldl (fun u o => combPutNat u cl (o + 20) 3 (clampTs (combNat u cl (o + 20) 3))) t

/-- Every agent has moved to the base of this epoch. -/
def movedBase (s : State) : Bool := s.epoch == decide (s.btsN % 2 = 1)

/-- REBASE_MOVE (R253): every agent moves, as one action (log 13). -/
def execRebaseMove (s : State) : Out :=
  if !s.rebaseActive || movedBase s then .next s
  else
    let t := s.clusters.foldl (fun u (p : Nat × Cluster) => clampComb u p.1) s
    let home (h : Home) : Home := { h with wts := clampTs h.wts, rts := clampTs h.rts }
    let avload (l : AvLoad) : AvLoad := { l with clock := clampTs l.clock }
    .next (later { t with
      btsN := t.btsN + 1,
      home := t.home.map fun (p : Nat × Home) => (p.1, home p.2),
      sliceTs := t.sliceTs.map fun (p : Nat × Nat) => (p.1, clampTs p.2),
      dies := t.dies.map fun (p : Nat × Die) => (p.1, { p.2 with fits := clampTs p.2.fits }),
      hts := clampTs t.hts,
      ctxs := t.ctxs.map fun (p : Nat × Ctx) => (p.1, p.2.clamp),
      cores := t.cores.map fun (p : Nat × Core) => (p.1, { p.2 with l1d := clampCopies p.2.l1d, l1i := clampCopies p.2.l1i }),
      clusters := t.clusters.map fun (p : Nat × Cluster) => (p.1, p.2.clamp),
      anvils := t.anvils.map fun (p : Nat × Anvil) => (p.1, { p.2 with loads := p.2.loads.map avload }),
      launchBuf := t.launchBuf.map clampRec,
      ceOps := t.ceOps.map fun o => { o with clock := clampTs o.clock },
      cePast := t.cePast.map fun o => { o with clock := clampTs o.clock },
      agenda := t.agenda.map clampEvent, due := t.due.map clampEvent } .rebaseComplete)

/-- REBASE_COMPLETE (R252, R255): a trigger that arose meanwhile starts the next one. -/
def execRebaseComplete (s : State) : Out :=
  if !s.rebaseActive || !movedBase s then .next s
  else
    let t := { s with rebaseActive := false, rebaseCount := (s.rebaseCount + 1) % 2 ^ 32, rebaseAgain := false }
    .next (if s.rebaseAgain then later { t with rebaseActive := true, epoch := !t.epoch } .rebaseMove else t)

end Sys2Proof.Machine
end

