-- ==== Sys2Proof/Machine/Fabric.lean ====
section
/-!
DEFINITION. The Umjan fabric (R47 to R72): flits with replay and credits, the link states, forwarding, packets that
arrive for this device, answers to packets it has sent, writes lost with a port, and GTC synchronisation (R61, R62).
-/

namespace Sys2Proof.Machine

/-! ## Issuers of outstanding packets (R67, R68, R71) -/

/-- Where the issuer of a packet stands: active in a slot, SAVED, or gone (R160). -/
inductive Stand where
  | at_ (n : Nat) | saved (n : Nat) | gone
  deriving DecidableEq, Repr, Inhabited

def standOf (s : State) (name : Nat) : Stand :=
  match whereIs s name with
  | some n => .at_ n
  | none => match savedAs s name with
    | some n => .saved n
    | none => .gone

/-- An outstanding packet has been answered or lost: the TEs that hold a command of its issuer queued again look at it
(R247). -/
def tagDone (s : State) (tag : Nat) (r : TagRec) : State :=
  let waits (k : Nat × Cluster) : Bool := k.2.te.any fun m => m.issuer == r.issuer && m.after != 0
  (s.clusters.filter waits).foldl (fun t k => teKick t k.1) { s with tags := fdel s.tags tag }

/-- One outstanding write of a name fewer. Parks behind a link look again. -/
def unackedDown (s : State) (name : Nat) : State :=
  match standOf s name with
  | .at_ n => wakeIf (modCtx s n fun c => { c with unacked := c.unacked - 1 }) (· == .fenceSys)
  | .saved n => match fget s.saved n with
    | some v => { s with saved := fset s.saved n { v with unacked := v.unacked - 1 } }
    | none => s
  | .gone => s

/-- Lost writes of a name towards a device (R71). -/
def addLost (l : List Lost) (dev : Nat) : List Lost :=
  if l.any (·.dev == dev) then l.map fun e => if e.dev = dev then { e with count := e.count + 1 } else e
  else l ++ [{ dev := dev, count := 1 }]

/-- A write of a name towards a device has been lost. -/
def noteLost (t : State) (name dev : Nat) : State :=
  match standOf t name with
  | .at_ n => modCtx t n fun c => { c with lost := addLost c.lost dev }
  | .saved n => match fget t.saved n with
    | some v => { t with saved := fset t.saved n { v with lost := addLost v.lost dev } }
    | none => t
  | .gone => t

/-- An unacknowledged write of a name has been lost. -/
def lostWrite (s : State) (name dev : Nat) : State := noteLost (unackedDown s name) name dev

/-- An answer that finds no issuer is a dead letter (R167): the sender field names the port, the word is the packet's ADDR.
A packet of the own device came through no port: its source number is free (log 29). -/
def answerDead (s : State) (port : Nat) (r : TagRec) (p : Packet) : State :=
  let (src, t) := if port < 12 then (unitSrc 5 port, s)
    else let (f, u) := draw s; ((Config.freeWord f).toNat % 2 ^ 15 + 2 ^ 15, u)
  deadLetter t (r.issuer / 128 % 256) r.issuer src p.addr

/-- The command a TE packet belongs to, running or in the restart table. -/
def tagCmd (s : State) (cl id : Nat) : Option (TeCmd × Option Nat) :=
  match teGet s cl id with
  | some m => some (m, none)
  | none => ((clOf s cl).restarts.find? fun (p : Nat × Restart) => (p.2.cmd.map TeCmd.id) == some id).bind
      fun (p : Nat × Restart) => p.2.cmd.map fun m => (m, some p.1)

/-- A command with one remote write acknowledged. -/
def teAcked (s : State) (cl id : Nat) : State :=
  match tagCmd s cl id with
  | none => s
  | some (m, none) =>
    let t := tePut s cl { m with unacked := m.unacked - 1 }
    if m.moved then later t (.teCommandComplete cl id) else t
  | some (m, some i) => modCl s cl fun c =>
      { c with restarts := c.restarts.map fun p =>
        if p.1 = i then (p.1, { p.2 with cmd := some { m with unacked := m.unacked - 1 } }) else p }

/-- A command that has not completed ends with a cause (R67); false when it had completed. -/
def teRefused (s : State) (cl id cause : Nat) : State × Bool :=
  match tagCmd s cl id with
  | none => (s, false)
  | some (m, none) => (teFail s cl m cause, true)
  | some (m, some i) => (teXdone (teRestartFree s cl i) cl m cause, true)

/-! ## Remote AMOs of a SAVED context (R196, R197) -/

/-- The reply is written into the image: the destination register, and the pc moves past the instruction. -/
def imageReply (s : State) (n rd : Nat) (v : Word) : State :=
  let a := imageAddr s n
  let st := leNat (readUnder s 0 (a + 0x348) 8)
  let reg := if bit st 36 && decide (24 ≤ rd) then a + 0x200 + 8 * (rd - 24) else a + 8 * (rd - 1)
  let t := if rd = 0 then s else writeUnder s 0 reg (leBytes 8 v.toNat)
  writeUnder t 0 (a + 0xF8) (leBytes 8 ((leNat (readUnder t 0 (a + 0xF8) 8) + 4) % 2 ^ 64))

/-- The AMO of a SAVED context is no longer outstanding; a free slot resumes it (R200). -/
def amoSettled (s : State) (n : Nat) : State :=
  match fget s.saved n with
  | none => s
  | some v =>
    let a := imageAddr s n + 0x3F8
    let t := writeUnder s 0 a (leBytes 8 (setFld (leNat (readUnder s 0 a 8)) 34 1 0))
    let t := { t with saved := fset t.saved n { v with amo := none } }
    if (ctxOf t n).active then t else idleNotices (resumeSaved t n) n

/-- take_trap of R182 in the image of a SAVED context, whose AMO has ended in a trap (R66, R72, R196): TL, TEPC, TCAUSE, TVAL
and the pc as in the registers; a trap that would kill discards the image. -/
def imageTrap (s : State) (n cause tval : Nat) : State :=
  let a := imageAddr s n
  let q (o : Nat) : Nat := leNat (readUnder s 0 (a + o) 8)
  let put (t : State) (o v : Nat) : State := writeUnder t 0 (a + o) (leBytes 8 (v % 2 ^ 64))
  let st := q 0x348
  let tl := fld st 32 2
  if bit st 34 ∨ 2 ≤ tl ∨ (tl = 0 ∧ q 0x368 = 0) then killSaved s n cause tval
  else
    let w := cause % 256 + b2n (bit st 36) * 512 + 1024
    let t := put s 0x348 (setFld st 32 2 (tl + 1))
    let t := put t (0x370 + 8 * tl) (q 0xF8)
    let t := put t (0x388 + 8 * tl) tval
    let t := put t 0x380 (setFld (q 0x380) (32 * tl) 32 w)
    amoSettled (put t 0xF8 (q 0x368 + 0x40 * tl)) n

/-- An AMO ends in a trap of its context (R66, R72). -/
def amoTrapped (s : State) (tag : Nat) (r : TagRec) (cause tval : Nat) : State :=
  match standOf s r.issuer with
  | .at_ n => match (ctxOf s n).wait with
    | .remoteAmo k _ _ =>
      if k = tag then takeTrapAt s n { cause := cause, tval := tval, abnd := true } else s
    | _ => s
  | .saved n => imageTrap s n cause tval
  | .gone => s

/-! ## Flits (R48, R51) -/

/-- A packet as it travels (R51): the header and data in whole units. How the CE lays out a body is not given (log 9). -/
def packetBytes (p : Packet) : List Byte :=
  let d := ((p.ce.map Config.ceEncode).getD p.data).take 224
  let n := (d.length + 15) / 16
  leBytes 8 p.addr.toNat ++
  leBytes 8 (p.tag % 2 ^ 16 + n * 2 ^ 16 + p.source % 4096 * 2 ^ 24 + p.dest % 4096 * 2 ^ 36 + p.hops % 8 * 2 ^ 51 +
    p.cls % 4 * 2 ^ 54 + p.kind % 256 * 2 ^ 56) ++
  d ++ List.replicate (16 * n - d.length) 0

/-- The packet at the start of bytes of a payload (R51). -/
def packetAt (bs : List Byte) : Packet :=
  let h := leNat ((bs.drop 8).take 8)
  let n := 16 * fld h 16 4
  { kind := fld h 56 8, cls := fld h 54 2, hops := fld h 51 3, dest := fld h 36 12, source := fld h 24 12, tag := fld h 0 16,
    addr := wd (leNat (bs.take 8)), data := (bs.drop 16).take n,
    resv := fld h 48 3 != 0 || fld h 20 4 != 0 || decide (bs.length < 16 + n), ce := none }

/-- The packets of a payload: bytes of zero end it (R48). -/
def packetsIn : Nat → List Byte → List Packet
  | 0, _ => []
  | k + 1, bs =>
    if (bs.take 16).all (· == 0) then []
    else packetAt bs :: packetsIn k (bs.drop (16 + 16 * fld (leNat ((bs.drop 8).take 8)) 16 4))

/-- The packets of a flit. -/
def flitPackets (bytes : List Byte) : List Packet := packetsIn 15 (bytes.take 240)

/-- A flit (R48). The polynomial of its CRC is not given (log 9). -/
def flitBytes (payload : List Byte) (seq ack : Nat) (credit : List Nat) (fkind : Nat) : List Byte :=
  let c (k : Nat) : Nat := Nat.min 255 (credit.getD k 0) * 2 ^ (8 + 8 * k)
  let body := payload ++ List.replicate (240 - payload.length) 0 ++
    leBytes 8 (fkind % 256 + c 0 + c 1 + c 2 + c 3 + ack % 4096 * 2 ^ 40 + seq % 4096 * 2 ^ 52)
  body ++ leBytes 8 (Config.crc64 body).toNat

/-- LINKCTL of a flit. -/
def flitCtl (bytes : List Byte) : Nat := leNat ((bytes.drop 240).take 8)

/-- A flit is sound: its CRC holds and its FKIND is not reserved (R48). -/
def flitOk (bytes : List Byte) : Bool :=
  bytes.length == 256 && leNat (bytes.drop 248) == (Config.crc64 (bytes.take 248)).toNat && decide (flitCtl bytes % 256 ≤ 2)

/-! ## Link states (R53 to R56) -/

def PortSt.code : PortSt → Nat
  | .down => 0 | .training => 1 | .up => 2 | .retrain => 3 | .failed => 4

/-- One outstanding packet is lost with its port (R71, R72). A remote AMO traps with the device, a count of 0 and bit 12 clear
(DEDUCED, log 30). -/
def lostTag (s : State) (tag : Nat) (r : TagRec) : State :=
  let t := tagDone s tag r
  match r.kind with
  | .write | .rsd => lostWrite t r.issuer r.dest
  | .te cl id => match teRefused t cl id 0x15 with
    | (u, true) => u
    | (u, false) => noteLost u r.issuer r.dest
  | .amo _ _ => amoTrapped t tag r 0x15 r.dest

/-- A discarded MSG packet of this device is counted in its sender's cluster (R56, R167). -/
def lostMsg (s : State) (p : Packet) : State :=
  if p.kind ≠ 8 ∨ p.source ≠ s.devid then s
  else
    let w := leNat (p.data.take 8)
    let src := fld w 36 28
    deadLetter s (src / 128 % 256) (p.addr.toNat % 2 ^ 28) src (wd (leNat ((p.data.drop 8).take 8)))

/-- Numbered flits that the peer has not acknowledged having received. -/
def unacked (q : Port) : List (Nat × List Byte) :=
  q.replay.filter fun f => decide ((f.1 + 4096 - q.ackSeq - 1) % 4096 < 2048)

/-- Packets that the peer has not acknowledged having received. -/
def unsent (q : Port) : List Packet := (unacked q).flatMap (fun f => flitPackets f.2) ++ q.txq

/-- A port gives up its replay buffer and its queues (R56, R71). -/
def dropPort (s : State) (port : Nat) : State :=
  let q := portOf s port
  let lost := s.tags.filter fun (p : Nat × TagRec) => p.2.port == port
  let t := modPort s port fun q => { q with replay := [], txq := [], waited := [0, 0, 0, 0], resend := none, ask := false }
  let t := (unsent q).foldl lostMsg t
  lost.foldl (fun u (p : Nat × TagRec) => lostTag u p.1 p.2) t

/-- A port changes state: an event record; a lost parent clears SYNCED and leaves the counter free-running (R53, R62). -/
def linkTo (s : State) (port : Nat) (st : PortSt) : State :=
  let q := portOf s port
  let t := modPort s port fun q =>
    { q with st := st, since := s.gtc, retrains := if st = .retrain then sat (q.retrains + 1) 8 else q.retrains }
  let t := event t (unitSrc 5 port) 0x10
    [(16, 1, port), (17, 1, q.st.code), (18, 1, st.code), (20, 2, (portOf t port).peer)]
  let t := if q.st = .up ∧ s.gtcEn ∧ s.gtcParent = port then { t with gtcLost := true, gtcSynced := false, gtcExchanges := 0, slew := 0, syncSince := none }
    else t
  let t := if st = .failed ∨ (st = .down ∧ (q.st = .up ∨ q.st = .retrain)) then dropPort t port else t
  wakeIf t (· == .fenceSys)

/-- LINKCTL_ENABLE (R53, R57): a device with no id trains no port. -/
def execLinkctlEnable (port : Nat) (s : State) : Out :=
  if 12 ≤ port ∨ hostShut s then .next s
  else
    let t := modPort s port fun q => { q with enable := true }
    .next (if (portOf s port).st = .down ∧ s.devid ≠ 0xFFF then linkTo t port .training else t)

/-- LINKCTL_DISABLE (R53). -/
def execLinkctlDisable (port : Nat) (s : State) : Out :=
  if 12 ≤ port ∨ hostShut s then .next s
  else
    let t := modPort s port fun q => { q with enable := false }
    match (portOf s port).st with
    | .training | .up | .retrain => .next (linkTo t port .down)
    | _ => .next t

/-- LINKCTL_RESET (R55, R54). Written to a port that is not FAILED it has no effect, and RETRAINS stays (DESIGN CHOICE, log
66). -/
def execLinkctlReset (port : Nat) (s : State) : Out :=
  if 12 ≤ port ∨ hostShut s ∨ (portOf s port).st ≠ .failed then .next s
  else .next (linkTo (modPort s port fun q => { q with retrains := 0 }) port .down)

/-- LANE_LOCK_LOSS (R53). -/
def execLaneLockLoss (port : Nat) (s : State) : Out :=
  if port < 12 ∧ (portOf s port).st = .up then .next (linkTo s port .retrain) else .next s

/-- TRAINING_COMPLETE (R53): a fresh link has no flits behind it and every credit. -/
def execTrainingComplete (port peer : Nat) (s : State) : Out :=
  if 12 ≤ port ∨ (portOf s port).st ≠ .training then .next s
  else .next (linkTo (modPort s port fun q =>
    { q with peer := peer % 4096, txSeq := 0, rxSeq := 4095, rxGap := false, ackSeq := 4095, reqRun := 0,
             credits := [64, 64, 64, 64], owed := [0, 0, 0, 0], replay := [], resend := none, ask := false }) port .up)

/-- TRAINING_TIMEOUT (R53): 100 ms. -/
def execTrainingTimeout (port : Nat) (s : State) : Out :=
  if port < 12 ∧ (portOf s port).st = .training ∧ (portOf s port).since + 100000000 ≤ s.gtc then .next (linkTo s port .failed)
  else .next s

/-- RETRAIN_COMPLETE (R53): flits after ACKSEQ go out again from the replay buffer. -/
def execRetrainComplete (port : Nat) (s : State) : Out :=
  if port < 12 ∧ (portOf s port).st = .retrain then
    .next (linkTo (modPort s port fun q =>
      { q with reqRun := 0, rxGap := false, ask := false, resend := (unacked q).head?.map Prod.fst }) port .up)
  else .next s

/-- LINK_DEAD_TIMEOUT (R53, R55): units of 100 µs since the entry into RETRAIN. -/
def execLinkDeadTimeout (port : Nat) (s : State) : Out :=
  if port < 12 ∧ (portOf s port).st = .retrain ∧ (portOf s port).since + s.deadTimeout * 100000 ≤ s.gtc then
    .next (linkTo s port .failed)
  else .next s

/-! ## Sending (R49, R50) -/

/-- The class of the next flit: one that has waited 64 flit times, else the lowest with a packet and a credit. -/
def txClass (q : Port) : Option Nat :=
  let has (k : Nat) : Bool := q.txq.any (·.cls == k) && decide (0 < q.credits.getD k 0)
  (lowest 4 fun k => has k && decide (64 ≤ q.waited.getD k 0)).orElse fun _ => lowest 4 has

/-- Flit times that each class has waited, when the flit sent is of a class, or of none. -/
def waitedOn (q : Port) (k : Option Nat) : List Nat :=
  let has (j : Nat) : Bool := q.txq.any (·.cls == j) && decide (0 < q.credits.getD j 0)
  (List.range 4).map fun j => if k = some j ∨ !has j then 0 else q.waited.getD j 0 + 1

/-- The packets of a class that one flit takes: those at the front, while they fit (R48, R51, log 9). -/
def fillFlit (k : Nat) : List Packet → Nat → List Packet
  | [], _ => []
  | p :: t, room =>
    if p.cls ≠ k then fillFlit k t room
    else if (packetBytes p).length ≤ room then p :: fillFlit k t (room - (packetBytes p).length) else []

/-- The queue without its first `n` packets of a class. -/
def dropClass (k : Nat) : List Packet → Nat → List Packet
  | l, 0 => l
  | [], _ => []
  | p :: t, n + 1 => if p.cls = k then dropClass k t n else p :: dropClass k t (n + 1)

/-- A numbered flit goes out and stands in the replay buffer (R50). It carries the credits owed. -/
def Port.numbered (q : Port) (payload : List Byte) (fkind : Nat) : Port :=
  let f := flitBytes payload q.txSeq q.rxSeq q.owed fkind
  { q with txSeq := (q.txSeq + 1) % 4096, owed := [0, 0, 0, 0], wire := f, resend := none,
           replay := (q.replay ++ [(q.txSeq, f)]).drop (q.replay.length - 511) }

/-- The flit that a port that is UP sends now (R49, R50): a replay request, a flit of the replay buffer, a data flit, an idle
flit when nothing but credits is to go back. -/
def Port.pump (q : Port) : Port :=
  if q.ask then
    { q with ask := false, waited := waitedOn q none,
             wire := flitBytes [] (q.rxSeq + 1) q.rxSeq [0, 0, 0, 0] 2 }
  else match q.resend.bind fun n => q.replay.find? (·.1 == n) with
    | some f =>
      let n := (f.1 + 1) % 4096
      { q with waited := waitedOn q none, wire := f.2, resend := if n = q.txSeq then none else some n }
    | none => match txClass q with
      | some k =>
        let ps := fillFlit k q.txq 240
        { q.numbered (ps.flatMap packetBytes) 0 with
            txq := dropClass k q.txq ps.length, credits := q.credits.set k (q.credits.getD k 0 - 1),
            waited := waitedOn q (some k) }
      | none => if q.owed.all (· == 0) then { q with waited := waitedOn q none } else { q.numbered [] 1 with waited := waitedOn q none }

def pumpPort (s : State) (port : Nat) : State :=
  if (portOf s port).st = .up then modPort s port Port.pump else s

/-- A replay is asked for (R50): the flits from SEQ on go out again; flits that have left the buffer, or 16 requests without an
advance, retrain the link. An own request that may have been lost is repeated (log 9). -/
def replayAsked (s : State) (port seq : Nat) : State :=
  let q := portOf s port
  let n := seq % 4096
  if q.st ≠ .up then s
  else
    let t := modPort s port fun q =>
      { q with reqRun := q.reqRun + 1, resend := if n = q.txSeq then none else some n, ask := q.ask || q.rxGap }
    if 16 ≤ q.reqRun + 1 ∨ (n ≠ q.txSeq ∧ !q.replay.any (·.1 == n)) then linkTo t port .retrain else t

/-- REPLAY_REQUEST (R50). -/
def execReplayRequest (port seq : Nat) (s : State) : Out := if port < 12 then .next (replayAsked s port seq) else .next s

/-! ## Packets that arrive (R51, R52, R59) -/

/-- The event of a CE packet; a packet of bytes is read as the CE reads it (R76, log 9). -/
def ceArrival (p : Packet) : Instr :=
  let (h, b) := p.ce.getD (Config.ceDecode p.kind p.data)
  match b with
  | .hello d => .hello h d
  | .heartbeat r g => .heartbeat h r g
  | .suspect r => .suspect h r
  | .propose r v l => .propose h r v l
  | .ack r i => .ceAck h r i
  | .busy c => .busy h c
  | .abandon => .abandon h
  | .commit v l => .commit h v l
  | .exclude v => .exclude h v
  | .stall r => .stall h r
  | .fetch => .fetch h
  | .joinReq j i => .joinReq h j i
  | .joinNak => .joinNak h
  | .wait r => .joinWait h r
  | .data d => .ceData h d

/-- The stamp packet of an exchange: the sender's GTC in ADDR (R61, log 9). -/
def syncPacket (s : State) (dev : Nat) : Packet :=
  { kind := 0x12, cls := 0, hops := 0, dest := dev, source := s.devid, tag := 0, addr := wd s.gtc, data := [], resv := false,
    ce := none }

/-- An exchange of stamps has come back (R61, R62): the estimate is the parent's stamp and half the round trip; a step
forward, or a change of rate, never backwards. A step over the end of a window opens the next one. -/
def gtcSynced (s : State) (stamp roundTrip : Nat) : State :=
  if !s.gtcEn || !s.gtcRun || decide (12 ≤ s.gtcParent) || (portOf s s.gtcParent).st != .up then s
  else
    let e := (stamp + roundTrip / 2) % 2 ^ 64
    let n := s.gtcExchanges + 1
    let t := { s with gtcExchanges := n, gtcSynced := s.gtcSynced || (decide (16 ≤ n) && decide (s.gtc ≤ e)) }
    if s.gtc + 20 < e then
      let t := { t with gtc := e, slew := 0 }
      if e / 1000 = s.gtc / 1000 then t else (List.range 4).foldl (fun u d => later u (.windowBoundary d)) t
    else { t with slew := (e : Int) - (s.gtc : Int) }

/-- A GTC_SYNC packet (R61): from the parent it ends the exchange in progress, whose round trip is the time since its stamp
left; any other peer is answered with the own stamp. -/
def syncArrival (s : State) (port : Nat) (p : Packet) : State :=
  if s.gtcEn ∧ s.gtcParent = port then
    match s.syncSince with
    | some g => gtcSynced { s with syncSince := none } p.addr.toNat (s.ticks - g)
    | none => s
  else txPut s port (syncPacket s p.source)

/-- A packet for another device goes on, or is refused with a NACK to its source (R59). -/
def forwardPkt (s : State) (port : Nat) (p : Packet) : State :=
  match (if 4 ≤ p.hops then none else routeOf s p.dest) with
  | some (some q) => txPut s q { p with hops := p.hops + 1 }
  | _ =>
    let r : Packet := { kind := 7, cls := p.cls, hops := 0, dest := p.source, source := s.devid, tag := p.tag, addr := p.addr,
                        data := leBytes 16 0x16, resv := false, ce := none }
    if p.kind ≠ 7 ∧ p.source = s.devid then later s (.inNack 0xFF r)
    else match (if p.kind = 7 then none else routeOf s p.source) with
    | some (some q) => txPut s q r
    | _ => modPort s port fun q => { q with noroute := sat (q.noroute + 1) 16 }

/-- A known packet kind (R52). -/
def knownKind (k : Nat) : Bool := (1 ≤ k && k ≤ 8) || k == 0x10 || k == 0x11 || k == 0x12

def packetIn (s : State) (port : Nat) (p : Packet) : State :=
  if p.resv || !knownKind p.kind then modPort s port fun q => { q with badpkt := sat (q.badpkt + 1) 16 }
  else if p.dest ≠ s.devid then forwardPkt s port p
  else if p.kind = 0x10 ∨ p.kind = 0x11 then later s (ceArrival p)
  else if p.kind = 0x12 then syncArrival s port p
  else later s (arrival port p)

/-- ACKSEQ of a flit that has come: an advance ends a run of requests (R50). -/
def Port.acked (q : Port) (ack : Nat) : Port :=
  let d := (ack + 4096 - q.ackSeq) % 4096
  if d = 0 ∨ 2048 ≤ d then q else { q with ackSeq := ack, reqRun := 0 }

/-- A flit that has come in order (R48 to R50): its credits and ACKSEQ count; a data flit owes a credit of its class. -/
def Port.accepted (q : Port) (bytes : List Byte) : Port :=
  let w := flitCtl bytes
  let k := ((flitPackets bytes).head?.map Packet.cls).getD 0
  { (q.acked (fld w 40 12)) with
      rxSeq := fld w 52 12, rxGap := false,
      credits := (List.range 4).map fun k => Nat.min 64 (q.credits.getD k 0 + fld w (8 + 8 * k) 8),
      owed := if w % 256 = 0 then q.owed.set k (q.owed.getD k 0 + 1) else q.owed }

/-- FLIT_RECEIVE (R48 to R50): a flit that fails its CRC or has a reserved FKIND is dropped and asked for, and so is every
later one until it arrives; one that has come before is dropped. Replay requests stand outside the order (log 9). -/
def execFlitReceive (port : Nat) (bytes : List Byte) (s : State) : Out :=
  let q := portOf s port
  let w := flitCtl bytes
  let seq := fld w 52 12
  if 12 ≤ port ∨ q.st ≠ .up then .next s
  else if !flitOk bytes then .next (modPort s port fun q => { q with rxGap := true, ask := true })
  else if w % 256 = 2 then .next (replayAsked (modPort s port fun q => q.acked (fld w 40 12)) port seq)
  else if seq = (q.rxSeq + 1) % 4096 then
    let t := modPort s port fun q => q.accepted bytes
    .next (if w % 256 = 0 then (flitPackets bytes).foldl (fun u p => packetIn u port p) t else t)
  else if (seq + 4096 - q.rxSeq) % 4096 < 2048 ∧ !q.rxGap then
    .next (modPort s port fun q => { q with rxGap := true, ask := true })
  else .next s

/-! ## Inbound memory traffic (R63 to R66, R69) -/

/-- The NACK of a packet that came by a port; without a route it is dropped and counted (R59). -/
def refuse (s : State) (port : Nat) (p : Packet) (cause : Nat) : State :=
  if p.source = s.devid then nack s p cause
  else match routeOf s p.source with
    | some (some _) => nack s p cause
    | _ => if port < 12 then modPort s port fun q => { q with noroute := sat (q.noroute + 1) 16 } else s

/-- FITS of a die covers a timestamp (R69). -/
def raiseFits (s : State) (die ts : Nat) : State := modDie s die fun d => { d with fits := Nat.max d.fits ts }
/-- Die of a line's home. -/
def homeDie (s : State) (line : Nat) : Nat := sliceOf s line / 16

/-- The pieces of an inbound range: comb of the cluster named, 0xFF naming cluster 0, or lines translated at U under
INBOUND.ASID (R63). -/
def inPieces (s : State) (va n : Nat) (acc : Acc) : Res (List Part) :=
  (cuts (n / 64 + 2) va 0 n).mapM fun p =>
    let v := va + p.1
    if isComb va then (combAddr 0 va).bind fun (c, o) =>
      if 2 ^ 22 < o + n then .error (badTarget v)
      else .ok { pa := combKey c (o + p.1), n := p.2, at_ := p.1, key := 0, cls := 0, sys := false }
    else if 2 ^ 48 ≤ v then .error (xlateTrap v acc 0)
    else (translate s [] s.inboundAsid .u v acc).map fun x =>
      { pa := x.pa, n := p.2, at_ := p.1, key := x.key, cls := x.cls, sys := x.sys }

/-- The walks of an inbound range: no TLB serves it, so each reads its entries at their homes (R219, R225). -/
def inWalk (s : State) (va n : Nat) : State :=
  (cuts (n / 64 + 2) va 0 n).foldl (fun t p =>
    if isComb va || decide (2 ^ 48 ≤ va + p.1) then t else walkFill t t.inboundAsid (va + p.1)) s

/-- The line that a walk of an inbound range waits for (R107). -/
def inPend (s : State) (va n : Nat) : Option Nat :=
  if isComb va then none else (cuts (n / 64 + 2) va 0 n).findSome? fun p => walkPend s [] s.inboundAsid (va + p.1)

/-- Whether two inbound writes of one device meet in a 16-byte unit (R68). -/
def unitsMeet (p q : Packet) : Bool :=
  let a := p.addr.toNat % 2 ^ 48
  let b := q.addr.toNat % 2 ^ 48
  p.source == q.source && decide (a / 16 * 16 < b + q.data.length) && decide (b / 16 * 16 < a + p.data.length)

/-- The line for which an earlier write to one of the same 16-byte units waits: this one waits behind it (R68). -/
def waitsAhead (s : State) (p : Packet) : Option Nat :=
  (s.backInv.find? fun b => b.2.retry.any fun | .inWrite _ q => unitsMeet p q | _ => false).map Prod.fst

/-- A part of an inbound write performs (R64). -/
def inPut (s : State) (p : Part) (bs : List Byte) : State :=
  if p.isComb then combStore s p.combCl p.combOff bs
  else
    let (ts, t) := homeStore s p 0 bs
    raiseFits t (homeDie t p.line) ts

/-- IN_WRITE (R63, R64): ACK once every unit has performed at home. -/
def execInWrite (port : Nat) (p : Packet) (s : State) : Out :=
  let va := p.addr.toNat % 2 ^ 48
  let n := p.data.length
  if !s.inboundEn then .next (refuse s port p 0x05)
  else match (inPend s va n).orElse fun _ => waitsAhead s p with
  | some line => .next (biWait s line (.inWrite port p))
  | none =>
    let t := inWalk s va n
    match inPieces s va n .write with
    | .error e => .next (refuse t port p e.cause)
    | .ok ps => match ps.findSome? (teWriteStop t va) with
      | some (.inl line) => .next (biWait t line (.inWrite port p))
      | some (.inr e) => .next (refuse t port p e.cause)
      | none => .next (answer (ps.foldl (fun t q => inPut t q ((p.data.drop q.at_).take q.n)) t) p 6 [])

/-- IN_CPUT (R65, R213): one packet, written whole with its rows marked, or not at all. -/
def execInCput (port : Nat) (p : Packet) (s : State) : Out :=
  let h := fld p.addr.toNat 32 32
  let off := p.addr.toNat % 2 ^ 16
  let cl := handleCl h
  let i := handleIx h
  let c := cellOf s cl i
  let n := p.data.length
  if !s.inboundEn then .next (refuse s port p 0x05)
  else if fld h 0 8 ≠ 0 ∨ !clusterOk cl then .next (refuse s port p 0x16)
  else if c.st ≠ .opn ∨ c.dlx ∨ c.cgen ≠ handleGen h then .next (refuse s port p 0x09)
  else if c.extent < off + n then .next (refuse s port p 0x18)
  else if spillBase s cl < c.base * 512 + off + n then .next (refuse s port p 0x05)
  else if n = 0 then .next (answer s p 6 [])
  else
    let first := off / (c.pitch * 16)
    let last := (off + n - 1) / (c.pitch * 16)
    let fits := (dieOf s (clDie cl)).fits
    let t := modCell (combStore s cl (c.base * 512 + off) p.data) cl i fun c =>
      { c with valid := c.valid ||| BitVec.ofNat 32 (2 ^ (last + 1) - 2 ^ first), cts := Nat.max c.cts fits }
    .next (answer t p 6 [])

/-- A remote AMO at its target (R66). A width other than 4 or 8, or an address that is not aligned to it, is refused as
MISALIGN (log 29). -/
def inAmo (s : State) (port : Nat) (p : Packet) (op : AmoOp) (again : Instr) : State :=
  let va := p.addr.toNat % 2 ^ 48
  let w := leNat ((p.data.drop 8).take 1)
  let b := wd (leNat (p.data.take 8))
  if !s.inboundEn then refuse s port p 0x05
  else if (w ≠ 4 ∧ w ≠ 8) ∨ va % w ≠ 0 then refuse s port p 0x03
  else match inPend s va w with
  | some line => biWait s line again
  | none =>
    let r := inPieces s va w .amo
    let s := inWalk s va w
    match r with
    | .error e => refuse s port p e.cause
    | .ok [q] =>
      if q.isComb then
        let cl := q.combCl
        let off := q.combOff
        let t := combDetect s cl off w
        match combStoreOk t va cl off w with
        | .error e => refuse t port p e.cause
        | .ok _ =>
          if (clOf t cl).poison.contains (off / 8) then refuse t port p 0x0C
          else if (boundTo t cl off).isSome && !combFull t cl (off / 8) then refuse t port p 0x09
          else amoArrive t cl { off := off, op := op, width := w, b := b, exp := 0, who := .remote p, entered := false,
                                since := (clOf t cl).cyc }
      else if !isHbm q.pa then
        if s.atomics then
          let t := l2Evict s q.line
          let old := leNat (memRead t.mem q.pa w)
          amoReply { t with mem := memWrite t.mem q.pa (leBytes w (amoVal op w old b.toNat 0)) } p old
        else refuse s port p 0x05
      else if biBlocks s q.line then biWait s q.line again
      else
        let t := lineDetect s q.line
        if t.poison.contains q.line then refuse t port p 0x0C
        else
          let old := leNat (readUnder t q.key q.pa w)
          let (ts, t) := homeStore t q 0 (leBytes w (amoVal op w old b.toNat 0))
          amoReply (raiseFits t (homeDie t q.line) ts) p old
    | .ok _ => refuse s port p 0x03

/-- IN_AMO_ADD and IN_AMO_SWAP (R66). -/
def execInAmoAdd (port : Nat) (p : Packet) (s : State) : Out := .next (inAmo s port p .add (.inAmoAdd port p))
def execInAmoSwap (port : Nat) (p : Packet) (s : State) : Out := .next (inAmo s port p .swap (.inAmoSwap port p))

/-! ## Answers (R66 to R68, R167) -/

/-- A posted write of a context is acknowledged. -/
def ackWrite (s : State) (port : Nat) (r : TagRec) (p : Packet) : State :=
  match standOf s r.issuer with
  | .gone => answerDead s port r p
  | _ => unackedDown s r.issuer

/-- IN_ACK (R68). -/
def execInAck (port : Nat) (p : Packet) (s : State) : Out :=
  match fget s.tags p.tag with
  | none => .next s
  | some r =>
    let t := tagDone s p.tag r
    match r.kind with
    | .write | .rsd => .next (ackWrite t port r p)
    | .te cl id => .next (teAcked t cl id)
    | .amo _ _ => .next s

/-- IN_AMO_REPLY (R66, R340): the old value, or the acknowledgement of an RSD. -/
def execInAmoReply (port : Nat) (p : Packet) (s : State) : Out :=
  match fget s.tags p.tag with
  | none => .next s
  | some r =>
    let t := tagDone s p.tag r
    match r.kind with
    | .rsd => .next (ackWrite t port r p)
    | .amo rd w =>
      let v := amoRd w (leNat (p.data.take w))
      match standOf t r.issuer with
      | .at_ n =>
        if (ctxOf t n).wait = .remoteAmo p.tag rd w then
          .next (modCtx t n fun c => (c.setX (Fin.ofNat 32 rd) v).goto (c.pc + 4))
        else .next t
      | .saved n => .next (amoSettled (imageReply t n rd v) n)
      | .gone => .next (answerDead t port r p)
    | _ => .next s

/-- The NACK message of R67, at the class of the packet refused (R164). -/
def nackMessage (s : State) (port cause : Nat) (r : TagRec) : State :=
  let (src, t) := if port < 12 then (unitSrc 5 port, s)
    else let (f, u) := draw s; ((Config.freeWord f).toNat % 2 ^ 15 + 2 ^ 15, u)
  unitMsg t src r.cls 6 r.issuer none r.addr (wd (cause + r.dest * 2 ^ 16)) (wd t.gtc)

/-- TVAL of an AMO that a NACK ends (R186): the effective address, the address and access, the offending operand; what a NACK
does not tell (the reason, an empty key slot, handle, row and state of a cell) is free (log 20). -/
def nackTval (r : TagRec) (cause free : Nat) : Nat :=
  let a := r.addr.toNat % 2 ^ 48
  if cause = 0x03 ∨ cause = 0x07 then a
  else if cause = 0x04 then (xlateTrap a .amo (free % 2)).tval
  else if cause = 0x05 then (protTrap a .amo (bit free 0)).tval
  else if cause = 0x09 then free % 2 ^ 34
  else if cause = 0x0C then (if isComb a then free % 2 ^ 37 + 2 ^ 63 else a)
  else if cause = 0x16 then a + r.dest * 2 ^ 48
  else free

/-- IN_NACK (R66, R67): a message, the end of a TE command, or a trap. -/
def execInNack (port : Nat) (p : Packet) (s : State) : Out :=
  let cause := leNat (p.data.take 1)
  match fget s.tags p.tag with
  | none => .next s
  | some r =>
    let t := tagDone s p.tag r
    match r.kind with
    | .write | .rsd => .next (unackedDown (nackMessage t port cause r) r.issuer)
    | .te cl id => match teRefused t cl id cause with
      | (u, true) => .next u
      | (u, false) => .next (nackMessage u port cause r)
    | .amo _ _ =>
      let (f, t) := draw t
      .next (amoTrapped t p.tag r cause (nackTval r cause (Config.freeWord f).toNat))

/-- IN_MSG (R69, R163): the message arrives with REMOTE set and carries the largest FITS of the four dies. -/
def execInMsg (_port : Nat) (p : Packet) (s : State) : Out :=
  let w (i : Nat) : Nat := leNat ((p.data.drop (8 * i)).take 8)
  let fits := (List.range 4).foldl (fun m d => Nat.max m (dieOf s d).fits) 0
  let h := setFld (setFld (setFld (w 0) 34 2 p.cls) 27 2 3) 0 24 fits
  .next (deliver s (p.addr.toNat % 2 ^ 28) ⟨wd h, wd (w 1), wd (w 2), wd (w 3), p.source⟩ none)

/-! ## GTC synchronisation (R61, R62) -/

/-- GTC_SYNC_EXCHANGE (R61): a stamp goes to the parent. -/
def execGtcSyncExchange (s : State) : Out :=
  let q := portOf s s.gtcParent
  if !s.gtcEn || decide (12 ≤ s.gtcParent) || q.st != .up then .next s
  else .next (txPut { s with syncSince := some s.ticks } s.gtcParent (syncPacket s q.peer))

/-- GTC_SYNC (R61, R62): the stamp and the delay of an exchange. -/
def execGtcSync (stamp roundTrip : Nat) (s : State) : Out := .next (gtcSynced s stamp roundTrip)

end Sys2Proof.Machine
end

