-- ==== Sys2Proof/Machine/System.lean ====
section
/-!
DEFINITION. Traps by instruction, privilege and state registers: SYS, TRAP, SVC, GSR, SSR (R183, R185, R286, R388 to
R391), fault service (R125 to R127, R189, R190), TLB invalidation (R226), group slots (R121) and key slots (R45).
-/

namespace Sys2Proof.Machine

/-! ## TRET, BREAK, TRAP, SVC, SRET (R183, R185, R388, R389) -/

/-- TRET (R183): ILLEGAL at TL0, else pc := TEPC of the level it leaves. -/
def execTret (s : State) : Out := .next (trapReturn s .tret)
/-- BREAK (R388): TEPC holds BREAK itself. -/
def execBrk (s : State) : Out := .next (takeTrap s { cause := 0x14, tval := 0 })
/-- TRAP (R388): SOFTWARE with the immediate in TVAL; TEPC holds the next instruction. -/
def execTrap (i : BitVec 16) (s : State) : Out := .next (takeTrap s { cause := 0x13, tval := i.toNat, next := true })
/-- SVC (R185, R389): privilege S at SVCVEC, SEPC := the next instruction. At S it is ILLEGAL, which kills. -/
def execSvc (i : BitVec 16) (s : State) : Out :=
  if (cur s).priv = .s then .next (takeTrap s (illegal (.svc i)))
  else .next (modCur s fun c => { c.goto c.svcvec with priv := .s, sepc := c.pc + 4 })
/-- SRET (R185, R389). -/
def execSret (s : State) : Out := atS s .sret (.ok (modCur s fun c => { c.goto c.sepc with priv := .u }))

/-! ## GSR and SSR (R286) -/

/-- How a state register may be accessed. -/
inductive SAcc where
  | rw | ro | srw
  deriving DecidableEq, Repr, Inhabited

/-- Access of the state register a number names; none for a number that names no register. -/
def stateAcc (n : Nat) : Option SAcc :=
  if n = 0 ∨ n = 4 ∨ n = 5 ∨ n = 6 ∨ n = 0xC then some .rw
  else if n = 1 ∨ n = 2 ∨ n = 3 ∨ n = 7 ∨ n = 0xB ∨ n = 0x10 then some .ro
  else if 8 ≤ n ∧ n ≤ 10 then some .srw
  else if 0x11 ≤ n ∧ n ≤ 0x1B then some .rw
  else if 0x20 ≤ n ∧ n ≤ 0x22 then some .ro
  else if n = 0x100 ∨ n = 0x101 then some .srw
  else none

/-- CTXGRP bits 35:0 as they apply (R121). -/
def groupBits (c : Ctx) : Nat :=
  c.grpValid.toNat * 2 ^ 32 + (List.range 4).foldl (fun w i => w + (c.grp[i]!).toNat * 2 ^ (8 * i)) 0

/-- NETCAP (R227): 64 bytes on the host link, 16 over Umjan, 32 across a bridge and on the mesh. -/
def netcap : Nat := 0x40102020

/-- What a state register reads as; EMTR is read by the caller. -/
def stateVal (s : State) (c : Ctx) (n : Nat) : Word :=
  match n with
  | 0x000 => c.fcsr.setWidth 64
  | 0x001 => wd (nameOf c + s.devid * 2 ^ 28)
  | 0x002 => wd (groupBits c)
  | 0x003 => wd c.msgdev
  | 0x004 => wd (b2n c.mhEn + 2 * b2n c.mhInh + 4 * b2n c.mhMask)
  | 0x005 => c.mhvec
  | 0x006 => c.mepc
  | 0x007 => c.mtrapm.setWidth 64
  | 0x008 => wd c.pts
  | 0x009 => wd c.mts
  | 0x00A => wd c.mrts
  | 0x00B => wd (btsOf s)
  | 0x00C => c.nxtdl
  | 0x010 => wd c.tl
  | 0x011 => c.tvec
  | 0x012 => c.tepc1
  | 0x013 => c.tepc2
  | 0x014 => c.tcause1
  | 0x015 => c.tcause2
  | 0x016 => c.tval1
  | 0x017 => c.tval2
  | 0x018 => c.tscr[0]
  | 0x019 => c.tscr[1]
  | 0x01A => c.tscr[2]
  | 0x01B => c.tscr[3]
  | 0x020 => wd s.gtc
  | 0x021 => wd c.meter
  | 0x022 => wd netcap
  | 0x100 => c.sepc
  | 0x101 => c.svcvec
  | _ => 0

/-- A context meter has counted on since it was last read, by amounts the manual leaves to the device: energy of the
context's cluster, and its share of L2 and HBM, which lies in a die meter (R34, R35, log 5). -/
def meterCtx (s : State) (n : Nat) : State :=
  let (f, t) := draw s
  let (g, t) := draw t
  let t := meterDie (meterCl t (slotCl n) (Config.energy f)) (Config.choose g % 4) (Config.energy g)
  modCtx t n fun c => { c with meter := (c.meter + Config.energy f + Config.energy g) % 2 ^ 64 }

/-- GSR (R286). -/
def execGsr (d : XReg) (n : BitVec 12) (s : State) : Out :=
  match stateAcc n.toNat with
  | none => .next (takeTrap s (illegal (.gsr d n)))
  | some _ =>
    let t := if n = 0x021 then meterCtx s s.cx else s
    .next (wbX t d (stateVal t (cur t) n.toNat))

/-- FCSR as stored: bits 8:0, RM 5 to 7 stored as 0 (R275). -/
def fcsrOf (v : Word) : BitVec 9 :=
  if 4 < fld v.toNat 5 3 then (v.setWidth 9) &&& 0x11F else v.setWidth 9

/-- A context with a state register written, fields stored as the register's map says (R169, R181, R231, R286). -/
def Ctx.setState (c : Ctx) (n : Nat) (v : Word) : Ctx :=
  let w := v.toNat
  match n with
  | 0x000 => { c with fcsr := fcsrOf v }
  | 0x004 => { c with mhEn := bit w 0, mhMask := bit w 2, masked := if bit w 2 && c.mhMask then c.masked else 0 }
  | 0x005 => { c with mhvec := wd (fld w 8 40 * 256) }
  | 0x006 => { c with mepc := v }
  | 0x008 => { c with pts := Nat.max c.pts (w % 2 ^ 24) }
  | 0x009 => { c with mts := Nat.max c.mts (w % 2 ^ 24) }
  | 0x00A => { c with mrts := Nat.max c.mrts (w % 2 ^ 24) }
  | 0x00C => { c with nxtdl := v }
  | 0x011 => { c with tvec := wd (fld w 7 41 * 128) }
  | 0x012 => { c with tepc1 := v }
  | 0x013 => { c with tepc2 := v }
  | 0x014 => { c with tcause1 := wd (w % 2 ^ 11) }
  | 0x015 => { c with tcause2 := wd (w % 2 ^ 11) }
  | 0x016 => { c with tval1 := v }
  | 0x017 => { c with tval2 := v }
  | 0x018 => { c with tscr := c.tscr.set 0 v }
  | 0x019 => { c with tscr := c.tscr.set 1 v }
  | 0x01A => { c with tscr := c.tscr.set 2 v }
  | 0x01B => { c with tscr := c.tscr.set 3 v }
  | 0x100 => { c with sepc := v }
  | 0x101 => { c with svcvec := wd (fld w 2 46 * 4) }
  | _ => c

/-- SSR (R286): ILLEGAL for an unknown number or an RO register, PRIV for an S-RW register at U. -/
def execSsr (a : XReg) (n : BitVec 12) (s : State) : Out :=
  let go : Out :=
    let t := modCur s fun c => (c.setState n.toNat ((cur s).getX a)).goto (c.pc + 4)
    .next (if 8 ≤ n.toNat ∧ n.toNat ≤ 10 then tsCheck t ((rx s a).toNat % 2 ^ 24) else t)
  match stateAcc n.toNat with
  | none => .next (takeTrap s (illegal (.ssr a n)))
  | some .ro => .next (takeTrap s (illegal (.ssr a n)))
  | some .srw => if (cur s).priv = .s then go else .next (takeTrap s (privTrap (.ssr a n)))
  | some .rw => go

/-! ## Fault service (R125 to R127, R189, R190, R390) -/

/-- A record of the fault service queue: written, or held while the ring is full or disabled (R123). -/
def fsPut (s : State) (bs : List Byte) : State :=
  if s.fsq.en && !s.fsq.full && s.fsq.held.isEmpty then ringPut s false bs
  else { s with fsq := { s.fsq with held := s.fsq.held ++ [bs] } }

/-- Held fault records go out while there is room. -/
def fsDrain : Nat → State → State
  | 0, s => s
  | k + 1, s =>
    match s.fsq.held with
    | b :: t => if s.fsq.en && !s.fsq.full then fsDrain k (ringPut { s with fsq := { s.fsq with held := t } } false b) else s
    | [] => s

/-- A fault service record (R125). -/
def faultRecord (s : State) (c : Ctx) (reqid acc reason va : Nat) : List Byte :=
  record 64 [(0, 8, s.gtc), (8, 2, c.nameCxa % 32768), (10, 2, s.devid), (12, 2, reqid), (14, 1, acc), (15, 1, reason),
    (16, 8, va % 2 ^ 48 + c.asid * 2 ^ 48), (24, 4, nameOf c)]

/-- FAULTWAIT (R189, R390): the walk is repeated; a present entry answers 0 at once, else the context joins the request
for its space and 64 KiB range, or makes one under the lowest free REQID, and parks. A comb-window address is never
translated, so nothing is missing there. -/
def execFaultwait (d a b : XReg) (s : State) : Out :=
  let v := (rx s a).toNat
  let acc := (rx s b).toNat
  let c := cur s
  if 2 < acc then .next (takeTrap s (badTarget acc))
  else match c.faultDone with
    | some ok => .next (wbX (modCur s fun c => { c with faultDone := none }) d (if ok then 0 else 1))
    | none =>
      let r := if 2 ^ 48 ≤ v then .error 0 else if isComb v then .ok (0, 0) else walk s c.asid v
      let s := if 2 ^ 48 ≤ v ∨ isComb v then s else walkFill s c.asid v
      match r with
      | .ok _ => .next (wbX s d 0)
      | .error reason =>
        let range := v % 2 ^ 48 / 65536
        let tval := v % 2 ^ 48 + acc * 2 ^ 48 + reason * 2 ^ 50
        match s.faults.find? fun p => p.2.asid == c.asid && p.2.range == range with
        | some (q, r) =>
          .next (park { s with faults := fset s.faults q { r with who := r.who ++ [(nameOf c, tval)] } } (.faultwait q))
        | none =>
          match lowest 4096 fun q => (fget s.faults q).isNone with
          | none => .next (park s .faultid)
          | some q =>
            let t := { s with faults := fset s.faults q { asid := c.asid, range := range, who := [(nameOf c, tval)] } }
            .next (park (fsPut t (faultRecord s c q acc reason v)) (.faultwait q))

/-- A reply reaches a SAVED context: it is written into the image at 0x3F0 (R190, R197). -/
def replySaved (s : State) (n status : Nat) : State :=
  let a := imageAddr s n + 0x3F0
  let w := leNat (readUnder s 0 a 8)
  writeUnder s 0 a (leBytes 8 (setFld (setFld w 12 1 1) 13 2 status))

/-- A reply reaches one waiting context, by name, wherever it stands (R190). A kill reports the fault it waited for. -/
def replyTo (s : State) (q status name tval : Nat) : State :=
  match whereIs s name with
  | some n =>
    if (ctxOf s n).wait = .faultwait q then
      if status = 2 then killCtx (leaveWait s n) n 0x04 tval (ctxOf s n).pc.toNat
      else modCtx s n fun c => { c with wait := .none, waitSince := none, parked := false, faultDone := some (status == 0) }
    else s
  | none => match savedAs s name with
    | some n =>
      if ((fget s.saved n).bind Saved.faultReq) = some q then
        if status = 2 then killSaved s n 0x04 tval else replySaved s n status
      else s
    | none => s

/-- FAULTREPLY (R127): every waiting context is answered; contexts that waited for a REQID issue again. -/
def faultReply (s : State) (q status : Nat) : State :=
  if hostShut s then s
  else match fget s.faults q with
  | none => { s with badreply := sat (s.badreply + 1) 16 }
  | some r =>
    let t := r.who.foldl (fun u (p : Nat × Nat) => replyTo u q status p.1 p.2) { s with faults := fdel s.faults q }
    wakeIf t (· == .faultid)

/-- FAULTREPLY_RESOLVED, FAULTREPLY_FAILED and FAULTREPLY_KILL (R127). -/
def execFaultreplyResolved (reqid : Nat) (s : State) : Out := .next (faultReply s reqid 0)
def execFaultreplyFailed (reqid : Nat) (s : State) : Out := .next (faultReply s reqid 1)
def execFaultreplyKill (reqid : Nat) (s : State) : Out := .next (faultReply s reqid 2)

/-! ## KILL (R391) -/

def execKill (a : XReg) (s : State) : Out :=
  let v := (rx s a).toNat
  let c := cur s
  if c.priv = .u then .next (takeTrap s (privTrap (.kill a)))
  else if v / 2 ^ 28 ≠ 0 ∨ !cxaOk (v % 65536) then .next (takeTrap s (badTarget v))
  else match whereIs s v with
    | some n =>
      if n = s.cx then .next (killCtx s n 0x13 (nameOf c) c.pc.toNat)
      else .next (killCtx (leaveWait (park s (.killing v)) n) n 0x13 (nameOf c) (ctxOf s n).pc.toNat)
    | none => match savedAs s v with
      | some n => .next (next (killSaved s n 0x13 (nameOf c)))
      | none =>
        if s.ctxs.any fun p => p.2.active && p.2.dying && nameOf p.2 == v then .next (park s (.killing v))
        else .next (next s)

/-! ## Group slots (R121, R391) -/

/-- A write of a context's slots: at once when it is idle, else held until EXIT or kill. -/
def groupWrite (s : State) (n w : Nat) : State :=
  if (ctxOf s n).active then modCtx s n fun c => { c with grpHeld := some (BitVec.ofNat 36 w) }
  else
    let old := groupsOf (ctxOf s n)
    let t := modCtx s n fun c => { c with grpHeld := some (BitVec.ofNat 36 w) }.applyGrp
    let new := groupsOf (ctxOf t n)
    idleNoticesFor t (slotCl n) (old ++ new.filter fun g => !old.contains g)

/-- GRPW (R391). -/
def execGrpw (a b : XReg) (s : State) : Out :=
  let v := (rx s a).toNat
  let w := (rx s b).toNat
  if (cur s).priv = .u then .next (takeTrap s (privTrap (.grpw a b)))
  else if v / 2 ^ 15 ≠ 0 ∨ !cxaOk v then .next (takeTrap s (badTarget v))
  else if w / 2 ^ 36 ≠ 0 then .next (takeTrap s (badTarget w))
  else .next (next (groupWrite s v w))

/-- CTXGRP_WRITE (R121): the host writes a context's register. A context of rows 6 and 7 does not exist (R99). -/
def execCtxgrpWrite (cxa : Nat) (val : Word) (s : State) : Out :=
  if clusterOk (slotCl (cxa % 32768)) && !hostShut s then .next (groupWrite s (cxa % 32768) (val.toNat % 2 ^ 36)) else .next s

/-! ## Key slots (R45, R391) -/

/-- Every L2 line recorded under a key slot is written back and dropped. -/
def dropKeyLines (s : State) (key : Nat) : State :=
  (s.home.filter fun (p : Nat × Home) => p.2.key == key).foldl (fun t p => l2Evict t p.1) s

/-- KEYLD (R391): the keys go to the management controller and the issuer parks until the slot is loaded. -/
def execKeyld (a b : XReg) (s : State) : Out :=
  let v := (rx s a).toNat
  let p := (rx s b).toNat
  if (cur s).priv = .u then .next (takeTrap s (privTrap (.keyld a b)))
  else if v = 0 ∨ 8191 < v then .next (takeTrap s (badTarget v))
  else match combOperand (ownCl (cur s)) p 64 with
    | .error e => .next (takeTrap s e)
    | .ok (cl, o) =>
      if spillBase s cl < o + 64 then .next (takeTrap s (protTrap p .read false))
      else if sbTouches s p 64 then .next (hold s)
      else
        let k : KeyVal := .loaded (BitVec.ofNat 256 (combNat s cl o 32)) (BitVec.ofNat 256 (combNat s cl (o + 32) 32))
        let t := dropKeyLines { s with keyReqs := fset s.keyReqs s.cx (v, k) } v
        .next (later (park t (.keyld v)) (.keyLoadDone s.cx))

/-- KEY_LOAD_DONE (R391): the slot holds its key, and the issuer goes on. -/
def execKeyLoadDone (cxa : Nat) (s : State) : Out :=
  match fget s.keyReqs cxa with
  | none => .next s
  | some (slot, k) =>
    let t := { s with keys := fset s.keys slot k, keyReqs := fdel s.keyReqs cxa }
    .next (if (ctxOf t cxa).wait = .keyld slot then nextAt t cxa else t)

/-! ## TLB invalidation (R226, R391) -/

/-- An entry that an invalidation covers. -/
def tlbMatch (w : Nat) (e : TlbEntry) : Bool :=
  match fld w 0 2 with
  | 0 => e.asid == fld w 16 12 && e.va == fld w 32 32 * 65536 / 2 ^ pageBits e.level * 2 ^ pageBits e.level
  | 1 => e.asid == fld w 16 12
  | _ => true

/-- Every TLB of the four dies without the entries covered. -/
def tlbDrop (s : State) (w : Nat) : State :=
  let keep (l : List TlbEntry) : List TlbEntry := l.filter fun e => !tlbMatch w e
  { s with
    cores := s.cores.map fun (p : Nat × Core) => (p.1, { p.2 with tlb := keep p.2.tlb }),
    dies := s.dies.map fun (p : Nat × Die) => (p.1, { p.2 with llTlb := keep p.2.llTlb }),
    clusters := s.clusters.map fun (p : Nat × Cluster) => (p.1, { p.2 with teTlb := keep p.2.teTlb }) }

/-- An access under translation that has not performed: a buffered write, an outstanding load, or a load, fetch or AMO that
waits. -/
def inFlight (w : Nat) (c : Ctx) : Bool :=
  (fld w 0 2 ≥ 2 || c.asid == fld w 16 12) &&
  (c.sb.any (fun e => e.parts.any fun p => !p.isComb) || c.loads.any (fun r => r.parts.any fun p => !p.isComb) ||
    (match c.wait with | .load .. | .fetch .. | .amo .. => true | _ => false))

/-- An invalidation starts. -/
def tlbStart (s : State) (w : Word) (who : Option Nat) : State :=
  later { s with tlbBusy := true, tlbReq := some (w, who) } .tlbinvDone

/-- TLBINV of the instruction (R391): a BAR0 invalidation in progress is waited for first. -/
def execTlbinv (a : XReg) (s : State) : Out :=
  let v := (rx s a).toNat
  if (cur s).priv = .u then .next (takeTrap s (privTrap (.tlbinv a)))
  else if fld v 28 4 ≠ 0 ∨ fld v 2 14 ≠ 0 then .next (takeTrap s (badTarget v))
  else if s.tlbBusy then .next (park s .tlbinv)
  else .next (tlbStart (park s .tlbinv) (rx s a) (some s.cx))

/-- TLBINV_WRITE (R226): discarded and counted while BUSY is set. -/
def execTlbinvWrite (val : Word) (s : State) : Out :=
  if hostShut s then .next s
  else if s.tlbBusy then .next { s with badacc := sat (s.badacc + 1) 16 } else .next (tlbStart s val none)

/-- TLBINV_DONE (R226): the entries are dropped; BUSY clears once every access they translated has performed. -/
def execTlbinvDone (s : State) : Out :=
  match s.tlbReq with
  | none => .next s
  | some (w, who) =>
    let t := tlbDrop s w.toNat
    if t.ctxs.any fun (p : Nat × Ctx) => inFlight w.toNat p.2 then .next t
    else
      let t := { t with tlbBusy := false, tlbReq := none }
      let t := match who with
        | some n => if (ctxOf t n).wait = .tlbinv then nextAt t n else t
        | none => t
      .next (wakeIf t (· == .tlbinv))

end Sys2Proof.Machine
end

