-- ==== Sys2Proof/Machine/HostRegs.lean ====
section
/-!
DEFINITION. The host port: registers of BAR0 and BAR2 (R99 to R102, R110), the queues (R122, R123), group table (R119,
R120), bring-up (R43, R46), firmware load and attestation (R44, R101), and errors of the die bridges (R14, R42).
-/

namespace Sys2Proof.Machine

/-- The state an event leaves. -/
def after (s : State) (o : Out) : State := match o with | .next t => t | _ => s

/-- One more bad access (R100). -/
def badAccess (s : State) : State := { s with badacc := sat (s.badacc + 1) 16 }

/-! ## Bring-up (R43, R46, R101) -/

def DevSt.code : DevSt → Nat
  | .reset => 0 | .auth => 1 | .hbmTrain => 2 | .config => 3 | .ready => 4 | .bootFail => 5 | .failed => 6

/-- Keys of host memory, which the device does not reset. -/
def isHostKey (k : Nat) : Bool := decide (2 ^ 48 ≤ k) && decide (k < 2 ^ 52)

/-- DEVICE_RESET (R46): everything of the device returns to its reset state, and slot 0 gets a new random key (R45). -/
def execDeviceReset (s : State) : Out :=
  .next { State.reset with
    fresh := s.fresh, seq := s.seq, resets := s.resets + 1, keys := [(0, .boot (s.resets + 1))], irqs := s.irqs,
    mem := s.mem.filter fun c => isHostKey c.1 }

/-- The boot ROM hashes an image and its check starts; the outcome comes later (R43). -/
def startBoot (s : State) (image : List Byte) : State :=
  let (f, t) := draw s
  later { t with devst := .auth, fwDigest := sha256 image } (.bootAuth (Config.bootCheck f image))

/-- RESET_RELEASE (R46, R96): the link trains at a rate and a width of its own. -/
def execResetRelease (s : State) : Out :=
  if s.devst ≠ .reset then .next s
  else
    let (a, t) := draw s
    let (b, t) := draw t
    let w := (Config.freeWord b).toNat % 3
    .next (startBoot { t with linkRate := 4 + (Config.freeWord a).toNat % 3,
                              linkWidth := if w = 0 then 4 else if w = 1 then 8 else 16 } Config.flash)

/-- BOOT_AUTH (R43, R46): the GTC starts with HBM_TRAIN, which is the first window (R23). -/
def execBootAuth (r : BootResult) (s : State) : Out :=
  if s.devst ≠ .auth then .next s
  else match r with
    | .accepted =>
      let (f, t) := draw { s with devst := .hbmTrain, gtcRun := true, fwBusy := false, fwResult := 0 }
      let v := (Config.freeWord f).toNat
      let t := (List.range 4).foldl firstWindow t
      .next (later t (.hbmTrainDone (if v % 2 = 0 then none else some (v / 2 % 12))))
    | .badSignature => .next { s with devst := .bootFail, fwBusy := false, fwResult := 1 }
    | .rollback => .next { s with devst := .bootFail, fwBusy := false, fwResult := 2 }
    | .readError => .next { s with devst := .bootFail, fwBusy := false, fwResult := 3 }

/-- Source number of what HBM_TRAIN brings up: stacks 0 to 7, then bridges 0 to 3 (R38, R46). -/
def trainSrc (unit : Nat) : Nat := if unit % 12 < 8 then unitSrc 3 (unit % 12) else unitSrc 10 (unit % 12 - 8)

/-- HBM_TRAIN_DONE (R46): HBM holds zero under key 0, or bring-up stops with the unit that failed. -/
def execHbmTrainDone (fail : Option Nat) (s : State) : Out :=
  if s.devst ≠ .hbmTrain then .next s
  else match fail with
    | some u => .next { s with devst := .failed, failsrc := trainSrc u }
    | none => .next { s with devst := .config, mem := s.mem.filter (fun c => decide (2 ^ 40 ≤ c.1)), lineKey := [],
                             poison := [], latent := [], latentL2 := [] }

/-- DEVSTAT_GO (R102). -/
def execDevstatGo (s : State) : Out := if s.devst = .config then .next { s with devst := .ready, early := 0 } else .next s

/-- FWCMD (R101): in BOOT_FAIL the image is read and the boot restarts. -/
def execFwcmd (val : Word) (s : State) : Out :=
  if s.devst ≠ .bootFail then .next (badAccess s)
  else if !bit val.toNat 0 then .next s
  else .next (startBoot { s with fwBusy := true } (memRead s.mem (2 ^ 48 + s.fwaddr) s.fwlen))

/-- What a report made now holds (R44). -/
def reportNow (s : State) : AttReport :=
  { nonce := s.nonce ++ List.replicate (32 - s.nonce.length) 0, firmware := s.fwDigest, avCode := sha256 (Config.microcode 0),
    swCode := sha256 (Config.microcode 1), hbmLocal := s.hbmLocal, watts := s.watts, rollback := Config.rollback }

/-- ATTCMD (R44, R101): a report over the NONCE as it stands. A 1 written while a report is being made changes nothing
(log 77). -/
def execAttcmd (val : Word) (s : State) : Out :=
  if !bit val.toNat 0 || s.attBusy || hostShut s then .next s
  else
    let (f, t) := draw s
    .next (later { t with attBusy := true, report := (Config.report f (reportNow s)).take 1024 } .attestationReportDone)

/-- ATTESTATION_REPORT_DONE. -/
def execAttestationReportDone (s : State) : Out :=
  if s.attBusy then .next { s with attBusy := false, attLen := s.report.length } else .next s

/-- BRIDGE_REPLAY (R14, R42): a replayed flit is a corrected error; data that left the device's control unmarked stops
launches. -/
def execBridgeReplay (bridge : Nat) (o : BridgeOutcome) (s : State) : Out :=
  if 4 ≤ bridge then .next s
  else
    let (f, t) := draw s
    let rec_ (sev : Nat) : List Byte := record 64 [(0, 8, s.gtc), (8, 2, unitSrc 10 bridge), (10, 2, s.devid), (12, 1, 4),
      (13, 1, sev), (14, 2, 1), (40, 4, bridge), (44, 4, (Config.syndrome f).toNat)]
    match o with
    | .replayed => .next (eventBytes t (rec_ 0))
    | .uncontained => .next (eventBytes { t with stopped := true } (rec_ 2))

/-! ## Queues (R122, R123) -/

/-- Held records of both queues go out while there is room. -/
def drainQueues (s : State) : State :=
  let t := eventDrain (s.evq.held.length + 1) s
  fsDrain t.fsq.held.length t

/-- MODERATION_INTERVAL_EXPIRY (R122): an owed interrupt is signalled. -/
def execModerationIntervalExpiry (q : Nat) (s : State) : Out :=
  let h := if q = 0 then s.evq else s.fsq
  if 2 ≤ q ∨ !h.owedIrq ∨ s.gtc < h.lastIrq.getD 0 + h.moderate * 1000 then .next s
  else
    let (h', irqs) := HostQ.signal s h
    let t := { s with irqs := irqs }
    .next (if q = 0 then { t with evq := h' } else { t with fsq := h' })

def queueOf (s : State) (q : Nat) : HostQ := if q = 0 then s.evq else s.fsq
def modQueue (s : State) (q : Nat) (f : HostQ → HostQ) : State :=
  if q = 0 then { s with evq := f s.evq } else { s with fsq := f s.fsq }

/-- QCONS_WRITE (R122): ignored when PROD − CONS would be negative or larger than the ring. -/
def execQconsWrite (q : Nat) (val : Word) (s : State) : Out :=
  let c := val.toNat % 2 ^ 32
  let h := queueOf s q
  if 2 ≤ q ∨ hostShut s ∨ 2 ^ h.logsize < (h.prod + 2 ^ 32 - c) % 2 ^ 32 then .next s
  else .next (drainQueues (modQueue s q fun h => { h with cons := c }))

/-- QCFG: LOGSIZE is ignored while EN is set; enabling lets held records out. -/
def qcfgWrite (s : State) (q v : Nat) : State :=
  drainQueues (modQueue s q fun h =>
    { h with en := bit v 63, moderate := fld v 16 8, vector := fld v 8 4,
             logsize := if h.en then h.logsize else Nat.max 6 (Nat.min 16 (fld v 0 5)) })

def qcfgVal (h : HostQ) : Nat := b2n h.en * 2 ^ 63 + h.moderate * 2 ^ 16 + h.vector * 2 ^ 8 + h.logsize

/-! ## Group table (R119, R120) -/

/-- An entry as a number of 256 bits. -/
def groupVal (g : Group) : Nat :=
  g.entrypc + g.asid * 2 ^ 48 + g.cls * 2 ^ 60 + b2n g.valid * 2 ^ 63 + g.supervisor * 2 ^ 64 + g.members * 2 ^ 96 +
    g.boffset * 2 ^ 128 + g.bcluster * 2 ^ 150

/-- The entry a number stands for, fields stored as R119 says. -/
def groupFrom (w : Nat) : Group :=
  { entrypc := fld w 0 48, asid := fld w 48 12, cls := fld w 60 2, valid := bit w 63, supervisor := fld w 64 28,
    members := Nat.min (fld w 96 15) 24576, boffset := fld w 128 22 / 16 * 16, bcluster := fld w 150 8 }

/-- The banks look again at the LIVE barrier slots of a group, whose MEMBERS may have changed (R154, R155). -/
def boostGroup (s : State) (g : Nat) : State :=
  s.clusters.foldl (fun t (k : Nat × Cluster) =>
    (k.2.bars.filter fun o => fld (barGet s k.1 o) 64 8 == g).foldl (fun u o => boostCheck u k.1 o) t) s

/-- GROUP_TABLE_WRITE (R120): while VALID is set only a write of VALID's own word that leaves every other field as it is takes
effect; any other is discarded and counted. -/
def execGroupTableWrite (entry off size : Nat) (val : Word) (s : State) : Out :=
  if 256 ≤ entry ∨ 32 ≤ off ∨ hostShut s then .next s
  else if (size ≠ 4 ∧ size ≠ 8) ∨ off % size ≠ 0 then .next (badAccess s)
  else
    let g := groupOf s entry
    let n := groupFrom (setFld (groupVal g) (8 * off) (8 * size) val.toNat)
    if !g.valid ∨ (off ≤ 4 ∧ 8 ≤ off + size ∧ { n with valid := true } = g) then
      .next (boostGroup { s with groups := fset s.groups entry n } entry)
    else .next (badAccess s)

/-! ## Incarnation (R57) -/

/-- INCARNATION_WRITE (R57): after READY only while every view slot is FREE or EXCLUDED. -/
def execIncarnationWrite (val : Word) (s : State) : Out :=
  let busy := (List.range 16).any fun n => match (viewOf s n).st with | .free | .excluded => false | _ => true
  if hostShut s then .next s
  else if s.devst = .ready ∧ busy then .next (badAccess s) else .next { s with incarnation := val.toNat % 2 ^ 32 }

/-! ## The function (R97, R98) -/

/-- The device id and the class code that the function reports (R98). -/
def pciDeviceId : Nat := 0x4384
def pciClassCode : Nat := 0x120000

/-- What a configuration read of the function returns of them, 32 bits at an offset of its header: the device id in bits 31:16
at 0, the class code in bits 31:8 at 8 (R97, R98; the places are those of a CXL function's header, PRESUMED, log 80). The rest
of the header is the host's business: free values. -/
def configRead (off free : Nat) : Nat :=
  let f := (Config.freeWord free).toNat
  if off = 0 then pciDeviceId * 2 ^ 16 + f % 2 ^ 16
  else if off = 8 then pciClassCode * 2 ^ 8 + f % 2 ^ 8
  else f % 2 ^ 32

/-- An Unsupported Request is reported in the AER status, bit 20 (R97, R100, log 69). -/
def aerUnsupported (s : State) : State := { s with aer := s.aer.lor (2 ^ 20) }

/-! ## Register values (R99 to R101) -/

/-- Cluster of an offset in the per-cluster blocks, and the offset in its block. -/
def clusterBlock (off : Nat) : Option (Nat × Nat) :=
  let c := (off - 0x1000000) / 0x10000
  if 0x1000000 ≤ off ∧ clusterOk c then some (c, off % 0x10000) else none

/-- A forwarding-table entry (R150). -/
def fwdVal (f : Fwd) : Nat := 2 ^ 63 + b2n f.moving * 2 ^ 62 + f.gen * 2 ^ 48 + f.origin * 2 ^ 32 + f.here

/-- A signed level as 64 bits. -/
def levelVal (l : Int) : Nat := (BitVec.ofInt 64 l).toNat

/-- The 64-bit registers of the device-control, queue and GTC blocks. -/
def reg64Control (s : State) (off : Nat) : Option Nat :=
  if off = 0 then some (s.failsrc * 2 ^ 48 + s.early * 2 ^ 32 + s.devst.code)
  else if off = 0x28 then some (s.ctxsaveBase + b2n s.ctxsaveEn)
  else if off = 0x30 then some s.asidroot
  else if off = 0x38 then some 0
  else if off = 0x48 then some (s.rebaseCount * 2 ^ 32 + b2n s.rebaseActive)
  else if off = 0x1000 then some s.fwaddr
  else if 0x2000 ≤ off ∧ off < 0x2020 then some 0
  else if 0x2100 ≤ off ∧ off < 0x2500 then some (leNat ((s.report.drop (off - 0x2100)).take 8))
  else if 0x10000 ≤ off ∧ off < 0x10040 then
    let h := queueOf s ((off - 0x10000) / 0x20)
    let r := (off - 0x10000) % 0x20
    some (if r = 0 then h.base else if r = 8 then qcfgVal h else if r = 16 then h.prod else h.cons)
  else if off = 0x10040 then some 0
  else if off = 0x20000 then some s.gtc
  else none

/-- The 64-bit registers of the power, CE, group, context-group, CXL and cluster blocks. -/
def reg64Units (s : State) (off : Nat) : Option Nat :=
  if 0x100A00 ≤ off ∧ off < 0x100A40 then
    let d := dieOf s ((off - 0x100A00) / 16)
    some (if off % 16 = 0 then levelVal d.level else sat d.reqs.length 16)
  else if 0x110000 ≤ off ∧ off < 0x110800 then
    let c := (off - 0x110000) / 8
    some (if clusterOk c then (clOf s c).meter else 0)
  else if 0x110800 ≤ off ∧ off < 0x111800 then
    let a := (off - 0x110800) / 8
    some (if clusterOk (a / 2) then (avOf s a).meter else 0)
  else if 0x111800 ≤ off ∧ off < 0x111820 then some (dieOf s ((off - 0x111800) / 8)).meter
  else if 0x300000 ≤ off ∧ off < 0x400000 then
    let n := (off - 0x300000) / 0x10000
    let r := off % 0x10000
    if r = 8 then some 0
    else if 0x2000 ≤ r ∧ r < 0x4000 then some ((fget (viewOf s n).members ((r - 0x2000) / 8)).getD 0).toNat
    else none
  else if 0x400000 ≤ off ∧ off < 0x402000 then
    some (fld (groupVal (groupOf s ((off - 0x400000) / 32))) (8 * (off % 32)) 64)
  else if 0x410000 ≤ off ∧ off < 0x450000 then
    let n := (off - 0x410000) / 8
    some (if clusterOk (slotCl n) then groupBits (ctxOf s n) + b2n (ctxOf s n).grpHeld.isSome * 2 ^ 63 else 0)
  else if 0x800010 ≤ off ∧ off < 0x800050 then
    let d := (off - 0x800010) / 0x20
    let e := if d = 0 then s.hdm[0]! else s.hdm[1]!
    if off % 0x20 = 0x10 then some e.1 else if off % 0x20 = 0x18 then some e.2 else none
  else match clusterBlock off with
    | some (c, r) =>
      let k := clOf s c
      if r = 0x10 then some (k.spillFull * 2 ^ 48 + k.spillPeak * 2 ^ 16 + k.spill.length)
      else if 0x800 ≤ r ∧ r < 0xA00 then some (((fget k.fwd ((r - 0x800) / 8)).map fwdVal).getD 0)
      else none
    | none => none

/-- A 64-bit register, by the offset of its first byte. -/
def reg64 (s : State) (off : Nat) : Option Nat :=
  if off < 0x30000 then reg64Control s off else reg64Units s off

/-- A thermal ranking entry (R30). -/
def rankVal (r : Rank) : Nat := 2 ^ 31 + r.cluster * 2 ^ 16 + r.temp * 2 ^ 8 + r.free

/-- The 32-bit registers of the device-control, queue, GTC and power blocks. -/
def reg32Control (s : State) (off : Nat) : Nat :=
  if off = 0x08 then s.devid
  else if off = 0x0C then s.incarnation
  else if off = 0x10 then s.hbmLocal
  else if off = 0x14 then s.watts
  else if off = 0x18 then s.linkRate + s.linkWidth * 16
  else if off = 0x1C then b2n s.atomics
  else if off = 0x20 then s.badacc
  else if off = 0x40 then b2n s.tlbBusy
  else if off = 0x50 then (List.range 4).foldl (fun w i => w + s.quota[i]! * 2 ^ (8 * i)) 0
  else if off = 0x54 then (List.range 4).foldl (fun w i => w + s.lease[i]! * 2 ^ (8 * i)) 0
  else if off = 0x1008 then s.fwlen
  else if off = 0x1018 then b2n s.fwBusy + s.fwResult * 2 ^ 8
  else if off = 0x2028 then b2n s.attBusy + s.attLen * 2 ^ 16
  else if off = 0x10048 then s.badreply
  else if off = 0x20008 then s.gtcParent + b2n s.gtcEn * 16 + b2n s.gtcLost * 32 + b2n s.gtcSynced * 64
  else if 0x100000 ≤ off ∧ off < 0x100400 then
    let c := (off - 0x100000) / 4
    if clusterOk c then (clOf s c).cur * 2 ^ 8 + (clOf s c).cap else 0
  else if 0x100400 ≤ off ∧ off < 0x100410 then (dieOf s ((off - 0x100400) / 4)).hot
  else if 0x100800 ≤ off ∧ off < 0x100900 then
    (((dieOf s ((off - 0x100800) / 64)).ranks[off % 64 / 4]?).map rankVal).getD 0
  else if 0x100900 ≤ off ∧ off < 0x100910 then
    let d := dieOf s ((off - 0x100900) / 4)
    b2n d.boostEn * 2 ^ 31 + d.boostSleep * 2 ^ 16 + d.boostCost
  else 0

/-- A route table entry (R58). -/
def routeVal (s : State) (dev : Nat) : Nat := ((fget s.routes dev).getD 0).toNat

/-- Entries held of a class in a launch queue (R130). -/
def lqDepth (s : State) (cl k : Nat) : Nat := ((clOf s cl).lq.filter (·.cls == k)).length

/-- The 32-bit registers of the Umjan, CE and cluster blocks. -/
def reg32Units (s : State) (off : Nat) : Nat :=
  if 0x200000 ≤ off ∧ off < 0x2000C0 then
    let q := portOf s ((off - 0x200000) / 16)
    let r := off % 16
    if r = 0 then b2n q.enable
    else if r = 4 then q.peer * 2 ^ 20 + q.retrains * 2 ^ 8 + q.st.code
    else if r = 8 then q.badpkt + q.noroute * 2 ^ 16
    else 0
  else if off = 0x200100 then s.deadTimeout
  else if off = 0x200104 then b2n s.inboundEn * 2 ^ 31 + s.inboundAsid
  else if 0x210000 ≤ off ∧ off < 0x212000 then
    let d := (off - 0x210000) / 2
    routeVal s d + routeVal s (d + 1) * 2 ^ 16
  else if 0x300000 ≤ off ∧ off < 0x400000 then
    let n := (off - 0x300000) / 0x10000
    let r := off % 0x10000
    if r = 0 then vstat s n else if r = 4 then (viewOf s n).vid else if r = 0x10 then (viewOf s n).vdiscard else 0
  else if 0x800200 ≤ off ∧ off < 0x800218 then s.ras.toList.getD ((off - 0x800200) / 4) 0
  else match clusterBlock off with
    | some (c, r) =>
      let k := clOf s c
      if r = 0 then k.deadltr
      else if r = 8 then k.spillSize
      else if 0x100 ≤ r ∧ r < 0x120 then
        let e := coreOf s (c * 8 + (r - 0x100) / 4)
        e.pool.toNat * 2 ^ 16 + e.c0res.toNat
      else if r = 0x180 then (List.range 4).foldl (fun w i => w + lqDepth s c i * 2 ^ (8 * i)) 0
      else if r = 0x188 then k.demoted * 2 ^ 16 + k.preempts
      else if r = 0x190 ∨ r = 0x194 then (avOf s (c * 2 + (r - 0x190) / 4)).tqclass.toNat
      else 0
    | none => 0

def reg32 (s : State) (off : Nat) : Nat := if off < 0x200000 then reg32Control s off else reg32Units s off

/-- In BOOT_FAIL only the status and firmware-load registers act (R43). -/
def bootFailOff (off : Nat) : Bool := off < 8 || off == 0x20 || (decide (0x1000 ≤ off) && decide (off < 0x1020))

/-- The word at a 4-byte offset. -/
def read4 (s : State) (off : Nat) : Nat :=
  if s.devst = .bootFail ∧ !bootFailOff off then 0
  else match reg64 s (off / 8 * 8) with
    | some v => v / 2 ^ (32 * (off / 4 % 2)) % 2 ^ 32
    | none => reg32 s off % 2 ^ 32

/-- A meter counts on before it is read (R35, log 5). Anvil energy is part of its cluster's (R35). -/
def meterRead (s : State) (off : Nat) : State :=
  let (f, t) := draw s
  let e := Config.energy f
  if 0x110000 ≤ off ∧ off < 0x110800 then meterCl t ((off - 0x110000) / 8) e
  else if 0x110800 ≤ off ∧ off < 0x111800 then
    let a := (off - 0x110800) / 8
    meterCl (modAv t a fun v => { v with meter := (v.meter + e) % 2 ^ 64 }) (a / 2) e
  else if 0x111800 ≤ off ∧ off < 0x111820 then meterDie t ((off - 0x111800) / 8) e
  else s

/-- The bytes of the BAR2 areas after the launch window (R110 to R112). -/
def bar2Bytes (s : State) : List Byte :=
  leBytes 8 (1024 - s.launchBuf.length) ++
    leBytes 8 (s.launchDropped + s.launchMalformed * 2 ^ 16 + s.launchDemoted * 2 ^ 32)

/-- First offset by which BAR2 is named in a register access (log 36), and the one by which the function's configuration
header is, after it (log 80). -/
def bar2 : Nat := 0x4000000
def configSpace : Nat := 0x4200000

/-- BAR0_READ (R100): 4 or 8 bytes, naturally aligned; anything else completes with Unsupported Request. Offsets beyond BAR0
name BAR2 and the configuration header. -/
def execBar0Read (off size : Nat) (s : State) : Out :=
  if configSpace ≤ off then
    let (f, t) := draw s
    .next { t with hostUr := false, hostRd := leBytes size (configRead ((off - configSpace) / 4 * 4) f / 256 ^ (off % 4)) }
  else if bar2 ≤ off then
    let o := off - bar2
    .next { s with hostUr := false, hostRd := (List.range size).map fun i =>
      if 0x100000 ≤ o + i && !hostShut s then (bar2Bytes s).getD (o + i - 0x100000) 0 else 0 }
  else if (size ≠ 4 ∧ size ≠ 8) ∨ off % size ≠ 0 then .next { aerUnsupported (badAccess s) with hostUr := true, hostRd := [] }
  else
    let t := meterRead s off
    let v := if size = 4 then read4 t off else read4 t off + read4 t (off + 4) * 2 ^ 32
    .next { t with hostUr := false, hostRd := leBytes size v }

/-! ## Register writes (R100, R101) -/

/-- The 64-bit registers that software writes. The size of an HDM decoder is stored as a multiple of 256 MiB within its window
(R103); its base is cut to the same multiple (DESIGN CHOICE, log 72). -/
def write64 (s : State) (off v : Nat) : State :=
  let w := wd v
  if off = 0 then (if bit v 8 then after s (execDevstatGo s) else s)
  else if off = 0x28 then
    (if s.saved.isEmpty then { s with ctxsaveBase := fld v 25 14 * 2 ^ 25, ctxsaveEn := bit v 0 } else s)
  else if off = 0x30 then { s with asidroot := fld v 15 37 * 2 ^ 15 }
  else if off = 0x38 then after s (execTlbinvWrite w s)
  else if off = 0x1000 then { s with fwaddr := v / 4096 * 4096 }
  else if 0x10000 ≤ off ∧ off < 0x10040 then
    let q := (off - 0x10000) / 0x20
    let r := (off - 0x10000) % 0x20
    if r = 0 then modQueue s q (fun h => if h.en then h else { h with base := v / 4096 * 4096 })
    else if r = 8 then qcfgWrite s q v
    else if r = 24 then after s (execQconsWrite q w s)
    else s
  else if off = 0x10040 then faultReply s (v % 2 ^ 16) (if fld v 16 2 = 3 then 1 else fld v 16 2)
  else if 0x300000 ≤ off ∧ off < 0x400000 then
    let n := (off - 0x300000) / 0x10000
    let r := off % 0x10000
    if r = 8 then
      match v % 4 with
      | 1 => after s (execForm n (v / 2 ^ 32) s)
      | 2 => after s (execClose n s)
      | 3 => after s (execJoin n (v / 2 ^ 32) s)
      | _ => s
    else if 0x2000 ≤ r ∧ r < 0x4000 ∧ (viewOf s n).st = .free then
      let e := v % 2 ^ 44 / 2 ^ 32 * 2 ^ 32 + v % 2 ^ 32
      let k := (r - 0x2000) / 8
      modView s n fun x => { x with members := (if e = 0 then fdel x.members k else fset x.members k (wd e)) }
    else s
  else if 0x400000 ≤ off ∧ off < 0x402000 then
    after s (execGroupTableWrite ((off - 0x400000) / 32) (off % 32) 8 w s)
  else if 0x410000 ≤ off ∧ off < 0x450000 then after s (execCtxgrpWrite ((off - 0x410000) / 8) w s)
  else if 0x800010 ≤ off ∧ off < 0x800050 then
    let d := (off - 0x800010) / 0x20
    let e := if d = 0 then s.hdm[0]! else s.hdm[1]!
    let v := v / 2 ^ 28 * 2 ^ 28
    let room := if d = 0 then 8 * (48 - s.hbmLocal) * 2 ^ 30 else 2 ^ 39
    let e := if off % 0x20 = 0x10 then (v, e.2) else (e.1, Nat.min v room)
    { s with hdm := s.hdm.set! d e }
  else match clusterBlock off with
    | some (c, r) =>
      if r = 0x10 then modCl s c fun k => { k with spillFull := fld v 48 16, spillPeak := fld v 16 13 } else s
    | none => s

/-- CORESCHED (R134): at once for idle contexts. -/
def coreschedWrite (s : State) (k v : Nat) : State :=
  let t := modCore s k fun c => { c with pool := BitVec.ofNat 16 (v / 2 ^ 16), c0res := BitVec.ofNat 16 v }
  (List.range 16).foldl (fun u i =>
    if (ctxOf u (k * 16 + i)).active then u else modCore u k fun c => c.applyBits i) t

/-- LINKCTL (R53, R55): RESET first. -/
def linkctlWrite (s : State) (p v : Nat) : State :=
  let t := if bit v 1 then after s (execLinkctlReset p s) else s
  if bit v 0 then after t (execLinkctlEnable p t) else after t (execLinkctlDisable p t)

/-- The 32-bit registers of the device-control, queue, GTC and power blocks that software writes. -/
def write32Control (s : State) (off v : Nat) : State :=
  if off = 0x08 then (if s.devst = .ready then s else { s with devid := v % 2 ^ 12 })
  else if off = 0x0C then after s (execIncarnationWrite (wd v) s)
  else if off = 0x10 then (if s.devst = .ready then s else { s with hbmLocal := Nat.min 48 (v % 64) })
  else if off = 0x14 then { s with watts := Nat.max 600 (Nat.min 1800 (v % 2 ^ 12)) }
  else if off = 0x1C then { s with atomics := bit v 0 }
  else if off = 0x20 then { s with badacc := v % 2 ^ 16 }
  else if off = 0x50 then { s with quota := Vector.ofFn fun i : Fin 4 => Nat.min 16 (fld v (8 * i.val) 5) }
  else if off = 0x54 then { s with lease := Vector.ofFn fun i : Fin 4 => Nat.max 1 (fld v (8 * i.val) 8) }
  else if off = 0x1008 then { s with fwlen := Nat.min v (2 ^ 24) }
  else if off = 0x1010 then after s (execFwcmd (wd v) s)
  else if off = 0x2020 then after s (execAttcmd (wd v) s)
  else if off = 0x10048 then { s with badreply := v % 2 ^ 16 }
  else if off = 0x20008 then
    let same := s.gtcParent == fld v 0 4 && s.gtcEn == bit v 4
    { s with gtcParent := fld v 0 4, gtcEn := bit v 4, gtcLost := s.gtcLost && !bit v 5,
             gtcExchanges := if same then s.gtcExchanges else 0, gtcSynced := s.gtcSynced && same }
  else if 0x100000 ≤ off ∧ off < 0x100400 then
    let c := (off - 0x100000) / 4
    if clusterOk c then orderStep (modCl s c fun k => { k with cap := Nat.min 14 (v % 16) }) c else s
  else if 0x100400 ≤ off ∧ off < 0x100410 then
    let d := (off - 0x100400) / 4
    boostDie (modDie s d fun e => { e with hot := v % 256 }) d
  else if 0x100900 ≤ off ∧ off < 0x100910 then
    let d := (off - 0x100900) / 4
    boostDie (modDie s d fun e => { e with boostEn := bit v 31, boostSleep := fld v 16 12, boostCost := fld v 0 16 }) d
  else s

/-- A write of the RAS capability: status bits are cleared by ones, masks and severity keep their defined bits (log 69). -/
def rasWrite (r : Vector Nat 6) (i v : Nat) : Vector Nat 6 :=
  let old := r.toList.getD i 0
  r.set! i (if i = 0 ∨ i = 3 then old - old.land v else if i = 1 ∨ i = 2 then v.land 0x1CFFF
    else if i = 4 then v.land 0x7F else old)

/-- The 32-bit registers of the Umjan, CE and cluster blocks that software writes. -/
def write32Units (s : State) (off v : Nat) : State :=
  if 0x200000 ≤ off ∧ off < 0x2000C0 then
    let p := (off - 0x200000) / 16
    let r := off % 16
    if r = 0 then linkctlWrite s p v
    else if r = 8 then modPort s p fun q => { q with badpkt := v % 2 ^ 16, noroute := v / 2 ^ 16 }
    else s
  else if off = 0x200100 then { s with deadTimeout := Nat.max 3 (v % 2 ^ 16) }
  else if off = 0x200104 then { s with inboundEn := bit v 31, inboundAsid := fld v 0 12 }
  else if 0x210000 ≤ off ∧ off < 0x212000 then
    let d := (off - 0x210000) / 2
    let e (k : Nat) : Route := BitVec.ofNat 16 k &&& 0xC0FF
    { s with routes := fset (fset s.routes d (e v)) (d + 1) (e (v / 2 ^ 16)) }
  else if 0x300000 ≤ off ∧ off < 0x400000 then
    let n := (off - 0x300000) / 0x10000
    let r := off % 0x10000
    if r = 0 then modView s n fun x => { x with quorum := bit v 28 }
    else if r = 0x10 then modView s n fun x => { x with vdiscard := v }
    else s
  else if 0x800200 ≤ off ∧ off < 0x800218 then { s with ras := rasWrite s.ras ((off - 0x800200) / 4) v }
  else match clusterBlock off with
    | some (c, r) =>
      if r = 0 then modCl s c fun k => { k with deadltr := v }
      else if r = 8 then modCl s c (fun k => if k.spill.isEmpty then { k with spillSize := Nat.min 16 (v % 32) } else k)
      else if 0x100 ≤ r ∧ r < 0x120 then coreschedWrite s (c * 8 + (r - 0x100) / 4) v
      else if r = 0x188 then modCl s c fun k => { k with demoted := v / 2 ^ 16, preempts := v % 2 ^ 16 }
      else if r = 0x190 ∨ r = 0x194 then modAv s (c * 2 + (r - 0x190) / 4) fun a => { a with tqclass := BitVec.ofNat 16 v }
      else s
    | none => s

def write32 (s : State) (off v : Nat) : State :=
  if off < 0x200000 then write32Control s off v else write32Units s off v

/-- What a 4-byte write leaves in the other half of a 64-bit register: nothing for one that reads as zero. -/
def otherHalf (s : State) (off : Nat) : Nat :=
  if 0x410000 ≤ off ∧ off < 0x450000 then
    let c := ctxOf s ((off - 0x410000) / 8)
    match c.grpHeld with
    | some w => w.toNat
    | none => groupBits c
  else (reg64 s off).getD 0

/-- A write of 4 bytes. -/
def write4 (s : State) (off v : Nat) : State :=
  if s.devst = .bootFail ∧ !bootFailOff off then s
  else if 0x2000 ≤ off ∧ off < 0x2020 then
    let o := off - 0x2000
    let n := s.nonce ++ List.replicate (32 - s.nonce.length) 0
    { s with nonce := n.take o ++ leBytes 4 v ++ n.drop (o + 4) }
  else if 0x400000 ≤ off ∧ off < 0x402000 then
    after s (execGroupTableWrite ((off - 0x400000) / 32) (off % 32) 4 (wd v) s)
  else
    let b := off / 8 * 8
    if (reg64 s b).isSome then write64 s b (setFld (otherHalf s b) (32 * (off / 4 % 2)) 32 v) else write32 s off v

/-- A write of 8 bytes: one register, or two, the lower first. -/
def write8 (s : State) (off v : Nat) : State :=
  if (s.devst = .bootFail ∧ !bootFailOff off) ∨ (0x2000 ≤ off ∧ off < 0x2020) ∨ (reg64 s off).isNone then
    write4 (write4 s off (v % 2 ^ 32)) (off + 4) (v / 2 ^ 32)
  else write64 s off v

/-- REGISTER_WRITE (R100): each register stores what its field map lets it store; LAUNCHSTAT stands in BAR2 (R112). -/
def execRegisterWrite (off size : Nat) (val : Word) (s : State) : Out :=
  if bar2 ≤ off then
    let o := off - bar2
    let w := s.launchDropped + s.launchMalformed * 2 ^ 16 + s.launchDemoted * 2 ^ 32
    if !hostShut s ∧ (size = 4 ∨ size = 8) ∧ o % size = 0 ∧ 0x100008 ≤ o ∧ o < 0x100010 then
      let w := setFld w (8 * (o - 0x100008)) (8 * size) val.toNat
      .next { s with launchDropped := fld w 0 16, launchMalformed := fld w 16 16, launchDemoted := fld w 32 16 }
    else .next s
  else if (size ≠ 4 ∧ size ≠ 8) ∨ off % size ≠ 0 then .next (badAccess s)
  else .next (if size = 4 then write4 s off (val.toNat % 2 ^ 32) else write8 s off val.toNat)

end Sys2Proof.Machine
end

