-- ==== Sys2Proof/Machine/Int.lean ====
section
/-!
DEFINITION. Integer instructions (R311 to R316): the register forms in 64 and 32 bits, the immediate forms, shifts by an
immediate, and the bit-field forms.
-/

namespace Sys2Proof.Machine

/-! ## Operations on operands of any width (R311) -/

def opSll (n : Nat) (a b : BitVec n) : BitVec n := a <<< (b.toNat % n)
def opSrl (n : Nat) (a b : BitVec n) : BitVec n := a >>> (b.toNat % n)
def opSra (n : Nat) (a b : BitVec n) : BitVec n := a.sshiftRight (b.toNat % n)
def opRor (n : Nat) (a b : BitVec n) : BitVec n := a.rotateRight (b.toNat % n)
def opSlt (n : Nat) (a b : BitVec n) : BitVec n := if a.slt b then 1 else 0
def opSltu (n : Nat) (a b : BitVec n) : BitVec n := if a.ult b then 1 else 0
def opMin (n : Nat) (a b : BitVec n) : BitVec n := if a.sle b then a else b
def opMax (n : Nat) (a b : BitVec n) : BitVec n := if a.sle b then b else a
def opMinu (n : Nat) (a b : BitVec n) : BitVec n := if a.ule b then a else b
def opMaxu (n : Nat) (a b : BitVec n) : BitVec n := if a.ule b then b else a
def opMulh (n : Nat) (a b : BitVec n) : BitVec n := BitVec.ofInt n (a.toInt * b.toInt / 2 ^ n)
def opMulhu (n : Nat) (a b : BitVec n) : BitVec n := BitVec.ofNat n (a.toNat * b.toNat / 2 ^ n)
def opClz (n : Nat) (a : BitVec n) : BitVec n := if a = 0 then BitVec.ofNat n n else BitVec.ofNat n (n - 1 - Nat.log2 a.toNat)
def opCtz (n : Nat) (a : BitVec n) : BitVec n := BitVec.ofNat n ((lowest n fun i => a.getLsbD i).getD n)
def opPopc (n : Nat) (a : BitVec n) : BitVec n := BitVec.ofNat n ((List.range n).countP fun i => a.getLsbD i)
def opBswap (n : Nat) (a : BitVec n) : BitVec n := BitVec.ofNat n (leNat (leBytes (n / 8) a.toNat).reverse)

/-- A form of OP on 64 bits, or on the low 32 bits with the result sign-extended (R312). -/
def alu (w : Bool) (f : (n : Nat) → BitVec n → BitVec n → BitVec n) (a b : Word) : Word :=
  if w then (f 32 (a.truncate 32) (b.truncate 32)).signExtend 64 else f 64 a b

def alu1 (w : Bool) (f : (n : Nat) → BitVec n → BitVec n) (a : Word) : Word :=
  if w then (f 32 (a.truncate 32)).signExtend 64 else f 64 a

/-- rd := f(rs1, rs2). -/
def intOp (s : State) (d a b : XReg) (w : Bool) (f : (n : Nat) → BitVec n → BitVec n → BitVec n) : Out :=
  .next (wbX s d (alu w f (rx s a) (rx s b)))
/-- rd := f(rs1). -/
def intOp1 (s : State) (d a : XReg) (w : Bool) (f : (n : Nat) → BitVec n → BitVec n) : Out :=
  .next (wbX s d (alu1 w f (rx s a)))

/-- A division by zero traps with DIVZERO (R313). -/
def divOp (s : State) (d a b : XReg) (w : Bool) (f : (n : Nat) → BitVec n → BitVec n → BitVec n) : Out :=
  let z := if w then (rx s b).truncate 32 == (0 : BitVec 32) else rx s b == 0
  if z then .next (takeTrap s { cause := 0x06, tval := 0 }) else intOp s d a b w f

def execAdd (d a b : XReg) (w : Bool) (s : State) : Out := intOp s d a b w fun _ x y => x + y
def execSub (d a b : XReg) (w : Bool) (s : State) : Out := intOp s d a b w fun _ x y => x - y
def execAnd (d a b : XReg) (w : Bool) (s : State) : Out := intOp s d a b w fun _ x y => x &&& y
def execOr (d a b : XReg) (w : Bool) (s : State) : Out := intOp s d a b w fun _ x y => x ||| y
def execXor (d a b : XReg) (w : Bool) (s : State) : Out := intOp s d a b w fun _ x y => x ^^^ y
def execSll (d a b : XReg) (w : Bool) (s : State) : Out := intOp s d a b w opSll
def execSrl (d a b : XReg) (w : Bool) (s : State) : Out := intOp s d a b w opSrl
def execSra (d a b : XReg) (w : Bool) (s : State) : Out := intOp s d a b w opSra
def execRor (d a b : XReg) (w : Bool) (s : State) : Out := intOp s d a b w opRor
def execSlt (d a b : XReg) (w : Bool) (s : State) : Out := intOp s d a b w opSlt
def execSltu (d a b : XReg) (w : Bool) (s : State) : Out := intOp s d a b w opSltu
def execMin (d a b : XReg) (w : Bool) (s : State) : Out := intOp s d a b w opMin
def execMax (d a b : XReg) (w : Bool) (s : State) : Out := intOp s d a b w opMax
def execMinu (d a b : XReg) (w : Bool) (s : State) : Out := intOp s d a b w opMinu
def execMaxu (d a b : XReg) (w : Bool) (s : State) : Out := intOp s d a b w opMaxu
/-- SELNZ reads rd (R302, R311). -/
def execSelnz (d a b : XReg) (s : State) : Out := .next (wbX s d (if rx s d ≠ 0 then rx s a else rx s b))
def execMul (d a b : XReg) (w : Bool) (s : State) : Out := intOp s d a b w fun _ x y => x * y
def execMulh (d a b : XReg) (w : Bool) (s : State) : Out := intOp s d a b w opMulh
def execMulhu (d a b : XReg) (w : Bool) (s : State) : Out := intOp s d a b w opMulhu
def execDiv (d a b : XReg) (w : Bool) (s : State) : Out := divOp s d a b w fun _ x y => x.sdiv y
def execDivu (d a b : XReg) (w : Bool) (s : State) : Out := divOp s d a b w fun _ x y => x / y
def execRem (d a b : XReg) (w : Bool) (s : State) : Out := divOp s d a b w fun _ x y => x.srem y
def execRemu (d a b : XReg) (w : Bool) (s : State) : Out := divOp s d a b w fun _ x y => x % y
def execClz (d a : XReg) (w : Bool) (s : State) : Out := intOp1 s d a w opClz
def execCtz (d a : XReg) (w : Bool) (s : State) : Out := intOp1 s d a w opCtz
def execPopc (d a : XReg) (w : Bool) (s : State) : Out := intOp1 s d a w opPopc
def execBswap (d a : XReg) (w : Bool) (s : State) : Out := intOp1 s d a w opBswap

/-! ## Immediate forms (R314, R315) -/

def zextI (i : BitVec 16) : Word := i.setWidth 64

def immOp (s : State) (d a : XReg) (i : Word) (f : Word → Word → Word) : Out := .next (wbX s d (f (rx s a) i))

def execAddi (d a : XReg) (i : BitVec 16) (s : State) : Out := immOp s d a (sextI i) fun x y => x + y
def execAndi (d a : XReg) (i : BitVec 16) (s : State) : Out := immOp s d a (zextI i) fun x y => x &&& y
def execOri (d a : XReg) (i : BitVec 16) (s : State) : Out := immOp s d a (zextI i) fun x y => x ||| y
def execXori (d a : XReg) (i : BitVec 16) (s : State) : Out := immOp s d a (zextI i) fun x y => x ^^^ y
def execSlti (d a : XReg) (i : BitVec 16) (s : State) : Out := immOp s d a (sextI i) (opSlt 64)
def execSltiu (d a : XReg) (i : BitVec 16) (s : State) : Out := immOp s d a (sextI i) (opSltu 64)
def execLui (d : XReg) (i : BitVec 16) (s : State) : Out := .next (wbX s d (sextI i <<< 16))
def execShori (d a : XReg) (i : BitVec 16) (s : State) : Out := immOp s d a (zextI i) fun x y => x <<< 16 ||| y
def execAuipc (d : XReg) (i : BitVec 16) (s : State) : Out := .next (wbX s d ((cur s).pc + sextI i <<< 16))

/-- A shift by an immediate acts as the register form with that count (R315). -/
def shiftOp (s : State) (d a : XReg) (w : Bool) (n : Fin 64) (f : (k : Nat) → BitVec k → BitVec k → BitVec k) : Out :=
  .next (wbX s d (alu w f (rx s a) (wd n.val)))

def execSlli (d a : XReg) (w : Bool) (n : Fin 64) (s : State) : Out := shiftOp s d a w n opSll
def execSrli (d a : XReg) (w : Bool) (n : Fin 64) (s : State) : Out := shiftOp s d a w n opSrl
def execSrai (d a : XReg) (w : Bool) (n : Fin 64) (s : State) : Out := shiftOp s d a w n opSra
def execRori (d a : XReg) (w : Bool) (n : Fin 64) (s : State) : Out := shiftOp s d a w n opRor

/-! ## Bit fields (R316) -/

/-- The field is cut at bit 63. -/
def fieldLen (w : Nat) (o : Fin 64) : Nat := Nat.min w (64 - o.val)

def extuVal (a : Word) (w : Nat) (o : Fin 64) : Word := wd (fld a.toNat o.val (fieldLen w o))
def extsVal (a : Word) (w : Nat) (o : Fin 64) : Word :=
  BitVec.signExtend 64 (BitVec.ofNat (fieldLen w o) (fld a.toNat o.val (fieldLen w o)))
def insVal (d a : Word) (w : Nat) (o : Fin 64) : Word :=
  let m : Word := wd (2 ^ fieldLen w o - 1) <<< o.val
  (d &&& ~~~m) ||| (a <<< o.val &&& m)

def execExtu (d a : XReg) (w : Nat) (o : Fin 64) (s : State) : Out := .next (wbX s d (extuVal (rx s a) w o))
def execExts (d a : XReg) (w : Nat) (o : Fin 64) (s : State) : Out := .next (wbX s d (extsVal (rx s a) w o))
/-- INS reads the register it writes. -/
def execIns (d a : XReg) (w : Nat) (o : Fin 64) (s : State) : Out := .next (wbX s d (insVal (rx s d) (rx s a) w o))

end Sys2Proof.Machine
end

