-- ==== Sys2Proof/Machine/MemEvents.lean ====
section
/-!
DEFINITION. Events of memory: an entry of a store buffer performs, an AMO executes, a load's data returns (R233 to R237),
the patrol scrubber, and host memory and the host directory (R41, R104 to R109).
-/

namespace Sys2Proof.Machine

/-- One part of a store performs: at its bank, or at its home with a timestamp (R234, R205). -/
def performPart (s : State) (n : Nat) (e : SbEntry) (p : Part) : State :=
  let bs := (e.bytes.drop p.at_).take p.n
  if p.isComb then
    let t := combStore s p.combCl p.combOff bs
    match e.kind with
    | .cput cl i off =>
      modCell t cl i fun c =>
        if e.counted.contains (cl, i, c.cgen) then
          { c with valid := c.valid ||| BitVec.ofNat 32 (2 ^ (off / (c.pitch * 16))), cts := Nat.max c.cts (ctxOf s n).mts }
        else c
    | _ => t
  else
    let (ts, t) := homeStore s p e.pts bs
    let t := if p.cached then l1Update t n p ts else t
    modCtx t n fun c => { c with mts := Nat.max c.mts ts }

/-- The entry has performed: it leaves the buffer, and its cells count one write fewer (R244); a killed context with an
empty buffer turns IDLE (R161). -/
def sbPop (s : State) (n i : Nat) : State :=
  let t := match (ctxOf s n).sb[i]? with | some e => countDown s e.counted | none => s
  let t := modCtx t n fun c =>
    { c with sb := c.sb.eraseIdx i, loads := c.loads.map fun r => { r with ahead := r.ahead - 1 } }
  if (ctxOf t n).dying ∧ (ctxOf t n).sb.isEmpty then finishIdle t n else sbKick t n

/-- An entry leaves only after every load before it in program order has returned its data (R235). -/
def sbMayLeave (c : Ctx) (i : Nat) : Bool := c.loads.all fun r => decide (i < r.ahead)

/-- Which entry performs next (R235): the head, or a later ordinary store to HBM or host memory that no earlier entry
holds back, as the device happens to. -/
def sbChoice (s : State) (n : Nat) : Nat :=
  let sb := (ctxOf s n).sb
  let plain (e : SbEntry) : Bool := e.kind == .store && !e.ord
  let lines (e : SbEntry) : List Nat := e.parts.map Part.line
  let free (i : Nat) : Bool := i == 0 || (sbMayLeave (ctxOf s n) i &&
    match sb[i]? with
    | none => false
    | some e => plain e && e.parts.all (fun p => !p.isComb) && (sb.take i).all fun f =>
        plain f && (lines f).all fun l => !(lines e).contains l)
  let ok := (List.range sb.length).filter free
  if ok.length ≤ 1 then 0 else ok.getD (Config.victim s.fresh % ok.length) 0

/-- STORE_PERFORM (R234, R235): one part of an entry performs; a line the host may cache waits for BIRsp (R105). -/
def execStorePerform (cxa : Nat) (s : State) : Out :=
  let c := ctxOf s cxa
  let i := sbChoice s cxa
  match c.sb[i]? with
  | none => .next s
  | some e =>
    if !sbMayLeave c i then .next (later s (.storePerform cxa)) else
    match e.kind, e.parts with
    | .amo .., _ => .next (later s (.amoExecute cxa))
    | _, [] => .next (sbPop s cxa i)
    | _, p :: t =>
      if !p.isComb && biBlocks s p.line then .next (biWait s p.line (.storePerform cxa))
      else
        let u := performPart { s with fresh := s.fresh + 1 } cxa e p
        if t.isEmpty then .next (sbPop u cxa i)
        else .next (sbKick (modCtx u cxa fun c => { c with sb := c.sb.set i { e with parts := t } }) cxa)

/-- MRTS covers a timestamp read by an instruction older than every outstanding load (R237). -/
def Ctx.sawAt (c : Ctx) (ts : Nat) : Ctx :=
  { c with mrts := Nat.max c.mrts ts,
           loads := c.loads.map fun r => { r with snap := { r.snap with mrts := Nat.max r.snap.mrts ts } } }

/-- The old value of an HBM or host AMO reaches the context that waits for it (R336); nobody waits for one with destination
x0. -/
def amoReturn (s : State) (n rd width old : Nat) : State :=
  if rd = 0 then s else
  match (ctxOf s n).wait with
  | .amo .. => modCtx s n fun c => (c.setX (Fin.ofNat 32 rd) (amoRd width old)).goto (c.pc + 4)
  | _ => s

/-- AMO_EXECUTE (R237, R206, R109, R336): the AMO at the head of a buffer executes where its address lives. -/
def execAmoExecute (cxa : Nat) (s : State) : Out :=
  let c := ctxOf s cxa
  match c.sb with
  | [] => .next s
  | e :: _ =>
    if !sbMayLeave c 0 then .next (later s (.amoExecute cxa)) else
    match e.kind, e.parts with
    | .amo op w b ex rd, p :: _ =>
      if p.isComb then
        let t := sbPop (detectParts s [p]) cxa 0
        let cl := p.combCl
        let waits := match c.wait with
          | .amo .. => true
          | _ => false
        let refuse (e : Trap) : Out := .next (if waits then takeTrapAt t cxa e else t)
        let go : Out :=
          if (clOf t cl).poison.contains (p.combOff / 8) then refuse (combPoison t cl p.combOff)
          else .next (amoArrive t cl { off := p.combOff, op := op, width := w, b := b, exp := ex,
                                       who := if waits then .ctx cxa rd else .nobody, entered := false, since := cycOf s cxa })
        match boundTo t cl p.combOff with
        | some (i, k) => if combFull t cl (p.combOff / 8) then go else refuse (cellTrapOf cl i k)
        | none => go
      else if !isHbm p.pa then
        -- the host executes it as an AtomicOp; the entry stays until the completion comes (R109)
        .next (l2Evict s p.line)
      else if biBlocks s p.line then .next (biWait s p.line (.amoExecute cxa))
      else
        let t := lineDetect s p.line
        if t.poison.contains p.line then
          if rd = 0 then
            let u := eventBytes { t with fresh := t.fresh + 1 } (hbmRecord t p.line 1 1 1 (Config.syndrome t.fresh).toNat)
            .next (sbPop u cxa 0)
          else .next (takeTrapAt (sbPop t cxa 0) cxa { cause := 0x0C, tval := e.va % 2 ^ 48 })
        else
          let old := leNat (readUnder t p.key p.pa w)
          let bs := leBytes w (amoVal op w old b.toNat ex.toNat)
          let (ts, t) := homeStore t p e.pts bs
          let t := if p.cached then l1Update t cxa p ts else t
          let t := modCtx t cxa fun c => { c.sawAt ts with mts := Nat.max c.mts ts }
          .next (sbPop (amoReturn t cxa rd w old) cxa 0)
    | _, _ => .next (later s (.storePerform cxa))

/-- What a context did since its oldest outstanding load is undone, that load included: nothing that cannot be undone issues
meanwhile, and no younger store has left the buffer (R182, R235, log 64). -/
def goBack (s : State) (n : Nat) : State :=
  match (ctxOf s n).loads with
  | [] => s
  | r :: _ =>
    let t := ((ctxOf s n).sb.drop r.ahead).foldl (fun u e => countDown u e.counted) s
    modCtx t n fun c => { c.restore r.snap with sb := c.sb.take r.ahead, loads := [], waitSince := none, parked := false,
                                                wait := match c.wait with | .fetch .. | .load .. => .none | w => w }

/-- ATOMICOP_COMPLETION (R109): the host has executed the AMO at the head of a buffer, or refused it. An error traps; a
context that did not wait for the old value traps at the instruction it stands at (log 64). -/
def execAtomicopCompletion (cxa : Nat) (ok : Bool) (old : Word) (s : State) : Out :=
  match (ctxOf s cxa).sb with
  | e :: _ =>
    match e.kind, e.parts with
    | .amo op w b ex rd, p :: _ =>
      if p.isComb || isHbm p.pa then .next s
      else if ok then
        let o := old.toNat % 2 ^ (8 * w)
        let t := { s with mem := memWrite s.mem p.pa (leBytes w (amoVal op w o b.toNat ex.toNat)) }
        .next (sbPop (amoReturn t cxa rd w o) cxa 0)
      else
        let t := sbPop s cxa 0
        if !(ctxOf t cxa).active || (ctxOf t cxa).dying then .next t
        else if rd = 0 then .next (takeTrapAt (goBack (leaveWait t cxa) cxa) cxa (protTrap e.va .amo false))
        else .next (takeTrapAt t cxa (protTrap e.va .amo false))
    | _, _ => .next s
  | [] => .next s

/-! ## Loads whose data returns (R220, R233, R310) -/

/-- A fill: a copy of a line enters an L1, its AGE counted from the cycle its request left the core (R232). -/
def l1Fill (s : State) (n : Nat) (i : Bool) (p : Part) (h : Home) (since : Nat) : State :=
  if !p.cached then s
  else
    let c : L1Copy := ⟨p.line, readUnder s p.key (64 * p.line) 64, h.wts, h.rts, leaseOf s h.cls, since⟩
    modCore { s with fresh := s.fresh + 1 } (slotCore n) fun k =>
      if i then { k with l1i := l1Put 256 s.fresh k.l1i c } else { k with l1d := l1Put 512 s.fresh k.l1d c }

/-- A part is read at home, where the line is renewed for a clock, and a copy installed (R233). -/
def loadPart (s : State) (n : Nat) (p : Part) (pts since : Nat) : List Byte × Nat × State :=
  let (h, t) := homeLoad s p pts
  (readUnder t p.key p.pa p.n, h.wts, l1Fill t n false p h since)

/-- The parts of a request in order: what it has at hand, the rest from home for a clock. -/
def loadParts (s : State) (n pts : Nat) (r : LoadReq) : List (Part × Option (List Byte × Nat)) → List Byte → Nat →
    List Byte × Nat × State
  | [], bs, w => (bs, w, s)
  | (p, g) :: t, bs, w =>
    match g, r.force && p.cached with
    | some g, false => loadParts s n pts r t (bs ++ g.1) (Nat.max w g.2)
    | g, _ =>
      let (b, v, u) := loadPart s n p pts r.since
      loadParts u n pts r t (bs ++ (g.map Prod.fst).getD b) (Nat.max w v)

/-- A request that has waited for a fill applies the test again (R233). -/
def LoadReq.retest (s : State) (n : Nat) (r : LoadReq) : LoadReq :=
  { r with got := (r.parts.zip r.got).map fun q =>
      q.2.orElse fun _ => if r.force then none else (l1For s n q.1).map fun c => (c.bytes q.1, c.wts) }

/-- A request leaves the core now (R232). -/
def LoadReq.leave (s : State) (n : Nat) (r : LoadReq) : LoadReq := { r with sent := true, since := cycOf s n, gtc := s.gtc }

/-- The outstanding ordinary loads of the device: slot, place in its list, request. -/
def loadsOut (s : State) : List (Nat × Nat × LoadReq) :=
  s.ctxs.flatMap fun (p : Nat × Ctx) => p.2.loads.zipIdx.map fun (q : LoadReq × Nat) => (p.1, q.2, q.1)

/-- The aligned 8-byte word that a load reads, if it reads one alone, and at home (R220). -/
def LoadReq.word (r : LoadReq) : Option Part :=
  match r.parts, r.missing with
  | [p], [_] => if p.pa / 8 = (p.pa + p.n - 1) / 8 then some p else none
  | _, _ => none

/-- The loads that home combines with one that has arrived (R220): of the same word, from other cores, those within 64 mesh
cycles of it, or any while it waits for HBM; which of them have arrived is the device's choice. -/
def combined (s : State) (n : Nat) (r : LoadReq) : List (Nat × Nat × LoadReq) × State :=
  match r.word with
  | none => ([], s)
  | some p =>
    let near (q : Nat × Nat × LoadReq) : Bool :=
      slotCore q.1 != slotCore n && q.2.2.sent && decide (r.gtc ≤ q.2.2.gtc) &&
      (decide (q.2.2.gtc * 8 / 5 ≤ r.gtc * 8 / 5 + 64) || (fget s.home p.line).isNone) &&
      (match q.2.2.word with
        | some x => x.pa / 8 == p.pa / 8 && x.key == p.key
        | none => false)
    match (loadsOut s).filter near with
    | [] => ([], s)
    | l =>
      let (f, t) := draw s
      ((l.zipIdx.filter fun (q : (Nat × Nat × LoadReq) × Nat) => bit (Config.choose f) q.2).map Prod.fst, t)

/-- The largest PTS among combined loads (R220). -/
def mostPts (s : State) (n : Nat) (l : List (Nat × Nat × LoadReq)) : Nat :=
  l.foldl (fun m q => Nat.max m (ctxOf s q.1).pts) (ctxOf s n).pts

/-- A load's value reaches its register unless a younger instruction has written that, and the registers that a later load
would leave, of those loads that issued before that instruction (R182, R233). -/
def Ctx.loadGiven (c : Ctx) (j : Nat) (r : LoadReq) (bs : List Byte) (w : Nat) : Ctx :=
  let put (live : Bool) (d : Ctx) : Ctx := let d := if live then d.putBack r bs else d; { d with mrts := Nat.max d.mrts w }
  { put r.dead.isNone c with loads := (c.loads.eraseIdx j).zipIdx.map fun (q : LoadReq × Nat) =>
      if q.2 < j then q.1
      else { q.1 with snap := (put (r.dead.all fun k => decide (q.1.num < k)) (c.restore q.1.snap)).snap } }

def loadGive (s : State) (n j : Nat) (r : LoadReq) (bs : List Byte) (w : Nat) : State :=
  modCtx s n fun c => c.loadGiven j r bs w

/-- A load combined with one that home has answered gets the same data, wts and rts (R220). -/
def combinedGive (s : State) (h : Home) (q : Nat × Nat × LoadReq) : State :=
  match q.2.2.word with
  | none => s
  | some p => loadGive (l1Fill s q.1 false p h q.2.2.since) q.1 q.2.1 q.2.2 (readUnder s p.key p.pa p.n) h.wts

/-- The `j`-th outstanding load of slot `n`, whose request has left, gets its data (R220, R233). -/
def loadBack (s : State) (n j : Nat) (r : LoadReq) : State :=
  match r.word with
  | some p =>
    let (l, t) := combined s n r
    let (h, t) := homeLoad t p (mostPts t n l)
    let bs := readUnder t p.key p.pa p.n
    l.foldl (fun u q => combinedGive u h q) (loadGive (l1Fill t n false p h r.since) n j r bs h.wts)
  | none =>
    let (bs, w, t) := loadParts s n (ctxOf s n).pts r (r.parts.zip r.got) [] 0
    loadGive t n j r bs w

/-- The line of a list of parts that waits for the host (R107). -/
def biHeld (s : State) (ps : List Part) : Option Part := ps.find? fun p => !p.isComb && biPending s p.line

/-- What an ordinary load meets when its data comes (R39, R107, R233): a fill that it waits for, the host's answer to wait for,
poison, its value. A poisoned one asks again once it is the oldest, and then undoes what followed it (R182). -/
def loadListReturn (s : State) (n j : Nat) (r : LoadReq) : State :=
  let set (t : State) (q : LoadReq) : State := later (modCtx t n fun c => { c with loads := c.loads.set j q }) (.loadReturn n)
  if !r.sent then
    if fillWaits s n ((ctxOf s n).loads.take j) r.missing then later s (.loadReturn n)
    else
      let q := r.retest s n
      if q.missing.isEmpty then loadGive s n j q (gotBytes q.got).1 (gotBytes q.got).2 else set s (q.leave s n)
  else match biHeld s r.missing with
    | some p => biWait s p.line (.loadReturn n)
    | none =>
      let t := r.missing.foldl (fun u p => lineDetect u p.line) s
      match r.missing.find? fun p => t.poison.contains p.line with
      | some p =>
        if j = 0 then takeTrapAt (goBack t n) n { cause := 0x0C, tval := (r.va + p.at_) % 2 ^ 48 }
        else set t { r with sent := false }
      | none => loadBack t n j r

/-- Another context of the core has asked for the instruction line that slot `n` fetches (R233). -/
def fetchAhead (s : State) (n line : Nat) : Bool :=
  s.ctxs.any fun (q : Nat × Ctx) => slotCore q.1 == slotCore n && q.1 != n && (match q.2.wait with
    | .fetch p _ sent => sent && p.line == line
    | _ => false)

/-- What a fetch meets when its line comes (R39, R233): a fill that it waits for, a copy that has become usable, a fill. -/
def fetchReturn (s : State) (n : Nat) (p : Part) (since : Nat) (sent : Bool) : State :=
  let done (t : State) (bs : List Byte) (w : Nat) : State :=
    modCtx t n fun c => { c with wait := .none, fetched := some (p.pa, leNat bs), mrts := Nat.max c.mrts w }
  if !sent then
    if fetchAhead s n p.line then later s (.loadReturn n)
    else match l1iFor s n p with
      | some c => done s (c.bytes p) c.wts
      | none => later (modCtx s n fun c => { c with wait := .fetch p (cycOf s n) true }) (.loadReturn n)
  else if biPending s p.line then biWait s p.line (.loadReturn n)
  else if !p.cached then modCtx s n fun c => { c with wait := .none }
  else
    let t := lineDetect s p.line
    if t.poison.contains p.line then
      if (ctxOf t n).loads.isEmpty then
        takeTrapAt t n { cause := 0x0C, tval := (ctxOf s n).pc.toNat % 2 ^ 48 + 2 ^ 49 }
      else later (modCtx t n fun c => { c with wait := .fetch p since false }) (.loadReturn n)
    else
      let (h, t) := homeLoad t p (ctxOf s n).pts
      done (l1Fill t n true p h since) (readUnder t p.key p.pa p.n) h.wts

/-- LDA.F passes the read timestamp of the copy the L1 holds (R241, R252). -/
def pastCopy (s : State) (n : Nat) (p : Part) : State :=
  if !p.cached then s
  else match l1Get (coreOf s (slotCore n)).l1d p.line with
    | some c => tsCheck (modCtx s n fun x => { x with pts := Nat.max x.pts (c.rts + 1) }) (Nat.max (ctxOf s n).pts (c.rts + 1))
    | none => s

/-- What an LDA meets when its data comes; no load is outstanding before it (R240, R241). -/
def ldaReturn (s : State) (n : Nat) (r : LoadReq) (acq : Option Scope) : State :=
  let set (q : LoadReq) : State := later (modCtx s n fun c => { c with wait := .load q acq }) (.loadReturn n)
  let comb := r.parts.all Part.isComb
  if r.missing.isEmpty then loadDone s n r.dst (gotBytes r.got).1 (gotBytes r.got).2 acq comb
  else if !r.sent then
    if fillWaits s n [] r.missing then later s (.loadReturn n)
    else
      let q := r.retest s n
      if q.missing.isEmpty then set q else set (q.leave s n)
  else match biHeld s r.missing with
    | some p => biWait s p.line (.loadReturn n)
    | none =>
      let t := r.missing.foldl (fun u p => lineDetect u p.line) s
      match r.missing.find? fun p => t.poison.contains p.line with
      | some p => takeTrapAt t n { cause := 0x0C, tval := (r.va + p.at_) % 2 ^ 48 }
      | none =>
        let t := if r.force then r.parts.foldl (fun u p => pastCopy u n p) t else t
        let (bs, w, t) := loadParts t n (ctxOf t n).pts r (r.parts.zip r.got) [] 0
        loadDone t n r.dst bs w acq comb

/-- One of the outstanding loads gets its data, as the device happens to bring it. -/
def anyLoad (s : State) (n : Nat) : State :=
  match (ctxOf s n).loads with
  | [] => s
  | [r] => loadListReturn s n 0 r
  | r :: l =>
    let (f, t) := draw s
    let j := Config.choose f % (l.length + 1)
    loadListReturn t n j ((r :: l).getD j r)

/-- LOAD_RETURN (R233): the data of an LDA, of a fetch or of one of the outstanding loads comes back. An LDA's comes after that
of the loads before it (R240). -/
def execLoadReturn (cxa : Nat) (s : State) : Out :=
  let c := ctxOf s cxa
  match c.wait with
  | .load r acq => .next (if c.loads.isEmpty then ldaReturn s cxa r acq else anyLoad s cxa)
  | .fetch p since sent =>
    if c.loads.isEmpty then .next (fetchReturn s cxa p since sent)
    else
      let (f, t) := draw s
      let j := Config.choose f % (c.loads.length + 1)
      match c.loads[j]? with
      | some r => .next (loadListReturn t cxa j r)
      | none => .next (fetchReturn t cxa p since sent)
  | _ => .next (anyLoad s cxa)

/-- PATROL_SCRUB (R41): a line is read; what is wrong with it shows now. -/
def execPatrolScrub (line : Nat) (s : State) : Out := .next (hbmDetect { s with scrub := line } line)

/-! ## Host accesses to device memory (R103 to R107) -/

/-- Where `n` bytes of a host physical address lie in a decoder's range: the address in the window it maps to (R103). -/
def hdmIn (d : Nat × Nat) (window hpa n : Nat) : Option Nat :=
  if d.1 ≤ hpa ∧ hpa + n ≤ d.1 + d.2 then some (window + (hpa - d.1)) else none

/-- The physical address that a host physical address reaches, if a decoder claims it (R103): decoder 0, else decoder 1. -/
def hdmPa (s : State) (hpa n : Nat) : Option Nat :=
  match (hdmIn s.hdm[0]! 0 hpa n).orElse fun _ => hdmIn s.hdm[1]! (2 ^ 39) hpa n with
  | some pa => if (stackOf s pa).isSome then some pa else none
  | none => none

/-- A back-invalidation that meets a host request of its line is issued again once the request is complete (R106). -/
def biReissue (s : State) (line : Nat) : State :=
  match fget s.backInv line with
  | some b => { s with backInv := fset s.backInv line { b with since := s.gtc, reported := false } }
  | none => s

/-- The directory entry that has to go before a line can enter: the least recently entered of its full set, of those that no
back-invalidation is out for if there is one (R105). 2,048 sets of 16 ways, as the device draws them (log 10). -/
def dirVictim (s : State) (line : Nat) : Option Nat :=
  let slice := s.hostDir.filter fun l => sliceOf s l == sliceOf s line
  if s.hostDir.contains line || decide (slice.length < 16) then none
  else
    let set := slice.filter fun l => Config.dirSet l % 2048 == Config.dirSet line % 2048
    if set.length < 16 then none else (set.find? (!biPending s ·)).orElse fun _ => set.head?

/-- The host physical address `off` bytes into a block of 256 MiB. -/
def hostAddr (block off : Nat) : Nat := 2 ^ 28 * block + off

/-- A line that another KEY holds is written back, fetched again and recorded under this one (R216). -/
def rekeyHome (s : State) (line key : Nat) : State :=
  match fget s.home line with
  | none => s
  | some h =>
    if h.key = key then s
    else
      let (h, t) := homeHit s line key h
      { t with home := fset t.home line h }

/-- HDM_READ (R104): the home value of a line under key slot 0 (R103), rts unchanged; the line enters the host directory, once there is room for it
(R105). -/
def execHdmRead (block off : Nat) (s : State) : Out :=
  match (if hostShut s then none else hdmPa s (hostAddr block off / 64 * 64) 64) with
  | none => .next s
  | some pa =>
    let line := pa / 64
    match dirVictim s line with
    | some v => .next (biWait s v (.hdmRead block off))
    | none =>
      let t := biReissue (rekeyHome (lineDetect s line) line 0) line
      .next { t with hostRd := readUnder t 0 pa 64,
                     hostDir := if t.hostDir.contains line then t.hostDir else t.hostDir ++ [line] }

/-- HDM_WRITE (R104): a store at home with ts := home rts + 1, under key slot 0. HTS covers it (R117). A line it brings into the
L2 has no page and takes CLASS W (DESIGN CHOICE, log 78). -/
def execHdmWrite (block off : Nat) (bytes : List Byte) (s : State) : Out :=
  match (if hostShut s then none else hdmPa s (hostAddr block off) bytes.length) with
  | none => .next s
  | some pa =>
    if bytes.isEmpty || decide (64 < pa % 64 + bytes.length) then .next s
    else
      let p : Part := { pa := pa, n := bytes.length, at_ := 0, key := 0, cls := 0, sys := false }
      let (ts, t) := homeStore s p 0 bytes
      .next (biReissue { t with hts := Nat.max t.hts ts } p.line)

/-- BIRSP (R105, R106): the directory entry is cleared and what waited for it performs, before what came later (R68). -/
def execBirsp (line : Nat) (s : State) : Out :=
  match fget s.backInv line with
  | none => .next s
  | some b =>
    .next { s with backInv := fdel s.backInv line, hostDir := s.hostDir.filter (· != line), agenda := b.retry ++ s.agenda }

/-- BI_TIMEOUT (R107): one event record of type 0x25; the access stays pending. -/
def execBiTimeout (line : Nat) (s : State) : Out :=
  match fget s.backInv line with
  | none => .next s
  | some b =>
    if b.reported ∨ s.gtc < b.since + 1000000 then .next s
    else .next (event { s with backInv := fset s.backInv line { b with reported := true } }
      (unitSrc 2 (sliceOf s line)) 0x25 [(16, 8, 64 * line)])

/-- Host memory (R223). -/
def isHostLine (line : Nat) : Bool := decide (2 ^ 48 ≤ 64 * line) && decide (64 * line < 2 ^ 52)

/-- The host writes a line of its memory: the L2's copy has gone, a refill takes wts above its rts (R249), and the bytes are
what the host put there: free (log 37). -/
def hostWrites (s : State) (line : Nat) : State :=
  let s := match fget s.home line with
    | none => s
    | some h => l2Evict { s with home := fset s.home line { h with rts := h.rts + 1 } } line
  let (f, t) := draw s
  { t with mem := memWrite t.mem (64 * line) ((List.range 64).map fun i => Config.hostByte (64 * f + i)) }

/-- HOST_SNOOP (R108, R249): SnpInv takes a host line from the L2, a dirty one written back, and the host writes it; any other
snoop has a dirty one written back. -/
def execHostSnoop (line : Nat) (inv : Bool) (s : State) : Out :=
  if !isHostLine line then .next s
  else if inv then .next (hostWrites s line)
  else match fget s.home line with
    | some h => .next { s with home := fset s.home line { h with dirty := false } }
    | none => .next s

end Sys2Proof.Machine
end

