-- ==== Sys2Proof/Machine/Vector.lean ====
section
/-!
DEFINITION. Vector and mask instructions (R343 to R355): elements by lane, predication by the bit of an element's lowest
byte lane, flags of active elements ORed together.
-/

namespace Sys2Proof.Machine

/-- Bytes of an element (R343). -/
def etBytes : ETy → Nat
  | .i8 | .ui8 | .e4m3 | .e5m2 => 1
  | .i16 | .ui16 | .f16 | .bf16 => 2
  | .i32 | .ui32 | .f32 => 4
  | .i64 | .ui64 | .f64 => 8

def etFmt : ETy → Fmt
  | .f16 => .fp16 | .bf16 => .bf16 | .f32 => .f32 | .f64 => .f64 | .e4m3 => .e4m3 | .e5m2 => .e5m2 | _ => .f64

def etSigned : ETy → Bool
  | .i8 | .i16 | .i32 | .i64 => true
  | _ => false

/-- Element `e` of `b` bytes. -/
def elemOf (b : Nat) (v : VWord) (e : Nat) : Nat := fld v.toNat (8 * b * e) (8 * b)
def elemsOf (b : Nat) (v : VWord) : List Nat := (List.range (16 / b)).map (elemOf b v)
/-- A register from its elements, the lowest first. -/
def packElems (b : Nat) : List Nat → Nat
  | [] => 0
  | e :: t => e % 2 ^ (8 * b) + 2 ^ (8 * b) * packElems b t
def vOf (b : Nat) (es : List Nat) : VWord := BitVec.ofNat 128 (packElems b es)

/-- active(e) of R343. -/
def activeE (c : Ctx) (p : Pred) (b e : Nat) : Bool :=
  match p with
  | none => true
  | some m => (c.getM m).getLsbD (b * e)

/-- Integer value of an element. -/
def elemInt (t : ETy) (w : Nat) : Int := if (etSigned t) then sint w (8 * (etBytes t)) else (w % 2 ^ (8 * (etBytes t)) : Nat)

/-- The range of an integer element type. -/
def elemRange (t : ETy) : Int × Int :=
  if (etSigned t) then (-2 ^ (8 * (etBytes t) - 1), 2 ^ (8 * (etBytes t) - 1) - 1) else (0, 2 ^ (8 * (etBytes t)) - 1)

/-- Active elements computed from their place, the others kept; their flags together (R343). -/
def mapE (s : State) (p : Pred) (b : Nat) (d : VReg) (f : Nat → Nat × Fl) : VWord × Fl :=
  let c := cur s
  let old := c.getV d
  let rs := (List.range (16 / b)).map fun e => if activeE c p b e then f e else (elemOf b old e, {})
  (vOf b (rs.map Prod.fst), rs.foldl (fun k r => k.join r.2) {})

def wbVF (s : State) (d : VReg) (r : VWord × Fl) : State := next (modCur s fun c => (c.setV d r.1).flag r.2)

/-- An element-wise form on two registers (R345). -/
def vop2 (s : State) (t : ETy) (d a b : VReg) (p : Pred) (f : Nat → Nat → Nat × Fl) : Out :=
  .next (wbVF s d (mapE s p (etBytes t) d fun e => f (elemOf (etBytes t) (rv s a) e) (elemOf (etBytes t) (rv s b) e)))

/-- Integer or float, as the element type says. -/
def vArith (s : State) (t : ETy) (d a b : VReg) (p : Pred) (fi : Int → Int → Int) (ff : FBin) : Out :=
  vop2 s t d a b p fun x y =>
    if t.isInt then (wrapN (8 * (etBytes t)) (fi (elemInt t x) (elemInt t y)), {}) else farith (etFmt t) (cur s).round ff x y

def execVadd (t : ETy) (d a b : VReg) (p : Pred) (s : State) : Out := vArith s t d a b p (· + ·) .add
def execVsub (t : ETy) (d a b : VReg) (p : Pred) (s : State) : Out := vArith s t d a b p (· - ·) .sub
def execVmul (t : ETy) (d a b : VReg) (p : Pred) (s : State) : Out := vArith s t d a b p (· * ·) .mul

/-- VFMA reads vd (R345). -/
def execVfma (t : ETy) (d a b : VReg) (p : Pred) (s : State) : Out :=
  let n := (etBytes t)
  .next (wbVF s d (mapE s p n d fun e =>
    let x := elemOf n (rv s a) e
    let y := elemOf n (rv s b) e
    let z := elemOf n (rv s d) e
    if t.isInt then ((z + x * y) % 2 ^ (8 * n), {}) else ffma (etFmt t) (cur s).round x y z))

def vMinMax (s : State) (t : ETy) (d a b : VReg) (p : Pred) (isMax : Bool) : Out :=
  vop2 s t d a b p fun x y =>
    if t.isInt then ((if (decide (elemInt t x ≤ elemInt t y)) != isMax then x else y), {}) else fminmax (etFmt t) isMax x y

def execVmin (t : ETy) (d a b : VReg) (p : Pred) (s : State) : Out := vMinMax s t d a b p false
def execVmax (t : ETy) (d a b : VReg) (p : Pred) (s : State) : Out := vMinMax s t d a b p true

def vSat (s : State) (t : ETy) (d a b : VReg) (p : Pred) (fi : Int → Int → Int) : Out :=
  vop2 s t d a b p fun x y =>
    (wrapN (8 * (etBytes t)) (clampI (elemRange t).1 (elemRange t).2 (fi (elemInt t x) (elemInt t y))), {})

def execVadds (t : ETy) (d a b : VReg) (p : Pred) (s : State) : Out := vSat s t d a b p (· + ·)
def execVsubs (t : ETy) (d a b : VReg) (p : Pred) (s : State) : Out := vSat s t d a b p (· - ·)

def execVand (t : ETy) (d a b : VReg) (p : Pred) (s : State) : Out := vop2 s t d a b p fun x y => (x.land y, {})
def execVor (t : ETy) (d a b : VReg) (p : Pred) (s : State) : Out := vop2 s t d a b p fun x y => (x.lor y, {})
def execVxor (t : ETy) (d a b : VReg) (p : Pred) (s : State) : Out := vop2 s t d a b p fun x y => (x.xor y, {})
def execVsll (t : ETy) (d a b : VReg) (p : Pred) (s : State) : Out :=
  vop2 s t d a b p fun x y => (x * 2 ^ (y % (8 * (etBytes t))) % 2 ^ (8 * (etBytes t)), {})
def execVsrl (t : ETy) (d a b : VReg) (p : Pred) (s : State) : Out :=
  vop2 s t d a b p fun x y => (x / 2 ^ (y % (8 * (etBytes t))), {})
def execVsra (t : ETy) (d a b : VReg) (p : Pred) (s : State) : Out :=
  vop2 s t d a b p fun x y => (wrapN (8 * (etBytes t)) (sint x (8 * (etBytes t)) / 2 ^ (y % (8 * (etBytes t)))), {})
def execVdiv (t : ETy) (d a b : VReg) (p : Pred) (s : State) : Out := vop2 s t d a b p (farith (etFmt t) (cur s).round .div)
def execVsqrt (t : ETy) (d a : VReg) (p : Pred) (s : State) : Out :=
  vop2 s t d a a p fun x _ => fsqrtBits (etFmt t) (cur s).round x

/-! ## Compares and masks (R346, R347) -/

/-- The mask a compare writes: every lane bit of an active element, the others kept (R346). -/
def cmpMask (old : BitVec 16) (b : Nat) (rs : List (Option Bool)) : BitVec 16 :=
  BitVec.ofNat 16 ((List.range 16).foldl (fun w i =>
    let on := match rs.getD (i / b) none with | some r => r | none => old.getLsbD i
    w + b2n on * 2 ^ i) 0)

def intCmp (op : FCmp) (x y : Int) : Bool :=
  match op with
  | .eq => decide (x = y) | .ne => decide (x ≠ y) | .lt => decide (x < y) | .le => decide (x ≤ y)

def vcmp (s : State) (t : ETy) (d : MReg) (a b : VReg) (p : Pred) (op : FCmp) : Out :=
  let n := (etBytes t)
  let c := cur s
  let rs := (List.range (16 / n)).map fun e =>
    if activeE c p n e then
      let x := elemOf n (c.getV a) e
      let y := elemOf n (c.getV b) e
      let (r, k) : Bool × Fl := if t.isInt then (intCmp op (elemInt t x) (elemInt t y), {}) else fcompare (etFmt t) op x y
      (some r, k)
    else ((none : Option Bool), ({} : Fl))
  let m := cmpMask (c.getM d) n (rs.map Prod.fst)
  .next (next (modCur s fun c => (c.setM d m).flag (rs.foldl (fun k r => k.join r.2) {})))

def execVcmpeq (t : ETy) (d : MReg) (a b : VReg) (p : Pred) (s : State) : Out := vcmp s t d a b p .eq
def execVcmpne (t : ETy) (d : MReg) (a b : VReg) (p : Pred) (s : State) : Out := vcmp s t d a b p .ne
def execVcmplt (t : ETy) (d : MReg) (a b : VReg) (p : Pred) (s : State) : Out := vcmp s t d a b p .lt
def execVcmple (t : ETy) (d : MReg) (a b : VReg) (p : Pred) (s : State) : Out := vcmp s t d a b p .le

/-- VSEL writes all of vd (R347). -/
def execVsel (t : ETy) (d a b : VReg) (m : MReg) (s : State) : Out :=
  let n := (etBytes t)
  .next (wbV s d (vOf n ((List.range (16 / n)).map fun e =>
    if activeE (cur s) (some m) n e then elemOf n (rv s a) e else elemOf n (rv s b) e)))
def execVmov (d a : VReg) (p : Pred) (s : State) : Out :=
  .next (wbVF s d (mapE s p 1 d fun e => (elemOf 1 (rv s a) e, {})))
def execMand (d a b : MReg) (s : State) : Out := .next (wbM s d (rm s a &&& rm s b))
def execMor (d a b : MReg) (s : State) : Out := .next (wbM s d (rm s a ||| rm s b))
def execMxor (d a b : MReg) (s : State) : Out := .next (wbM s d (rm s a ^^^ rm s b))
def execMnot (d a : MReg) (s : State) : Out := .next (wbM s d (~~~rm s a))
def execMfromx (d : MReg) (a : XReg) (s : State) : Out := .next (wbM s d ((rx s a).truncate 16))
def execMtox (d : XReg) (a : MReg) (s : State) : Out := .next (wbX s d ((rm s a).setWidth 64))
def execMpopc (d : XReg) (a : MReg) (s : State) : Out :=
  .next (wbX s d (wd ((List.range 16).countP fun i => (rm s a).getLsbD i)))

/-! ## Conversion and dot product (R348 to R350) -/

/-- One element converted from a type to another (R348). -/
def vconv (rm : Rm) (sat : Bool) (t src : ETy) (w : Nat) : Nat × Fl :=
  if src.isInt then
    let i := elemInt src w
    if t.isInt then (wrapN (8 * (etBytes t)) (clampI (elemRange t).1 (elemRange t).2 i), {})
    else fcvtBits rm sat (etFmt t) (ofInt i)
  else
    let v := unpack (etFmt src) w
    if t.isInt then
      let (i, k) := toInt rm (elemRange t).1 (elemRange t).2 v
      (wrapN (8 * (etBytes t)) i, k)
    else fcvtBits rm sat (etFmt t) v

def execVcvt (t src : ETy) (d a : VReg) (p : Pred) (s : State) : Out :=
  let bd := (etBytes t)
  let bs := (etBytes src)
  let k := 16 / Nat.max bd bs
  let c := cur s
  let rs := (List.range (16 / bd)).map fun e =>
    if k ≤ e then ((0 : Nat), ({} : Fl))
    else if activeE c p bd e then vconv c.round c.sat t src (elemOf bs (c.getV a) e)
    else (elemOf bd (c.getV d) e, {})
  .next (wbVF s d (vOf bd (rs.map Prod.fst), rs.foldl (fun f r => f.join r.2) {}))

/-- One sum of products (R350). -/
def vdotElem (rm : Rm) (t src : ETy) (x y : VWord) (e : Nat) : Nat × Fl :=
  let r := (etBytes t) / (etBytes src)
  let ps := (List.range r).map fun i => (elemOf (etBytes src) x (e * r + i), elemOf (etBytes src) y (e * r + i))
  if t.isInt then (wrapN (8 * (etBytes t)) (ps.foldl (fun a p => a + elemInt src p.1 * elemInt src p.2) 0), {})
  else fdot rm (etFmt src) ps

/-- VDOT multiplies vs1 and the register after it (R349). -/
def execVdot (t src : ETy) (d a : VReg) (p : Pred) (s : State) : Out :=
  let x := rv s a
  let y := rv s (a + 1)
  .next (wbVF s d (mapE s p (etBytes t) d (vdotElem (cur s).round t src x y)))

/-! ## Permutation, hashing, compression, element access, reductions (R351 to R355) -/

def execVperm (t : ETy) (d a b : VReg) (p : Pred) (s : State) : Out :=
  let n := (etBytes t)
  .next (wbVF s d (mapE s p n d fun e => (elemOf n (rv s a) (elemOf n (rv s b) e % (16 / n)), {})))

/-- hash64 and hash32 of R352. -/
def hash64 (a b : BitVec 64) : BitVec 64 :=
  let x := (a ^^^ b.rotateRight 23) * 0xD1A56E3B9C47F2A9#64
  let x := (x ^^^ (x >>> 31)) * 0x8F3C52D7A61E4B93#64
  x ^^^ (x >>> 29)
def hash32 (a b : BitVec 32) : BitVec 32 :=
  let x := (a ^^^ b.rotateRight 13) * 0xC5A38E17#32
  let x := (x ^^^ (x >>> 15)) * 0x9B1D64F3#32
  x ^^^ (x >>> 16)

def execVhash (t : ETy) (d a b : VReg) (p : Pred) (s : State) : Out :=
  vop2 s t d a b p fun x y =>
    if (etBytes t) = 8 then ((hash64 (wd x) (wd y)).toNat, {})
    else ((hash32 (BitVec.ofNat 32 x) (BitVec.ofNat 32 y)).toNat, {})

/-- Zero for VNZC: all bits zero, or −0 of a float (R353). -/
def elemZero (t : ETy) (w : Nat) : Bool :=
  decide (w = 0) || (!t.isInt && decide (w = 2 ^ (8 * (etBytes t) - 1)))

def execVnzc (t : ETy) (d a : VReg) (m : MReg) (s : State) : Out :=
  let n := (etBytes t)
  let nz := (elemsOf n (rv s a)).filter fun w => !elemZero t w
  .next (next (modCur s fun c => (c.setV d (vOf n nz)).setM m (BitVec.ofNat 16 (2 ^ (nz.length * n) - 1))))

def execVsplat (t : ETy) (d : VReg) (a : XReg) (p : Pred) (s : State) : Out :=
  .next (wbVF s d (mapE s p (etBytes t) d fun _ => ((rx s a).toNat % 2 ^ (8 * (etBytes t)), {})))

/-- An element as it enters an x register: extended by its type (R354, R355). -/
def elemX (t : ETy) (w : Nat) : Word := if (etSigned t) then BitVec.ofInt 64 (elemInt t w) else wd w

def execVext (t : ETy) (d : XReg) (a : VReg) (b : XReg) (s : State) : Out :=
  let n := (etBytes t)
  .next (wbX s d (elemX t (elemOf n (rv s a) ((rx s b).toNat % (16 / n)))))

def execVins (t : ETy) (d : VReg) (a b : XReg) (s : State) : Out :=
  let n := (etBytes t)
  .next (wbV s d (vOf n ((elemsOf n (rv s d)).set ((rx s b).toNat % (16 / n)) ((rx s a).toNat % 2 ^ (8 * n)))))

/-- One level of the pairwise tree: a node with one active input passes it on (R355). -/
def treeLevel (f : Nat → Nat → Nat × Fl) : List (Option Nat) → List (Option Nat) × Fl
  | a :: b :: t =>
    let (r, k) := treeLevel f t
    match a, b with
    | some x, some y => let (z, j) := f x y; (some z :: r, j.join k)
    | some x, none => (some x :: r, k)
    | none, y => (y :: r, k)
  | l => (l, {})

def tree (f : Nat → Nat → Nat × Fl) : Nat → List (Option Nat) → Option Nat × Fl
  | 0, l => (l.headD none, {})
  | k + 1, l => let (m, g) := treeLevel f l; let (r, j) := tree f k m; (r, g.join j)

/-- A reduction into an x register (R355). -/
def vred (s : State) (t : ETy) (d : XReg) (a : VReg) (p : Pred) (fi : Int → Int → Int) (ff : Nat → Nat → Nat × Fl) : Out :=
  let n := (etBytes t)
  let es := (List.range (16 / n)).map fun e =>
    if activeE (cur s) p n e then some (elemOf n (rv s a) e) else (none : Option Nat)
  if t.isInt then
    match es.filterMap fun o => o.map (elemInt t) with
    | [] => .next (wbX s d 0)
    | x :: r => .next (wbX s d (BitVec.ofInt 64 (r.foldl fi x)))
  else
    let (r, k) := tree ff 4 es
    .next (wbF s d (r.getD 0, k))

def execVredsum (t : ETy) (d : XReg) (a : VReg) (p : Pred) (s : State) : Out :=
  vred s t d a p (· + ·) (farith (etFmt t) (cur s).round .add)
def execVredmax (t : ETy) (d : XReg) (a : VReg) (p : Pred) (s : State) : Out :=
  vred s t d a p (fun x y => if x ≤ y then y else x) (fminmax (etFmt t) true)
def execVredmin (t : ETy) (d : XReg) (a : VReg) (p : Pred) (s : State) : Out :=
  vred s t d a p (fun x y => if x ≤ y then x else y) (fminmax (etFmt t) false)

end Sys2Proof.Machine
end

