-- ==== Sys2Proof/Machine/Dispatch.lean ====
section
/-!
DEFINITION. One arm per constructor of Instr: the effect of an instruction of a swarm context on the context `cx`, of an
anvil slot on the anvil `av`, and of an event of the device on the machine.
-/

namespace Sys2Proof.Machine

/-- What an instruction does. -/
def exec (i : Instr) (s : State) : Host.Outcome State Fault Refusal :=
  match i with
  | .keyLoadDone cxa => Sys2Proof.Machine.execKeyLoadDone cxa s
  | .bridgeReplay bridge o => Sys2Proof.Machine.execBridgeReplay bridge o s
  | .moderationIntervalExpiry q => Sys2Proof.Machine.execModerationIntervalExpiry q s
  | .anvilResultReadable av => Sys2Proof.Machine.execAnvilResultReadable av s
  | .bar0Read off size => Sys2Proof.Machine.execBar0Read off size s
  | .deviceReset => Sys2Proof.Machine.execDeviceReset s
  | .resetRelease => Sys2Proof.Machine.execResetRelease s
  | .bootAuth r => Sys2Proof.Machine.execBootAuth r s
  | .hbmTrainDone fail => Sys2Proof.Machine.execHbmTrainDone fail s
  | .devstatGo => Sys2Proof.Machine.execDevstatGo s
  | .fwcmd val => Sys2Proof.Machine.execFwcmd val s
  | .attcmd val => Sys2Proof.Machine.execAttcmd val s
  | .attestationReportDone => Sys2Proof.Machine.execAttestationReportDone s
  | .registerWrite off size val => Sys2Proof.Machine.execRegisterWrite off size val s
  | .incarnationWrite val => Sys2Proof.Machine.execIncarnationWrite val s
  | .ctxgrpWrite cxa val => Sys2Proof.Machine.execCtxgrpWrite cxa val s
  | .groupTableWrite entry off size val => Sys2Proof.Machine.execGroupTableWrite entry off size val s
  | .qconsWrite q val => Sys2Proof.Machine.execQconsWrite q val s
  | .faultreplyResolved reqid => Sys2Proof.Machine.execFaultreplyResolved reqid s
  | .faultreplyFailed reqid => Sys2Proof.Machine.execFaultreplyFailed reqid s
  | .faultreplyKill reqid => Sys2Proof.Machine.execFaultreplyKill reqid s
  | .tlbinvWrite val => Sys2Proof.Machine.execTlbinvWrite val s
  | .tlbinvDone => Sys2Proof.Machine.execTlbinvDone s
  | .linkctlEnable port => Sys2Proof.Machine.execLinkctlEnable port s
  | .linkctlDisable port => Sys2Proof.Machine.execLinkctlDisable port s
  | .linkctlReset port => Sys2Proof.Machine.execLinkctlReset port s
  | .form slot vid => Sys2Proof.Machine.execForm slot vid s
  | .close slot => Sys2Proof.Machine.execClose slot s
  | .join slot vid => Sys2Proof.Machine.execJoin slot vid s
  | .launchWrite off bytes => Sys2Proof.Machine.execLaunchWrite off bytes s
  | .launchDelivery => Sys2Proof.Machine.execLaunchDelivery s
  | .launchQueueEntry cluster r => Sys2Proof.Machine.execLaunchQueueEntry cluster r s
  | .schedulerStart cluster => Sys2Proof.Machine.execSchedulerStart cluster s
  | .preemptSaveDone cxa => Sys2Proof.Machine.execPreemptSaveDone cxa s
  | .idleNotice group cluster idle => Sys2Proof.Machine.execIdleNotice group cluster idle s
  | .forwardedRecordArrival cluster r => Sys2Proof.Machine.execForwardedRecordArrival cluster r s
  | .returnedRecordArrival r => Sys2Proof.Machine.execReturnedRecordArrival r s
  | .spawnPacketArrival cluster r => Sys2Proof.Machine.execSpawnPacketArrival cluster r s
  | .messageDelivery dest msg held => Sys2Proof.Machine.execMessageDelivery dest msg held s
  | .messageHandlerEntry cxa => Sys2Proof.Machine.execMessageHandlerEntry cxa s
  | .asyncTrap cxa => Sys2Proof.Machine.execAsyncTrap cxa s
  | .driftTick cxa => Sys2Proof.Machine.execDriftTick cxa s
  | .msgmaskOverrun cxa => Sys2Proof.Machine.execMsgmaskOverrun cxa s
  | .deadline cxa => Sys2Proof.Machine.execDeadline cxa s
  | .feTimeout cxa => Sys2Proof.Machine.execFeTimeout cxa s
  | .sendTimeout cxa => Sys2Proof.Machine.execSendTimeout cxa s
  | .deferredSignalTimeout cxa => Sys2Proof.Machine.execDeferredSignalTimeout cxa s
  | .remoteAmoBankTimeout cluster tag => Sys2Proof.Machine.execRemoteAmoBankTimeout cluster tag s
  | .storePerform cxa => Sys2Proof.Machine.execStorePerform cxa s
  | .amoExecute cxa => Sys2Proof.Machine.execAmoExecute cxa s
  | .loadReturn cxa => Sys2Proof.Machine.execLoadReturn cxa s
  | .patrolScrub line => Sys2Proof.Machine.execPatrolScrub line s
  | .hdmRead block off => Sys2Proof.Machine.execHdmRead block off s
  | .hdmWrite block off bytes => Sys2Proof.Machine.execHdmWrite block off bytes s
  | .birsp line => Sys2Proof.Machine.execBirsp line s
  | .biTimeout line => Sys2Proof.Machine.execBiTimeout line s
  | .hostSnoop line inv => Sys2Proof.Machine.execHostSnoop line inv s
  | .atomicopCompletion cxa ok old => Sys2Proof.Machine.execAtomicopCompletion cxa ok old s
  | .windowBoundary die => Sys2Proof.Machine.execWindowBoundary die s
  | .grantEnd h => Sys2Proof.Machine.execGrantEnd h s
  | .boost cluster off => Sys2Proof.Machine.execBoost cluster off s
  | .release cluster off => Sys2Proof.Machine.execRelease cluster off s
  | .clockStepChangeDone cluster => Sys2Proof.Machine.execClockStepChangeDone cluster s
  | .thermalTableRefresh die temps => Sys2Proof.Machine.execThermalTableRefresh die temps s
  | .thermalSlotDisable core temp => Sys2Proof.Machine.execThermalSlotDisable core temp s
  | .thermalSlotEnable core temp => Sys2Proof.Machine.execThermalSlotEnable core temp s
  | .flushMarker origin cls => Sys2Proof.Machine.execFlushMarker origin cls s
  | .imageInstall origin => Sys2Proof.Machine.execImageInstall origin s
  | .rebaseMove => Sys2Proof.Machine.execRebaseMove s
  | .rebaseComplete => Sys2Proof.Machine.execRebaseComplete s
  | .cellDeadlineExpiry cluster index => Sys2Proof.Machine.execCellDeadlineExpiry cluster index s
  | .timerSealPostRetry cluster index => Sys2Proof.Machine.execTimerSealPostRetry cluster index s
  | .sealQueueRoom cxa => Sys2Proof.Machine.execSealQueueRoom cxa s
  | .teCommandStart cluster => Sys2Proof.Machine.execTeCommandStart cluster s
  | .teChunk cluster => Sys2Proof.Machine.execTeChunk cluster s
  | .teCommandComplete cluster cmd => Sys2Proof.Machine.execTeCommandComplete cluster cmd s
  | .anvilStart av => Sys2Proof.Machine.execAnvilStart av s
  | .anvilContextSwitch av => Sys2Proof.Machine.execAnvilContextSwitch av s
  | .vgaComplete av c => Sys2Proof.Machine.execVgaComplete av c s
  | .scanComplete av c => Sys2Proof.Machine.execScanComplete av c s
  | .avloadCopyDone cxa => Sys2Proof.Machine.execAvloadCopyDone cxa s
  | .flitReceive port f => Sys2Proof.Machine.execFlitReceive port f s
  | .replayRequest port seq => Sys2Proof.Machine.execReplayRequest port seq s
  | .laneLockLoss port => Sys2Proof.Machine.execLaneLockLoss port s
  | .trainingComplete port peer => Sys2Proof.Machine.execTrainingComplete port peer s
  | .trainingTimeout port => Sys2Proof.Machine.execTrainingTimeout port s
  | .retrainComplete port => Sys2Proof.Machine.execRetrainComplete port s
  | .linkDeadTimeout port => Sys2Proof.Machine.execLinkDeadTimeout port s
  | .inWrite port p => Sys2Proof.Machine.execInWrite port p s
  | .inCput port p => Sys2Proof.Machine.execInCput port p s
  | .inAmoAdd port p => Sys2Proof.Machine.execInAmoAdd port p s
  | .inAmoSwap port p => Sys2Proof.Machine.execInAmoSwap port p s
  | .inAmoReply port p => Sys2Proof.Machine.execInAmoReply port p s
  | .inAck port p => Sys2Proof.Machine.execInAck port p s
  | .inNack port p => Sys2Proof.Machine.execInNack port p s
  | .inMsg port p => Sys2Proof.Machine.execInMsg port p s
  | .gtcSync stamp roundTrip => Sys2Proof.Machine.execGtcSync stamp roundTrip s
  | .gtcSyncExchange => Sys2Proof.Machine.execGtcSyncExchange s
  | .ceData h d => Sys2Proof.Machine.execCeData h d s
  | .hello h digest => Sys2Proof.Machine.execHello h digest s
  | .formTimeout slot => Sys2Proof.Machine.execFormTimeout slot s
  | .heartbeatTimer => Sys2Proof.Machine.execHeartbeatTimer s
  | .heartbeat h rank gtc => Sys2Proof.Machine.execHeartbeat h rank gtc s
  | .suspicionTimeout slot rank => Sys2Proof.Machine.execSuspicionTimeout slot rank s
  | .suspect h report => Sys2Proof.Machine.execSuspect h report s
  | .suspectTimer slot => Sys2Proof.Machine.execSuspectTimer slot s
  | .propose h round newVid list => Sys2Proof.Machine.execPropose h round newVid list s
  | .ceAck h round inc => Sys2Proof.Machine.execCeAck h round inc s
  | .busy h cand => Sys2Proof.Machine.execBusy h cand s
  | .roundExpiry slot => Sys2Proof.Machine.execRoundExpiry slot s
  | .abandon h => Sys2Proof.Machine.execAbandon h s
  | .boundTimeout slot => Sys2Proof.Machine.execBoundTimeout slot s
  | .commit h newVid members => Sys2Proof.Machine.execCommit h newVid members s
  | .exclude h newVid => Sys2Proof.Machine.execExclude h newVid s
  | .stall h round => Sys2Proof.Machine.execStall h round s
  | .fetch h => Sys2Proof.Machine.execFetch h s
  | .joinReq h joiner inc => Sys2Proof.Machine.execJoinReq h joiner inc s
  | .joinNak h => Sys2Proof.Machine.execJoinNak h s
  | .joinWait h round => Sys2Proof.Machine.execJoinWait h round s
  | .nop => Sys2Proof.Machine.execNop s
  | .halt => Sys2Proof.Machine.execHalt s
  | .br t => Sys2Proof.Machine.execBr t s
  | .brz a t => Sys2Proof.Machine.execBrz a t s
  | .brnz a t => Sys2Proof.Machine.execBrnz a t s
  | .loop l st t e => Sys2Proof.Machine.execLoop l st t e s
  | .lstr l k r str => Sys2Proof.Machine.execLstr l k r str s
  | .lext l a => Sys2Proof.Machine.execLext l a s
  | .lgate l => Sys2Proof.Machine.execLgate l s
  | .waitq d mask => Sys2Proof.Machine.execWaitq d mask s
  | .waittrg t => Sys2Proof.Machine.execWaittrg t s
  | .popq h q f => Sys2Proof.Machine.execPopq h q f s
  | .pushq h q => Sys2Proof.Machine.execPushq h q s
  | .trgset t arm => Sys2Proof.Machine.execTrgset t arm s
  | .anvilAdmit n level => Sys2Proof.Machine.execAnvilAdmit n level s
  | .anvilDone h => Sys2Proof.Machine.execAnvilDone h s
  | .sli d a2 => Sys2Proof.Machine.execSli d a2 s
  | .sadd d a b => Sys2Proof.Machine.execSadd d a b s
  | .ssub d a b => Sys2Proof.Machine.execSsub d a b s
  | .sand d a b => Sys2Proof.Machine.execSand d a b s
  | .sshl d a sh => Sys2Proof.Machine.execSshl d a sh s
  | .fpcr d => Sys2Proof.Machine.execFpcr d s
  | .fpcw a => Sys2Proof.Machine.execFpcw a s
  | .ldt bt n h a4 => Sys2Proof.Machine.execLdt bt n h a4 s
  | .ldth bt n h a4 half => Sys2Proof.Machine.execLdth bt n h a4 half s
  | .ldts bt h a3 => Sys2Proof.Machine.execLdts bt h a3 s
  | .ldw w h a3 => Sys2Proof.Machine.execLdw w h a3 s
  | .mma o => Sys2Proof.Machine.execMma o s
  | .mmah o ha hb => Sys2Proof.Machine.execMmah o ha hb s
  | .vga acc hs ha a4 => Sys2Proof.Machine.execVga acc hs ha a4 s
  | .vgwait => Sys2Proof.Machine.execVgwait s
  | .scan d hs ho => Sys2Proof.Machine.execScan d hs ho s
  | .scanwait => Sys2Proof.Machine.execScanwait s
  | .wadd d a b int => Sys2Proof.Machine.execWadd d a b int s
  | .wsub d a b int => Sys2Proof.Machine.execWsub d a b int s
  | .wmul d a b int => Sys2Proof.Machine.execWmul d a b int s
  | .wfma d a b int => Sys2Proof.Machine.execWfma d a b int s
  | .wmax d a b int => Sys2Proof.Machine.execWmax d a b int s
  | .wmin d a b int => Sys2Proof.Machine.execWmin d a b int s
  | .wcvt d a fmt mode => Sys2Proof.Machine.execWcvt d a fmt mode s
  | .wexp d a => Sys2Proof.Machine.execWexp d a s
  | .wlog d a => Sys2Proof.Machine.execWlog d a s
  | .wrcp d a => Sys2Proof.Machine.execWrcp d a s
  | .wrsq d a => Sys2Proof.Machine.execWrsq d a s
  | .wtanh d a => Sys2Proof.Machine.execWtanh d a s
  | .wsig d a => Sys2Proof.Machine.execWsig d a s
  | .red pl w int lane => Sys2Proof.Machine.execRed pl w int lane s
  | .redmax pl w int lane => Sys2Proof.Machine.execRedmax pl w int lane s
  | .redclr pl ninf => Sys2Proof.Machine.execRedclr pl ninf s
  | .stc acc h a3 fmt tk int => Sys2Proof.Machine.execStc acc h a3 fmt tk int s
  | .stcw w h a3 fmt tk int => Sys2Proof.Machine.execStcw w h a3 fmt tk int s
  | .post h a2 => Sys2Proof.Machine.execPost h a2 s
  | .mov w pl clr => Sys2Proof.Machine.execMov w pl clr s
  | .mova toAcc acc w a4 col => Sys2Proof.Machine.execMova toAcc acc w a4 col s
  | .movs toS a2 h => Sys2Proof.Machine.execMovs toS a2 h s
  | .zacc acc => Sys2Proof.Machine.execZacc acc s
  | .mret => Sys2Proof.Machine.execMret s
  | .tret => Sys2Proof.Machine.execTret s
  | .brk => Sys2Proof.Machine.execBrk s
  | .sret => Sys2Proof.Machine.execSret s
  | .kill a => Sys2Proof.Machine.execKill a s
  | .tlbinv a => Sys2Proof.Machine.execTlbinv a s
  | .grpw a b => Sys2Proof.Machine.execGrpw a b s
  | .keyld a b => Sys2Proof.Machine.execKeyld a b s
  | .trap a1 => Sys2Proof.Machine.execTrap a1 s
  | .svc a1 => Sys2Proof.Machine.execSvc a1 s
  | .gsr d n => Sys2Proof.Machine.execGsr d n s
  | .ssr a n => Sys2Proof.Machine.execSsr a n s
  | .add d a b w => Sys2Proof.Machine.execAdd d a b w s
  | .sub d a b w => Sys2Proof.Machine.execSub d a b w s
  | .and d a b w => Sys2Proof.Machine.execAnd d a b w s
  | .or d a b w => Sys2Proof.Machine.execOr d a b w s
  | .xor d a b w => Sys2Proof.Machine.execXor d a b w s
  | .sll d a b w => Sys2Proof.Machine.execSll d a b w s
  | .srl d a b w => Sys2Proof.Machine.execSrl d a b w s
  | .sra d a b w => Sys2Proof.Machine.execSra d a b w s
  | .ror d a b w => Sys2Proof.Machine.execRor d a b w s
  | .slt d a b w => Sys2Proof.Machine.execSlt d a b w s
  | .sltu d a b w => Sys2Proof.Machine.execSltu d a b w s
  | .min d a b w => Sys2Proof.Machine.execMin d a b w s
  | .max d a b w => Sys2Proof.Machine.execMax d a b w s
  | .minu d a b w => Sys2Proof.Machine.execMinu d a b w s
  | .maxu d a b w => Sys2Proof.Machine.execMaxu d a b w s
  | .selnz d a b => Sys2Proof.Machine.execSelnz d a b s
  | .mul d a b w => Sys2Proof.Machine.execMul d a b w s
  | .mulh d a b w => Sys2Proof.Machine.execMulh d a b w s
  | .mulhu d a b w => Sys2Proof.Machine.execMulhu d a b w s
  | .div d a b w => Sys2Proof.Machine.execDiv d a b w s
  | .divu d a b w => Sys2Proof.Machine.execDivu d a b w s
  | .rem d a b w => Sys2Proof.Machine.execRem d a b w s
  | .remu d a b w => Sys2Proof.Machine.execRemu d a b w s
  | .clz d a w => Sys2Proof.Machine.execClz d a w s
  | .ctz d a w => Sys2Proof.Machine.execCtz d a w s
  | .popc d a w => Sys2Proof.Machine.execPopc d a w s
  | .bswap d a w => Sys2Proof.Machine.execBswap d a w s
  | .fadd f d a b => Sys2Proof.Machine.execFadd f d a b s
  | .fsub f d a b => Sys2Proof.Machine.execFsub f d a b s
  | .fmul f d a b => Sys2Proof.Machine.execFmul f d a b s
  | .fdiv f d a b => Sys2Proof.Machine.execFdiv f d a b s
  | .fsqrt f d a => Sys2Proof.Machine.execFsqrt f d a s
  | .fma f d a b => Sys2Proof.Machine.execFma f d a b s
  | .fmin f d a b => Sys2Proof.Machine.execFmin f d a b s
  | .fmax f d a b => Sys2Proof.Machine.execFmax f d a b s
  | .feq f d a b => Sys2Proof.Machine.execFeq f d a b s
  | .flt f d a b => Sys2Proof.Machine.execFlt f d a b s
  | .fle f d a b => Sys2Proof.Machine.execFle f d a b s
  | .fclass f d a => Sys2Proof.Machine.execFclass f d a s
  | .fsgnj f d a b => Sys2Proof.Machine.execFsgnj f d a b s
  | .fsgnjn f d a b => Sys2Proof.Machine.execFsgnjn f d a b s
  | .ftoi f d a => Sys2Proof.Machine.execFtoi f d a s
  | .ftou f d a => Sys2Proof.Machine.execFtou f d a s
  | .itof f d a => Sys2Proof.Machine.execItof f d a s
  | .utof f d a => Sys2Proof.Machine.execUtof f d a s
  | .fcvt dst src d a => Sys2Proof.Machine.execFcvt dst src d a s
  | .extu d a w o => Sys2Proof.Machine.execExtu d a w o s
  | .exts d a w o => Sys2Proof.Machine.execExts d a w o s
  | .ins d a w o => Sys2Proof.Machine.execIns d a w o s
  | .addi d a a3 => Sys2Proof.Machine.execAddi d a a3 s
  | .andi d a a3 => Sys2Proof.Machine.execAndi d a a3 s
  | .ori d a a3 => Sys2Proof.Machine.execOri d a a3 s
  | .xori d a a3 => Sys2Proof.Machine.execXori d a a3 s
  | .slti d a a3 => Sys2Proof.Machine.execSlti d a a3 s
  | .sltiu d a a3 => Sys2Proof.Machine.execSltiu d a a3 s
  | .lui d a2 => Sys2Proof.Machine.execLui d a2 s
  | .slli d a w n => Sys2Proof.Machine.execSlli d a w n s
  | .srli d a w n => Sys2Proof.Machine.execSrli d a w n s
  | .srai d a w n => Sys2Proof.Machine.execSrai d a w n s
  | .rori d a w n => Sys2Proof.Machine.execRori d a w n s
  | .shori d a a3 => Sys2Proof.Machine.execShori d a a3 s
  | .auipc d a2 => Sys2Proof.Machine.execAuipc d a2 s
  | .lb d a a3 => Sys2Proof.Machine.execLb d a a3 s
  | .lbu d a a3 => Sys2Proof.Machine.execLbu d a a3 s
  | .lh d a a3 => Sys2Proof.Machine.execLh d a a3 s
  | .lhu d a a3 => Sys2Proof.Machine.execLhu d a a3 s
  | .lw d a a3 => Sys2Proof.Machine.execLw d a a3 s
  | .lwu d a a3 => Sys2Proof.Machine.execLwu d a a3 s
  | .ld d a a3 => Sys2Proof.Machine.execLd d a a3 s
  | .vld d a a3 => Sys2Proof.Machine.execVld d a a3 s
  | .sb b a a3 => Sys2Proof.Machine.execSb b a a3 s
  | .sh b a a3 => Sys2Proof.Machine.execSh b a a3 s
  | .sw b a a3 => Sys2Proof.Machine.execSw b a a3 s
  | .sd b a a3 => Sys2Proof.Machine.execSd b a a3 s
  | .vst b a a3 => Sys2Proof.Machine.execVst b a a3 s
  | .lda d a a3 w => Sys2Proof.Machine.execLda d a a3 w s
  | .ldaF d a a3 w => Sys2Proof.Machine.execLdaF d a a3 w s
  | .stl a b a3 w => Sys2Proof.Machine.execStl a b a3 w s
  | .fence a1 => Sys2Proof.Machine.execFence a1 s
  | .fenceRel a1 => Sys2Proof.Machine.execFenceRel a1 s
  | .fenceAcq a1 => Sys2Proof.Machine.execFenceAcq a1 s
  | .amoadd d a b w => Sys2Proof.Machine.execAmoadd d a b w s
  | .amoand d a b w => Sys2Proof.Machine.execAmoand d a b w s
  | .amoor d a b w => Sys2Proof.Machine.execAmoor d a b w s
  | .amoxor d a b w => Sys2Proof.Machine.execAmoxor d a b w s
  | .amoswap d a b w => Sys2Proof.Machine.execAmoswap d a b w s
  | .amomin d a b w => Sys2Proof.Machine.execAmomin d a b w s
  | .amomax d a b w => Sys2Proof.Machine.execAmomax d a b w s
  | .amominu d a b w => Sys2Proof.Machine.execAmominu d a b w s
  | .amomaxu d a b w => Sys2Proof.Machine.execAmomaxu d a b w s
  | .amocas d a b w => Sys2Proof.Machine.execAmocas d a b w s
  | .ramoadd d a b w => Sys2Proof.Machine.execRamoadd d a b w s
  | .ramoswap d a b w => Sys2Proof.Machine.execRamoswap d a b w s
  | .rsd a b => Sys2Proof.Machine.execRsd a b s
  | .rsq a b => Sys2Proof.Machine.execRsq a b s
  | .ldfe d a => Sys2Proof.Machine.execLdfe d a s
  | .ldff d a => Sys2Proof.Machine.execLdff d a s
  | .stef a b => Sys2Proof.Machine.execStef a b s
  | .stff a b => Sys2Proof.Machine.execStff a b s
  | .beq a b a3 => Sys2Proof.Machine.execBeq a b a3 s
  | .bne a b a3 => Sys2Proof.Machine.execBne a b a3 s
  | .blt a b a3 => Sys2Proof.Machine.execBlt a b a3 s
  | .bge a b a3 => Sys2Proof.Machine.execBge a b a3 s
  | .bltu a b a3 => Sys2Proof.Machine.execBltu a b a3 s
  | .bgeu a b a3 => Sys2Proof.Machine.execBgeu a b a3 s
  | .bmany m a2 => Sys2Proof.Machine.execBmany m a2 s
  | .bmnone m a2 => Sys2Proof.Machine.execBmnone m a2 s
  | .bmall m a2 => Sys2Proof.Machine.execBmall m a2 s
  | .jal d a2 => Sys2Proof.Machine.execJal d a2 s
  | .jalr d a a3 => Sys2Proof.Machine.execJalr d a a3 s
  | .vadd t d a b p => Sys2Proof.Machine.execVadd t d a b p s
  | .vsub t d a b p => Sys2Proof.Machine.execVsub t d a b p s
  | .vmul t d a b p => Sys2Proof.Machine.execVmul t d a b p s
  | .vfma t d a b p => Sys2Proof.Machine.execVfma t d a b p s
  | .vmin t d a b p => Sys2Proof.Machine.execVmin t d a b p s
  | .vmax t d a b p => Sys2Proof.Machine.execVmax t d a b p s
  | .vadds t d a b p => Sys2Proof.Machine.execVadds t d a b p s
  | .vsubs t d a b p => Sys2Proof.Machine.execVsubs t d a b p s
  | .vand t d a b p => Sys2Proof.Machine.execVand t d a b p s
  | .vor t d a b p => Sys2Proof.Machine.execVor t d a b p s
  | .vxor t d a b p => Sys2Proof.Machine.execVxor t d a b p s
  | .vsll t d a b p => Sys2Proof.Machine.execVsll t d a b p s
  | .vsrl t d a b p => Sys2Proof.Machine.execVsrl t d a b p s
  | .vsra t d a b p => Sys2Proof.Machine.execVsra t d a b p s
  | .vdiv t d a b p => Sys2Proof.Machine.execVdiv t d a b p s
  | .vsqrt t d a p => Sys2Proof.Machine.execVsqrt t d a p s
  | .vcmpeq t d a b p => Sys2Proof.Machine.execVcmpeq t d a b p s
  | .vcmpne t d a b p => Sys2Proof.Machine.execVcmpne t d a b p s
  | .vcmplt t d a b p => Sys2Proof.Machine.execVcmplt t d a b p s
  | .vcmple t d a b p => Sys2Proof.Machine.execVcmple t d a b p s
  | .vsel t d a b m => Sys2Proof.Machine.execVsel t d a b m s
  | .mand d a b => Sys2Proof.Machine.execMand d a b s
  | .mor d a b => Sys2Proof.Machine.execMor d a b s
  | .mxor d a b => Sys2Proof.Machine.execMxor d a b s
  | .mnot d a => Sys2Proof.Machine.execMnot d a s
  | .mfromx d a => Sys2Proof.Machine.execMfromx d a s
  | .mtox d a => Sys2Proof.Machine.execMtox d a s
  | .mpopc d a => Sys2Proof.Machine.execMpopc d a s
  | .vcvt t a2 d a p => Sys2Proof.Machine.execVcvt t a2 d a p s
  | .vdot t a2 d a p => Sys2Proof.Machine.execVdot t a2 d a p s
  | .vperm t d a b p => Sys2Proof.Machine.execVperm t d a b p s
  | .vhash t d a b p => Sys2Proof.Machine.execVhash t d a b p s
  | .vnzc t d a m => Sys2Proof.Machine.execVnzc t d a m s
  | .vsplat t d a p => Sys2Proof.Machine.execVsplat t d a p s
  | .vext t d a b => Sys2Proof.Machine.execVext t d a b s
  | .vins t d a b => Sys2Proof.Machine.execVins t d a b s
  | .vredsum t d a p => Sys2Proof.Machine.execVredsum t d a p s
  | .vredmax t d a p => Sys2Proof.Machine.execVredmax t d a p s
  | .vredmin t d a p => Sys2Proof.Machine.execVredmin t d a p s
  | .vmov d a p => Sys2Proof.Machine.execVmov d a p s
  | .copen d a b => Sys2Proof.Machine.execCopen d a b s
  | .cputD a b => Sys2Proof.Machine.execCputD a b s
  | .cputQ a b => Sys2Proof.Machine.execCputQ a b s
  | .cputR a b => Sys2Proof.Machine.execCputR a b s
  | .seal a b a3 => Sys2Proof.Machine.execSeal a b a3 s
  | .sealm a b a3 => Sys2Proof.Machine.execSealm a b a3 s
  | .csett a b => Sys2Proof.Machine.execCsett a b s
  | .cld d a => Sys2Proof.Machine.execCld d a s
  | .cldAcq d a => Sys2Proof.Machine.execCldAcq d a s
  | .cretire a => Sys2Proof.Machine.execCretire a s
  | .done a => Sys2Proof.Machine.execDone a s
  | .cstat d a b => Sys2Proof.Machine.execCstat d a b s
  | .cbinit a b => Sys2Proof.Machine.execCbinit a b s
  | .cbpop d a => Sys2Proof.Machine.execCbpop d a s
  | .cbfree a b => Sys2Proof.Machine.execCbfree a b s
  | .binit a b => Sys2Proof.Machine.execBinit a b s
  | .barrv d a b => Sys2Proof.Machine.execBarrv d a b s
  | .bwait a b => Sys2Proof.Machine.execBwait a b s
  | .bretire a => Sys2Proof.Machine.execBretire a s
  | .xfer a => Sys2Proof.Machine.execXfer a s
  | .xgather a => Sys2Proof.Machine.execXgather a s
  | .xscatter a => Sys2Proof.Machine.execXscatter a s
  | .xrestart a => Sys2Proof.Machine.execXrestart a s
  | .xdiscard a => Sys2Proof.Machine.execXdiscard a s
  | .send d a b c => Sys2Proof.Machine.execSend d a b c s
  | .sendRel d a b c a5 => Sys2Proof.Machine.execSendRel d a b c a5 s
  | .activate d a b c => Sys2Proof.Machine.execActivate d a b c s
  | .activateRel d a b c a5 => Sys2Proof.Machine.execActivateRel d a b c a5 s
  | .spawn d a b c => Sys2Proof.Machine.execSpawn d a b c s
  | .spawnRel d a b c a5 => Sys2Proof.Machine.execSpawnRel d a b c a5 s
  | .recv d => Sys2Proof.Machine.execRecv d s
  | .recvAcq d => Sys2Proof.Machine.execRecvAcq d s
  | .tryrecv d => Sys2Proof.Machine.execTryrecv d s
  | .tryrecvAcq d => Sys2Proof.Machine.execTryrecvAcq d s
  | .waitmsg => Sys2Proof.Machine.execWaitmsg s
  | .msgmaskSet => Sys2Proof.Machine.execMsgmaskSet s
  | .msgmaskClr => Sys2Proof.Machine.execMsgmaskClr s
  | .exit => Sys2Proof.Machine.execExit s
  | .faultwait d a b => Sys2Proof.Machine.execFaultwait d a b s
  | .avload a b => Sys2Proof.Machine.execAvload a b s
  | .avstart a b => Sys2Proof.Machine.execAvstart a b s
  | .avstop a => Sys2Proof.Machine.execAvstop a s
  | .avpost a b => Sys2Proof.Machine.execAvpost a b s
  | .avstat d a => Sys2Proof.Machine.execAvstat d a s
  | .coll a => Sys2Proof.Machine.execColl a s
  | .viewget d a => Sys2Proof.Machine.execViewget d a s
  | .mtrap a => Sys2Proof.Machine.execMtrap a s
  | .admitS a b => Sys2Proof.Machine.execAdmitS a b s

end Sys2Proof.Machine
end

