-- ==== Sys2Proof/Machine/Hazard.lean ====
section
/-!
DEFINITION. What an instruction of a swarm context reads and writes, how long a divide holds its core's divider, and which
instructions issue while loads are outstanding (R142, R310, R343). Registers go by one number: x 0 to 31, v from 32, m from
48, the shadow bank of x24 to x31 from 64.
-/

namespace Sys2Proof.Machine

def xr (r : XReg) : Nat := r.val
def vr (r : VReg) : Nat := 32 + r.val
def mr (r : MReg) : Nat := 48 + r.val

/-- A predicated form reads its mask, and its destination, whose inactive elements it keeps. -/
def pr (p : Pred) (d : Nat) : List Nat := match p with | some m => [mr m, d] | none => []

/-- The registers an instruction reads. -/
def reads : Instr → List Nat
  | .kill a | .tlbinv a | .ssr a _ | .cretire a | .done a | .bretire a | .xfer a | .xgather a | .xscatter a
  | .xrestart a | .xdiscard a | .avstop a | .coll a | .mtrap a | .clz _ a _ | .ctz _ a _ | .popc _ a _ | .bswap _ a _
  | .fsqrt _ _ a | .fclass _ _ a | .ftoi _ _ a | .ftou _ _ a | .itof _ _ a | .utof _ _ a | .fcvt _ _ _ a
  | .extu _ a _ _ | .exts _ a _ _ | .addi _ a _ | .andi _ a _ | .ori _ a _ | .xori _ a _ | .slti _ a _ | .sltiu _ a _
  | .slli _ a _ _ | .srli _ a _ _ | .srai _ a _ _ | .rori _ a _ _ | .shori _ a _ | .lb _ a _ | .lbu _ a _ | .lh _ a _
  | .lhu _ a _ | .lw _ a _ | .lwu _ a _ | .ld _ a _ | .lda _ a _ _ | .ldaF _ a _ _ | .ldfe _ a | .ldff _ a
  | .jalr _ a _ | .cld _ a | .cldAcq _ a | .cbpop _ a | .avstat _ a | .viewget _ a | .vld _ a _ | .mfromx _ a => [xr a]
  | .grpw a b | .keyld a b | .stl a b _ _ | .rsd a b | .stef a b | .stff a b | .beq a b _ | .bne a b _ | .blt a b _
  | .bge a b _ | .bltu a b _ | .bgeu a b _ | .cputD a b | .seal a b _ | .sealm a b _ | .csett a b | .cbinit a b
  | .cbfree a b | .binit a b | .bwait a b | .avload a b | .avstart a b | .avpost a b | .admitS a b | .add _ a b _
  | .sub _ a b _ | .and _ a b _ | .or _ a b _ | .xor _ a b _ | .sll _ a b _ | .srl _ a b _ | .sra _ a b _
  | .ror _ a b _ | .slt _ a b _ | .sltu _ a b _ | .min _ a b _ | .max _ a b _ | .minu _ a b _ | .maxu _ a b _
  | .mul _ a b _ | .mulh _ a b _ | .mulhu _ a b _ | .div _ a b _ | .divu _ a b _ | .rem _ a b _ | .remu _ a b _
  | .fadd _ _ a b | .fsub _ _ a b | .fmul _ _ a b | .fdiv _ _ a b | .fmin _ _ a b | .fmax _ _ a b | .feq _ _ a b
  | .flt _ _ a b | .fle _ _ a b | .fsgnj _ _ a b | .fsgnjn _ _ a b | .amoadd _ a b _ | .amoand _ a b _
  | .amoor _ a b _ | .amoxor _ a b _ | .amoswap _ a b _ | .amomin _ a b _ | .amomax _ a b _ | .amominu _ a b _
  | .amomaxu _ a b _ | .ramoadd _ a b _ | .ramoswap _ a b _ | .copen _ a b | .cstat _ a b | .barrv _ a b
  | .faultwait _ a b => [xr a, xr b]
  | .selnz d a b | .fma _ d a b | .amocas d a b _ => [xr d, xr a, xr b]
  | .ins d a _ _ => [xr d, xr a]
  | .sb b a _ | .sh b a _ | .sw b a _ | .sd b a _ => [xr b, xr a]
  | .vst b a _ => [vr b, xr a]
  | .rsq a b | .cputQ a b | .cputR a b => [xr a, vr b]
  | .bmany m _ | .bmnone m _ | .bmall m _ => [mr m]
  | .vadd _ d a b p | .vsub _ d a b p | .vmul _ d a b p | .vmin _ d a b p | .vmax _ d a b p | .vadds _ d a b p
  | .vsubs _ d a b p | .vand _ d a b p | .vor _ d a b p | .vxor _ d a b p | .vsll _ d a b p | .vsrl _ d a b p
  | .vsra _ d a b p | .vdiv _ d a b p | .vperm _ d a b p | .vhash _ d a b p => [vr a, vr b] ++ pr p (vr d)
  | .vfma _ d a b p => [vr d, vr a, vr b] ++ pr p (vr d)
  | .vsqrt _ d a p | .vcvt _ _ d a p | .vmov d a p => [vr a] ++ pr p (vr d)
  | .vcmpeq _ d a b p | .vcmpne _ d a b p | .vcmplt _ d a b p | .vcmple _ d a b p => [vr a, vr b] ++ pr p (mr d)
  | .vsel _ _ a b m => [vr a, vr b, mr m]
  | .mand _ a b | .mor _ a b | .mxor _ a b => [mr a, mr b]
  | .mnot _ a | .mtox _ a | .mpopc _ a => [mr a]
  | .vdot _ _ d a p => [vr a, vr (a + 1)] ++ pr p (vr d)
  | .vnzc _ _ a _ => [vr a]
  | .vsplat _ d a p => [xr a] ++ pr p (vr d)
  | .vext _ _ a b => [vr a, xr b]
  | .vins _ d a b | .send d a b _ | .sendRel d a b _ _ | .activate d a b _ | .activateRel d a b _ _ | .spawn d a b _
  | .spawnRel d a b _ _ => [vr d, xr a, xr b]
  | .vredsum _ _ a p | .vredmax _ _ a p | .vredmin _ _ a p => [vr a] ++ pr p 0
  | _ => []

/-- The registers an instruction writes. -/
def writes : Instr → List Nat
  | .gsr d _ | .lui d _ | .auipc d _ | .jal d _ | .add d _ _ _ | .sub d _ _ _ | .and d _ _ _ | .or d _ _ _
  | .xor d _ _ _ | .sll d _ _ _ | .srl d _ _ _ | .sra d _ _ _ | .ror d _ _ _ | .slt d _ _ _ | .sltu d _ _ _
  | .min d _ _ _ | .max d _ _ _ | .minu d _ _ _ | .maxu d _ _ _ | .mul d _ _ _ | .mulh d _ _ _ | .mulhu d _ _ _
  | .div d _ _ _ | .divu d _ _ _ | .rem d _ _ _ | .remu d _ _ _ | .fadd _ d _ _ | .fsub _ d _ _ | .fmul _ d _ _
  | .fdiv _ d _ _ | .fmin _ d _ _ | .fmax _ d _ _ | .feq _ d _ _ | .flt _ d _ _ | .fle _ d _ _ | .fsgnj _ d _ _
  | .fsgnjn _ d _ _ | .amoadd d _ _ _ | .amoand d _ _ _ | .amoor d _ _ _ | .amoxor d _ _ _ | .amoswap d _ _ _
  | .amomin d _ _ _ | .amomax d _ _ _ | .amominu d _ _ _ | .amomaxu d _ _ _ | .ramoadd d _ _ _ | .ramoswap d _ _ _
  | .copen d _ _ | .cstat d _ _ | .barrv d _ _ | .faultwait d _ _ | .selnz d _ _ | .fma _ d _ _ | .amocas d _ _ _
  | .clz d _ _ | .ctz d _ _ | .popc d _ _ | .bswap d _ _ | .fsqrt _ d _ | .fclass _ d _ | .ftoi _ d _ | .ftou _ d _
  | .itof _ d _ | .utof _ d _ | .fcvt _ _ d _ | .extu d _ _ _ | .exts d _ _ _ | .addi d _ _ | .andi d _ _
  | .ori d _ _ | .xori d _ _ | .slti d _ _ | .sltiu d _ _ | .slli d _ _ _ | .srli d _ _ _ | .srai d _ _ _
  | .rori d _ _ _ | .shori d _ _ | .lb d _ _ | .lbu d _ _ | .lh d _ _ | .lhu d _ _ | .lw d _ _ | .lwu d _ _
  | .ld d _ _ | .lda d _ _ _ | .ldaF d _ _ _ | .ldfe d _ | .ldff d _ | .jalr d _ _ | .cld d _ | .cldAcq d _
  | .cbpop d _ | .avstat d _ | .viewget d _ | .ins d _ _ _ | .mtox d _ | .mpopc d _ | .vext _ d _ _
  | .vredsum _ d _ _ | .vredmax _ d _ _ | .vredmin _ d _ _ => [xr d]
  | .vld d _ _ | .vadd _ d _ _ _ | .vsub _ d _ _ _ | .vmul _ d _ _ _ | .vmin _ d _ _ _ | .vmax _ d _ _ _
  | .vadds _ d _ _ _ | .vsubs _ d _ _ _ | .vand _ d _ _ _ | .vor _ d _ _ _ | .vxor _ d _ _ _ | .vsll _ d _ _ _
  | .vsrl _ d _ _ _ | .vsra _ d _ _ _ | .vdiv _ d _ _ _ | .vperm _ d _ _ _ | .vhash _ d _ _ _ | .vfma _ d _ _ _
  | .vsqrt _ d _ _ | .vcvt _ _ d _ _ | .vmov d _ _ | .vsel _ d _ _ _ | .vdot _ _ d _ _ | .vsplat _ d _ _
  | .vins _ d _ _ => [vr d]
  | .vcmpeq _ d _ _ _ | .vcmpne _ d _ _ _ | .vcmplt _ d _ _ _ | .vcmple _ d _ _ _ | .mand d _ _ | .mor d _ _
  | .mxor d _ _ | .mnot d _ | .mfromx d _ => [mr d]
  | .vnzc _ d _ m => [vr d, mr m]
  | _ => []

/-- The instructions that issue while loads are outstanding: what they change is registers of the context, the pc and the
youngest end of its store buffer, which a load that ends in POISON can undo (R182). Every other instruction waits for the
loads (log 64), and so does one that reads or raises the clocks that they move. -/
def runsAhead : Instr → Bool
  | .gsr _ n => n != 0x00A
  | .ssr _ n => !(decide (8 ≤ n.toNat) && decide (n.toNat ≤ 10))
  | .msgmaskSet | .msgmaskClr | .mret | .tret | .svc _ | .sret | .cstat _ _ _ | .cld _ _ | .viewget _ _ | .avstat _ _
  | .lda _ _ _ _ | .ldaF _ _ _ _ => true
  | .add _ _ _ _ | .sub _ _ _ _ | .and _ _ _ _ | .or _ _ _ _ | .xor _ _ _ _ | .sll _ _ _ _ | .srl _ _ _ _
  | .sra _ _ _ _ | .ror _ _ _ _ | .slt _ _ _ _ | .sltu _ _ _ _ | .min _ _ _ _ | .max _ _ _ _ | .minu _ _ _ _
  | .maxu _ _ _ _ | .selnz _ _ _ | .mul _ _ _ _ | .mulh _ _ _ _ | .mulhu _ _ _ _ | .div _ _ _ _ | .divu _ _ _ _
  | .rem _ _ _ _ | .remu _ _ _ _ | .clz _ _ _ | .ctz _ _ _ | .popc _ _ _ | .bswap _ _ _ | .fadd _ _ _ _
  | .fsub _ _ _ _ | .fmul _ _ _ _ | .fdiv _ _ _ _ | .fsqrt _ _ _ | .fma _ _ _ _ | .fmin _ _ _ _ | .fmax _ _ _ _
  | .feq _ _ _ _ | .flt _ _ _ _ | .fle _ _ _ _ | .fclass _ _ _ | .fsgnj _ _ _ _ | .fsgnjn _ _ _ _ | .ftoi _ _ _
  | .ftou _ _ _ | .itof _ _ _ | .utof _ _ _ | .fcvt _ _ _ _ | .extu _ _ _ _ | .exts _ _ _ _ | .ins _ _ _ _
  | .addi _ _ _ | .andi _ _ _ | .ori _ _ _ | .xori _ _ _ | .slti _ _ _ | .sltiu _ _ _ | .lui _ _ | .slli _ _ _ _
  | .srli _ _ _ _ | .srai _ _ _ _ | .rori _ _ _ _ | .shori _ _ _ | .auipc _ _ | .lb _ _ _ | .lbu _ _ _ | .lh _ _ _
  | .lhu _ _ _ | .lw _ _ _ | .lwu _ _ _ | .ld _ _ _ | .vld _ _ _ | .sb _ _ _ | .sh _ _ _ | .sw _ _ _ | .sd _ _ _
  | .vst _ _ _ | .beq _ _ _ | .bne _ _ _ | .blt _ _ _ | .bge _ _ _ | .bltu _ _ _ | .bgeu _ _ _ | .bmany _ _
  | .bmnone _ _ | .bmall _ _ | .jal _ _ | .jalr _ _ _ | .vadd _ _ _ _ _ | .vsub _ _ _ _ _ | .vmul _ _ _ _ _
  | .vfma _ _ _ _ _ | .vmin _ _ _ _ _ | .vmax _ _ _ _ _ | .vadds _ _ _ _ _ | .vsubs _ _ _ _ _ | .vand _ _ _ _ _
  | .vor _ _ _ _ _ | .vxor _ _ _ _ _ | .vsll _ _ _ _ _ | .vsrl _ _ _ _ _ | .vsra _ _ _ _ _ | .vdiv _ _ _ _ _
  | .vsqrt _ _ _ _ | .vcmpeq _ _ _ _ _ | .vcmpne _ _ _ _ _ | .vcmplt _ _ _ _ _ | .vcmple _ _ _ _ _ | .vsel _ _ _ _ _
  | .mand _ _ _ | .mor _ _ _ | .mxor _ _ _ | .mnot _ _ | .mfromx _ _ | .mtox _ _ | .mpopc _ _ | .vcvt _ _ _ _ _
  | .vdot _ _ _ _ _ | .vperm _ _ _ _ _ | .vhash _ _ _ _ _ | .vnzc _ _ _ _ | .vsplat _ _ _ _ | .vext _ _ _ _
  | .vins _ _ _ _ | .vredsum _ _ _ _ | .vredmax _ _ _ _ | .vredmin _ _ _ _ | .vmov _ _ _ => true
  | _ => false

/-- Cycles for which a floating-point divide or square root holds the divider, by element type (R310). -/
def fdivCycles : FFmt → Nat
  | .f64 => 30 | .f32 => 16 | _ => 10

/-- The same of a vector form (R343). -/
def vdivCycles (c : Ctx) (t : ETy) (p : Pred) : Nat :=
  let (n, k) := match t with | .f64 => (8, 30) | .f32 => (4, 16) | _ => (2, 10)
  let act := ((List.range (16 / n)).filter fun e => match p with
    | some m => (c.getM m).getLsbD (e * n)
    | none => true).length
  k + 2 * (act - 1)

/-- How long an instruction holds the divider, if it is a divide or square root (R310, R343). A divide by zero traps and
needs no divider (R313). -/
def divCycles (c : Ctx) : Instr → Option Nat
  | .div _ _ b w | .divu _ _ b w | .rem _ _ b w | .remu _ _ b w =>
    if (c.getX b).toNat % (if w then 2 ^ 32 else 2 ^ 64) = 0 then none else some (if w then 20 else 36)
  | .fdiv f .. | .fsqrt f .. => some (fdivCycles f)
  | .vdiv t _ _ _ p | .vsqrt t _ _ p => some (vdivCycles c t p)
  | _ => none

/-- A register's number as the context has it: the handler's x24 to x31 are the shadow bank (R168). -/
def Ctx.reg (c : Ctx) (r : Nat) : Nat := if c.mhInh && decide (24 ≤ r) && decide (r < 32) then 40 + r else r

/-- The register a load writes, in the bank that was in place when it issued. x0 holds nothing. -/
def LoadReq.reg (r : LoadReq) : Nat :=
  match r.dst with
  | .x rd .. => if r.snap.mhInh && decide (24 ≤ rd) && decide (rd < 32) then 40 + rd else rd
  | .v rd => 32 + rd

/-- A register waits for its value: of an earlier load, or of the divider at a core cycle (R310). -/
def Ctx.awaits (c : Ctx) (cyc r : Nat) : Bool :=
  r != 0 && (c.loads.any (fun l => l.reg == c.reg r) || (match fget c.busy (c.reg r) with
    | some t => decide (cyc < t)
    | none => false))

/-- A register is written by an instruction younger than the outstanding loads below a number: their values no longer reach
it, but reach what a load in between would leave. -/
def Ctx.overwritten (c : Ctx) (below : Nat) (regs : List Nat) : Ctx :=
  { c with loads := c.loads.map fun l =>
      if l.dead.isNone && l.reg != 0 && decide (l.num < below) && regs.contains l.reg then { l with dead := some c.nextNum } else l }

/-- What holds an instruction besides the divider (R310): a source that is not there, or loads that it does not run ahead
of. -/
def sourceHeld (s : State) (n : Nat) (i : Instr) : Bool :=
  let c := ctxOf s n
  (reads i).any (c.awaits (coreOf s (slotCore n)).cyc) || (!runsAhead i && !c.loads.isEmpty)

/-- The divider is busy, or serves older divides (R310). -/
def dividerHeld (s : State) (n : Nat) (i : Instr) : Bool :=
  let k := coreOf s (slotCore n)
  (divCycles (ctxOf s n) i).isSome && (decide (k.cyc < k.divFree) || (k.divWait.head?.any (· != n)))

/-- An interlock holds an instruction of a context (R310). -/
def interlocked (s : State) (n : Nat) (i : Instr) : Bool := sourceHeld s n i || dividerHeld s n i

end Sys2Proof.Machine
end

