-- ==== Sys2Proof/Machine/Cycle.lean ====
section
/-!
DEFINITION. One cycle of a swarm core: the barrel's choice (R142, R143), the instruction boundary (R168, R188, R327), the
fetch through the L1 instruction copies (R202, R215, R233, R328), and the issue of the decoded instruction (R283).
-/

namespace Sys2Proof.Machine

/-! ## The choice of a context (R142, R143) -/

/-- A context is ready but for an interlock, which shows when its instruction is tried (R142, R310). -/
def ready (s : State) (n : Nat) : Bool :=
  let c := ctxOf s n
  c.active && !c.dying && c.wait == .none && c.preempt.isNone && c.moving.isNone && slotOn s n &&
    (match c.lastIssue with | none => true | some t => decide (t + 4 ≤ (coreOf s (slotCore n)).cyc))

/-- The slots of a core in rotation order after a pointer. -/
def rotation (p : Nat) : List Nat := (List.range 16).map fun j => (p + 1 + j) % 16

/-- Which rule of R143 a context issues by. -/
inductive IssueBy where
  | ageing | classZero | other
  deriving DecidableEq, Repr, Inhabited

/-- The barrel slot that issues in this cycle, of those not tried yet (R143). -/
def barrelPick (s : State) (k : Nat) (tried : List Nat) : Option (Nat × IssueBy) :=
  let core := coreOf s k
  let ok (i : Nat) : Bool := !tried.contains i && ready s (16 * k + i)
  let zero (i : Nat) : Bool := (ctxOf s (16 * k + i)).cls == 0
  let old (i : Nat) : Bool := match (ctxOf s (16 * k + i)).readySince with
    | some t => decide (t + 128 ≤ core.cyc)
    | none => false
  let may := match core.aged with | none => true | some t => decide (t + 8 ≤ core.cyc)
  let pick (p : Nat) (f : Nat → Bool) (b : IssueBy) : Option (Nat × IssueBy) :=
    ((rotation p).find? fun i => ok i && f i).map fun i => (i, b)
  (if may then pick core.p1 (fun i => !zero i && old i) .ageing else none).orElse fun _ =>
    (pick core.p0 zero .classZero).orElse fun _ => pick core.p1 (fun _ => true) .other

/-- The rotation pointers and the context's own counters after an issue (R142, R143). -/
def issued (s : State) (k i : Nat) (b : IssueBy) : State :=
  let t := modCore s k fun c => match b with
    | .ageing => { c with p1 := i, aged := some c.cyc }
    | .classZero => { c with p0 := i }
    | .other => { c with p1 := i }
  let t := modCtx t (16 * k + i) fun c => { c with lastIssue := some (coreOf t k).cyc, readySince := none }
  { t with cx := 16 * k + i }

/-- The core tries another context in the same cycle. -/
def again (s : State) (k i : Nat) (tried : List Nat) : State := { s with turns := .core k (i :: tried) :: s.turns }

/-- An interlock holds the context's instruction (R310). -/
def heldUp (s : State) (n : Nat) : Bool :=
  let c := ctxOf s n
  c.active && c.wait == .none && c.waitSince.isSome

/-- An instruction that an interlock holds has not issued: pointers and counters are as before, and another context may
issue in the cycle (R142, R310). The first issue after a resume or a move ends the pause of seal deadlines (R200, R201). -/
def settle (before : State) (k i : Nat) (tried : List Nat) : Out → Out
  | .next t =>
    if heldUp t (16 * k + i) then
      let b := coreOf before k
      let l := (ctxOf before (16 * k + i)).lastIssue
      let t := modCore t k fun c => { c with p0 := b.p0, p1 := b.p1, aged := b.aged }
      .next (again (modCtx t (16 * k + i) fun c => { c with lastIssue := l }) k i tried)
    else .next (unpause t (16 * k + i))
  | o => o

/-! ## Fetch (R202, R215, R233, R328) -/

/-- What a fetch gives: a wait, a trap taken, or the word. -/
inductive FetchRes where
  | other (s : State)
  | word (w : Nat) (s : State)

/-- The boundary of slot `n` waits: it issues nothing until then. -/
def holdAt (s : State) (n : Nat) : State := modCtx s n fun c => { c with waitSince := some (c.waitSince.getD (cycOf s n)) }

/-- A fetch trap is precise: it waits for the loads that are outstanding before it (R182). -/
def fetchTrap (s : State) (n : Nat) (t : Trap) : State :=
  if (ctxOf s n).loads.isEmpty then takeTrapAt s n t else holdAt s n

def fetchPoison (s : State) (n : Nat) : Trap := { cause := 0x0C, tval := (ctxOf s n).pc.toNat % 2 ^ 48 + 2 ^ 49 }

/-- A fetch from a page that no L1 holds reads at home each time (R215). -/
def fetchHome (s : State) (n : Nat) (p : Part) : FetchRes :=
  if biPending s p.line then
    .other (biWait (modCtx s n fun c => { c with wait := .fetch p (cycOf s n) true }) p.line (.loadReturn n))
  else
    let t := lineDetect s p.line
    if t.poison.contains p.line then .other (fetchTrap t n (fetchPoison t n))
    else
      let (h, t) := homeLoad t p (ctxOf s n).pts
      .word (leNat (readUnder t p.key p.pa 4)) (modCtx t n fun c => { c with mrts := Nat.max c.mrts h.wts })

/-- Between the broadcast of REBASE and the move no L1 copy is used: accesses to the L1s stall (R253, R257). -/
def l1Stalls (s : State) : Bool := s.rebaseActive && s.epoch != decide (s.btsN % 2 = 1)

/-- The word of a line that a fetch reads (R233): what the last fetch brought, the context's own buffered stores, a usable
copy, or the home. A word that those stores give only in part waits for them (R235). -/
def fetchLine (s : State) (n : Nat) (p : Part) : FetchRes :=
  let c := ctxOf s n
  let t := modCtx s n fun c => { c with fetched := none }
  match (c.fetched.filter fun f => f.1 == p.pa), sbForward c.sb p with
  | some f, _ => .word f.2 t
  | none, .all bs => .word (leNat bs) t
  | none, .part => .other (holdAt t n)
  | none, .none =>
    if !p.cached then fetchHome t n p
    else if l1Stalls s then .other (holdAt t n)
    else match l1iFor t n p with
      | some l => .word (leNat (l.bytes p)) (modCtx t n fun c => { c with mrts := Nat.max c.mrts l.wts })
      | none =>
        .other (later (modCtx t n fun c => { c with wait := .fetch p (cycOf s n) (!fetchAhead t n p.line) }) (.loadReturn n))

/-- The fetch of the word at the pc of slot `n`. -/
def fetchWord (s : State) (n : Nat) : FetchRes :=
  let c := ctxOf s n
  let pc := c.pc.toNat
  if 2 ^ 48 ≤ pc then .other (fetchTrap s n (xlateTrap pc .fetch 0))
  else if isComb pc then .other (fetchTrap s n (protTrap pc .fetch false))
  else if (walkPend s (tlbsOf s n) c.asid pc).isSome then .other (holdAt s n)
  else match translate s (tlbsOf s n) c.asid c.priv pc .fetch with
    | .error e => .other (fetchTrap (walkMiss s n pc 4) n e)
    | .ok x =>
      let p : Part := { pa := x.pa, n := 4, at_ := 0, key := x.key, cls := x.cls, sys := x.sys }
      fetchLine (tlbFill s n c.asid pc x) n p

/-! ## Cells whose deadline has run out (R214) -/

/-- The address and the length of an instruction's access to memory (R329). -/
def accessOf (s : State) : Instr → Option (Nat × Nat)
  | .lb _ a i | .lbu _ a i | .sb _ a i => some (eaOf s a i, 1)
  | .lh _ a i | .lhu _ a i | .sh _ a i => some (eaOf s a i, 2)
  | .lw _ a i | .lwu _ a i | .sw _ a i => some (eaOf s a i, 4)
  | .ld _ a i | .sd _ a i => some (eaOf s a i, 8)
  | .vld _ a i | .vst _ a i => some (eaOf s a i, 16)
  | .lda _ a _ _ | .ldaF _ a _ _ | .stl a _ _ _ | .ldfe _ a | .ldff _ a | .stef a _ | .stff a _ | .amoadd _ a _ _
  | .amoand _ a _ _ | .amoor _ a _ _ | .amoxor _ a _ _ | .amoswap _ a _ _ | .amomin _ a _ _ | .amomax _ a _ _
  | .amominu _ a _ _ | .amomaxu _ a _ _ | .amocas _ a _ _ => some ((rx s a).toNat, 8)
  | _ => none

/-- The cells that an instruction is about: of a handle, or bound to the bytes it accesses. -/
def cellsOf (s : State) : Instr → List Cell
  | .seal a _ _ | .sealm a _ _ | .csett a _ | .cretire a | .done a | .cstat _ a _ | .copen _ _ a | .cbfree _ a | .cputD a _
  | .cputQ a _ | .cld _ a | .cldAcq _ a =>
    [cellOf s (handleCl (rx s a).toNat) (handleIx (rx s a).toNat)]
  | i => match accessOf s i with
    | none => []
    | some (va, n) => [va, va + n - 1].filterMap fun v =>
      if !isComb v then none
      else match combAddr (ownCl (cur s)) v with
        | .ok (cl, o) => (boundTo s cl o).map Prod.snd
        | .error _ => none

/-- An operation on a cell comes after an expiry that the cell's table has received: it waits for the seal (R214). -/
def expiring (s : State) (i : Instr) : Bool := (cellsOf s i).any Cell.dlx

/-- An access whose walk meets a line with an unanswered back-invalidation waits (R107). -/
def walkHeld (s : State) (i : Instr) : Bool :=
  let asid := (cur s).asid
  !s.backInv.isEmpty && match i with
  | .faultwait _ a _ => (walkPend s [] asid (rx s a).toNat).isSome
  | .spawn _ a _ _ | .spawnRel _ a _ _ _ => (walkPend s (tlbsOf s s.cx) asid (rx s a).toNat).isSome
  | i => match accessOf s i with
    | none => false
    | some (va, n) => (pieces (unitOf va n) va n).any fun p => (walkPend s (tlbsOf s s.cx) asid (va + p.1)).isSome

/-- An instruction that reads through the data L1. -/
def readsL1 : Instr → Bool
  | .lb .. | .lbu .. | .lh .. | .lhu .. | .lw .. | .lwu .. | .ld .. | .vld .. | .lda .. | .ldaF .. => true
  | _ => false

/-- A load that stalls for the move of its core. -/
def l1Stalled (s : State) (i : Instr) : Bool :=
  l1Stalls s && readsL1 i && match accessOf s i with
  | none => false
  | some (va, n) => (pieces (unitOf va n) va n).any fun p =>
    !isComb (va + p.1) && match translate s (tlbsOf s s.cx) (cur s).asid (cur s).priv (va + p.1) .read with
    | .ok x => !x.sys && isHbm x.pa
    | .error _ => false

/-- What else an instruction waits for before it issues. -/
def stalled (s : State) (i : Instr) : Bool := expiring s i || walkHeld s i || l1Stalled s i

/-! ## The cycle -/

/-- A trap has been taken, or a kill. -/
def trapped (s t : State) (n : Nat) : Bool :=
  decide ((ctxOf s n).tl < (ctxOf t n).tl) || (ctxOf t n).dying || !(ctxOf t n).active

/-- The divides of a core that wait for its divider, oldest first: one that no longer stands at its divide waits no more
(R310). -/
def divQueue (s : State) (k : Nat) : List Nat := (coreOf s k).divWait.filter (heldUp s)

/-- An instruction that an interlock holds; a divide that only the divider holds takes its place among those that wait. -/
def wait310 (s : State) (n : Nat) (i : Instr) : State :=
  let t := hold s
  if (divCycles (ctxOf s n) i).isNone || sourceHeld s n i then t
  else modCore t (slotCore n) fun k => { k with divWait := if k.divWait.contains n then k.divWait else k.divWait ++ [n] }

/-- A divide has issued: the divider is held, and the result is readable when it is free (R310). -/
def divided (s t : State) (n : Nat) (i : Instr) : State :=
  match divCycles (ctxOf s n) i with
  | none => t
  | some l =>
    let due := (coreOf t (slotCore n)).cyc + l
    modCtx (modCore t (slotCore n) fun k => { k with divFree := due, divWait := k.divWait.filter (· != n) }) n fun c =>
      { c with busy := (writes i).foldl (fun m r => fset m (c.reg r) due) (c.busy.filter fun b => decide (due < b.2 + l)) }

/-- An instruction that has completed hides the values of older loads from the registers it writes (R310); one that waits for
its own value has written nothing yet. -/
def wrote (s t : State) (n : Nat) (i : Instr) : State :=
  if (ctxOf s n).loads.isEmpty || (ctxOf t n).wait != .none then t
  else modCtx t n fun c => c.overwritten (ctxOf s n).nextNum ((writes i).map (ctxOf s n).reg)

/-- The instruction in hand issues unless an interlock holds it. While loads are outstanding a trap waits for them, so that it
is precise (R182, log 64). -/
noncomputable def runInstr (i : Instr) (s : State) : Out :=
  let n := s.cx
  let s := if (coreOf s (slotCore n)).divWait.isEmpty then s
    else modCore s (slotCore n) fun k => { k with divWait := divQueue s (slotCore n) }
  if interlocked s n i || stalled s i then .next (wait310 s n i)
  else match exec i s with
    | .next t =>
      if heldUp t n then .next t
      else if trapped s t n then .next (if (ctxOf s n).loads.isEmpty then t else hold s)
      else .next (divided s (wrote s t n i) n i)
    | o => o

/-- A word that decodes to nothing traps with ILLEGAL (R283, R186). -/
noncomputable def runWord (w : Nat) (s : State) : Out :=
  match decodeSwarm w with
  | some i => runInstr i s
  | none => .next (if (ctxOf s s.cx).loads.isEmpty then takeTrap s { cause := 0x01, tval := w } else hold s)

/-- A trap or the handler that is due waits for outstanding loads (R182). -/
def boundaryHeld (s : State) (n : Nat) : Bool :=
  !(ctxOf s n).loads.isEmpty && ((asyncPend s n).isSome || handlerPend (ctxOf s n))

/-- An interlock holds the next instruction of a context that is ready but for that (R142). -/
noncomputable def stuck (s : State) (n : Nat) : Bool :=
  let held : Out → Bool
    | .next t => heldUp t n
    | _ => false
  if (asyncDue s n).isSome || handlerDue (ctxOf s n) then false
  else if boundaryHeld s n then true
  else if (ctxOf s n).pc = 0 then held (runInstr .exit { s with cx := n })
  else match fetchWord s n with
    | .other t => heldUp t n
    | .word w t => held (runWord w { t with cx := n })

/-- A cycle of a core begins: contexts that turn ready are noted; one that is ready ends a clock gate (R142, R154). -/
noncomputable def beginCycle (s : State) (k : Nat) : State :=
  let t := modCore s k fun c => { c with cyc := c.cyc + 1 }
  let note (u : State) (i : Nat) : State :=
    let n := 16 * k + i
    let c := ctxOf u n
    if !c.active then u
    else if ready u n && !stuck u n then
      let u := if (coreOf u k).gated then modCore u k fun c => { c with gated := false } else u
      if c.readySince.isSome then u else modCtx u n fun c => { c with readySince := some (coreOf u k).cyc }
    else if c.readySince.isNone then u else modCtx u n fun c => { c with readySince := none }
  (List.range 16).foldl note t

/-- What a chosen context does: a trap or the handler that is due, EXIT at address 0, or its next instruction. -/
noncomputable def runSlotOf (s : State) (k i : Nat) (b : IssueBy) (tried : List Nat) : Out :=
  let n := 16 * k + i
  if (asyncDue s n).isSome then exec (.asyncTrap n) (again s k i tried)
  else if handlerDue (ctxOf s n) then exec (.messageHandlerEntry n) (again s k i tried)
  else if boundaryHeld s n then .next (again s k i tried)
  else if (ctxOf s n).pc = 0 then settle s k i tried (runInstr .exit (issued s k i b))
  else match fetchWord s n with
    | .other t => .next (again t k i tried)
    | .word w t => settle s k i tried (runWord w (issued t k i b))

/-- A turn of a core: a new cycle, or the rest of one in which no context has issued yet. -/
noncomputable def coreTurn (s : State) (k : Nat) (tried : List Nat) : Out :=
  let s := if tried.isEmpty then beginCycle s k else s
  match barrelPick s k tried with
  | none => .next s
  | some (i, b) => runSlotOf s k i b tried

/-! ## A program placed by hand (log 2) -/

/-- Where `withFetchWord` puts its word: the virtual address, its line in HBM, and the tables that map it. -/
def probeVa : Nat := 0x40000000
def probePa : Nat := 0x4000000
def probeRoot : Nat := 0
def probeTop : Nat := 0x4000
def probeMid : Nat := 0x8000

/-- The leaf: 64 MiB, present, R, W, X and U set, class W, DEV, key slot 0. -/
def probeLeaf : Nat := 2 ^ 63 + 3 * 2 ^ 61 + 15 * 2 ^ 57 + probePa / 65536 * 16

/-- Address space 1 maps the virtual addresses of the word's 64 MiB to HBM. -/
def probeTables (m : Mem) : Mem :=
  let m := memWrite m (probeRoot + 8) (leBytes 8 (2 ^ 63 + probeTop))
  let m := memWrite m (probeTop + 8 * walkIdx probeVa 3) (leBytes 8 (2 ^ 63 + probeMid / 256))
  memWrite m (probeMid + 8 * walkIdx probeVa 2) (leBytes 8 probeLeaf)

/-- The context of slot 0 stands before the word, with nothing due at the boundary. -/
def Ctx.placed (c : Ctx) : Ctx :=
  { c with active := true, dying := false, pc := wd probeVa, asid := 1, cls := 0, wait := .none, waitSince := none, parked := false,
           preempt := none, moving := none, lastIssue := none, ranTrap := false, ranHnd := false, loads := [], busy := [],
           fetched := none }

/-- Core 0 holds the word's line and no stale translation, and chooses slot 0. -/
def Core.placed (k : Core) (l : L1Copy) : Core :=
  { k with tlb := [], l1i := [l], off := k.off &&& 0xFFFE, p0 := 15, aged := some (k.cyc + 1), divFree := 0, divWait := [] }

/-- A word stands where the next step fetches. -/
def placeWord (s : State) (w : Nat) : State :=
  let bs := leBytes 4 w
  let t := { s with
    devst := .ready, asidroot := probeRoot, hbmLocal := 0, keys := fset s.keys 0 (.boot s.resets),
    lineKey := [probeRoot, probeTop, probeMid, probePa].foldl (fun m a => fdel m ((a + if a = probeMid then 128 else 0) / 64)) s.lineKey,
    mem := memWrite (probeTables s.mem) probePa bs,
    due := [], agenda := [], held := 0, turns := [.core 0 []], cx := 0 }
  let t := modDie t 0 fun d => { d with llTlb := [] }
  let t := modCtx t 0 (·.placed)
  let l : L1Copy := { line := probePa / 64, data := bs ++ List.replicate 60 0, wts := 0, rts := (ctxOf t 0).pts, lease := 0,
                      since := cycOf t 0 }
  modCore t 0 (·.placed l)

end Sys2Proof.Machine
end

