-- ==== Sys2Proof/Machine/Tick.lean ====
section
/-!
DEFINITION. A nanosecond of the device: the GTC and its slew (R36, R61), cluster clocks (R19), the counters that run with
them (R169, R212, R238), one flit per port (R49), what is sent again (R132, R171), the timers that are due, and the cycles
that cores and anvils have to run (R143, R393).
-/

namespace Sys2Proof.Machine

/-! ## Clocks -/

/-- The GTC counts; of every 1,000 counts one is doubled or left out while there is an offset to remove (R61). -/
def gtcStep (s : State) : State :=
  let adjust := decide ((s.ticks + 1) % 1000 = 0)
  let t := { s with ticks := s.ticks + 1 }
  if adjust && decide (0 < s.slew) then { t with gtc := s.gtc + 2, slew := s.slew - 1 }
  else if adjust && decide (s.slew < 0) then { t with slew := s.slew + 1 }
  else { t with gtc := s.gtc + 1 }

/-- Clusters in which something can run. -/
def liveClusters (s : State) : List Nat :=
  (s.clusters.map Prod.fst ++ (s.ctxs.filter fun (p : Nat × Ctx) => p.2.active).map (fun (p : Nat × Ctx) => slotCl p.1) ++
    (s.anvils.map fun (p : Nat × Anvil) => p.1 / 2)).foldl nins []

/-- Cycles of a cluster's clock in this nanosecond: step k runs at 16 + k twentieths of 1 GHz (R19). -/
def cyclesNow (c : Cluster) : Nat := (c.frac + 16 + c.cur) / 20

/-- The first of them begins; what is left of a cycle is carried over. -/
def Cluster.advance (c : Cluster) : Cluster :=
  { c with cyc := c.cyc + Nat.min 1 (cyclesNow c), frac := (c.frac + 16 + c.cur) % 20 }

/-- Counters of an active context over `n` cycles: a moving one does not drift (R169, R238). -/
def Ctx.count (c : Ctx) (n : Nat) : Ctx :=
  if !c.active then c
  else { c with masked := if c.mhMask then c.masked + n else c.masked, drift := if c.moving.isSome then c.drift else c.drift + n }

/-- DLREM counts GTC ticks in an OPEN cell (R212). -/
def Cell.countDown (c : Cell) (d : Nat) : Cell := if c.dlv && !c.dlp && c.st == .opn then { c with dlrem := c.dlrem - d } else c

/-- The clocks and what counts with them. A second cycle begins when the first is over (`secondCycle`). -/
def clocks (s : State) : State :=
  let t := gtcStep s
  let d := t.gtc - s.gtc
  let cls := liveClusters s
  let t := { t with ctxs := t.ctxs.map fun (p : Nat × Ctx) => (p.1, p.2.count (Nat.min 1 (cyclesNow (clOf s (slotCl p.1))))) }
  let step (u : State) (k : Nat) : State := modCl u k fun c =>
    { c.advance with cells := c.cells.map fun (e : Nat × Cell) => (e.1, e.2.countDown d) }
  cls.foldl step t

/-! ## What is sent again -/

/-- A refused SEND to a name would find room now (R171). -/
def sendRoom (s : State) (name : Nat) : Bool :=
  let org := name / 128 % 256
  let room (k : Nat) : Bool := decide ((clOf s k).spill.length < (clOf s k).spillSize * 256)
  let at_ (n : Nat) : Bool :=
    if holds s n name then
      room (slotCl n) || (decide ((ctxOf s n).mailbox.length < 8) && !(clOf s (slotCl n)).spill.any (·.dest == name) &&
        !(clOf s org).spill.any (·.dest == name))
    else if (savedAs s name).isSome then room org else true
  match fwdEntry s name with
  | some f => if f.moving then room org else at_ f.here
  | none => at_ (name % 32768)

/-- A refused message or record of slot `n` sets out again once there is room (R132, R171). -/
def resend (s : State) (n : Nat) : State :=
  match (ctxOf s n).wait with
  | .send dest m true =>
    if sendRoom s (dest % 2 ^ 28) then
      later (modCtx s n fun c => { c with wait := .send dest m false }) (.messageDelivery dest m (some n))
    else s
  | .launch cl r true =>
    if ((clOf s cl).lq.filter (·.cls == r.cls)).length < 64 then
      later (modCtx s n fun c => { c with wait := .launch cl r false })
        (if r.form = .spawn then .spawnPacketArrival cl r else .launchQueueEntry cl r)
    else s
  | _ => s

/-- The line the patrol scrubber reads next: each line of HBM in turn (R41, log 19). -/
def nextScrub (s : State) : Nat :=
  let a := s.scrub + 1
  -- first lines of the interleaved window and of each die's part of the die-local window (R17)
  let starts := (List.range 4).map fun d => 2 ^ 33 + d * 2 ^ 31
  if (stackOf s (64 * a)).isSome then a
  else match starts.find? fun b => decide (a ≤ b) && (stackOf s (64 * b)).isSome with
    | some b => b
    | none => if (stackOf s 0).isSome then 0 else 2 ^ 33

/-- An error arises in a memory; the next access that meets it finds it (R39, R40, R42, log 19). -/
def upset (s : State) : State :=
  let (f, t) := draw s
  match Config.upset f with
  | none => t
  | some (.hbm l r) => if (stackOf t (64 * l)).isSome then { t with latent := fset t.latent l r } else t
  | some (.l2 l r) => if (fget t.home l).isSome then { t with latentL2 := fset t.latentL2 l r } else t
  | some (.comb c w double) =>
    if !clusterOk c || decide (2 ^ 19 ≤ w) then t
    else modCl t c fun k => if double then { k with latent := nins k.latent w } else { k with soft := nins k.soft w }

/-- Held records go out, ports send, refused messages set out, operations that wait for a line try again, the scrubber goes on. -/
def resume (s : State) : State :=
  let t := if s.evq.held.isEmpty then s else drainQueues s
  let t := (List.range 12).foldl pumpPort t
  let t := (t.ctxs.map Prod.fst).foldl resend t
  let t := if t.ceOps.isEmpty then t else ceRetry t
  let t := if t.tlbBusy && !t.agenda.contains .tlbinvDone then later t .tlbinvDone else t
  if t.gtc % 13000 = 0 ∧ (t.devst = .config ∨ t.devst = .ready) then later t (.patrolScrub (nextScrub t)) else t

/-! ## Timers that are due -/

def dueIf (b : Bool) (i : Instr) : List Instr := if b then [i] else []

/-- Timers of a context. -/
def dueOfCtx (s : State) (n : Nat) (c : Ctx) : List Instr :=
  dueIf (c.active && decide (1024 ≤ c.drift)) (.driftTick n) ++
  dueIf (c.active && c.mhMask && decide (4096 ≤ c.masked)) (.msgmaskOverrun n) ++
  dueIf ((c.active && (deadlineDue s c.deadline).isSome) ||
    (match fget s.saved n with | some v => (deadlineDue s v.deadline).isSome | none => false)) (.deadline n) ++
  (match c.wait with
   | .fe _ => dueIf (waitedFor s n (2 ^ 20)) (.feTimeout n)
   | .send .. | .launch .. => dueIf (waitedFor s n (2 ^ 16)) (.sendTimeout n)
   | .combAmo .. => dueIf (waitedFor s n (2 ^ 20)) (.deferredSignalTimeout n)
   | _ => []) ++
  (match c.grant with | some g => dueIf (decide (g.endCyc ≤ cycOf s n)) (.grantEnd (.ctx n)) | none => []) ++
  dueIf (c.active && c.preempt.isSome && atBoundary c && (imagePend s n).isNone) (.preemptSaveDone n) ++
  dueIf (mayLeave c) (.imageInstall (nameOf c))

/-- Timers of an anvil's contexts. -/
def dueOfAnvil (s : State) (av : Nat) (a : Anvil) : List Instr :=
  [0, 1].flatMap fun k => match (avCtx a k).grant with
    | some g => dueIf (decide (g.endCyc ≤ (clOf s (av / 2)).cyc)) (.grantEnd (.anvil av k))
    | none => []

/-- Timers of a cluster. -/
def dueOfCluster (s : State) (cl : Nat) (c : Cluster) : List Instr :=
  dueIf (!c.lq.isEmpty || !c.arrived.isEmpty) (.schedulerStart cl) ++
  (c.te.filter (·.moved)).map (fun m => .teCommandComplete cl m.id) ++
  (c.cells.flatMap fun (p : Nat × Cell) =>
    match p.2.tpost with | some g => dueIf (decide (g ≤ s.gtc)) (.timerSealPostRetry cl p.1) | none => []) ++
  (c.defer.filterMap fun d => match d.who with
    | .remote p => if d.since + 2 ^ 20 ≤ c.cyc then some (.remoteAmoBankTimeout cl p.tag) else none
    | _ => none)

/-- Timers of a port. -/
def dueOfPort (s : State) (p : Nat) (q : Port) : List Instr :=
  dueIf (q.st == .training && decide (q.since + 100000000 ≤ s.gtc)) (.trainingTimeout p) ++
  dueIf (q.st == .retrain && decide (q.since + s.deadTimeout * 100000 ≤ s.gtc)) (.linkDeadTimeout p)

/-- Timers of a view slot (R75, R77, R80). -/
def dueOfView (s : State) (n : Nat) (v : ViewSlot) : List Instr :=
  dueIf (v.st == .forming && decide (v.formSince + 100000000 ≤ s.gtc)) (.formTimeout n) ++
  dueIf (v.st == .active && decide (2 ≤ v.view.length) && decide (v.lastBeat + 50000 ≤ s.gtc)) .heartbeatTimer ++
  ((List.range v.view.length).filter fun r => match v.view[r]? with | some m => suspectDue s v m.dev | none => false).map
    (fun r => .suspicionTimeout n r) ++
  (match v.agree with
   | .changing _ t => dueIf (v.st == .changing && decide (t + 2000000 ≤ s.gtc)) (.suspectTimer n)
   | .proposing _ _ _ _ t _ => dueIf (decide (t + 1000000 ≤ s.gtc)) (.roundExpiry n)
   | .bound _ t => dueIf (decide (t + 2000000 ≤ s.gtc)) (.boundTimeout n)
   | .idle => [])

/-- Every timer that is due; `old` is the GTC before this nanosecond. -/
def dueNow (s : State) (old : Nat) : List Instr :=
  (if old / 1000 = s.gtc / 1000 then [] else (List.range 4).map .windowBoundary) ++
  dueIf (!s.launchBuf.isEmpty) .launchDelivery ++
  (s.ctxs.flatMap fun (p : Nat × Ctx) => dueOfCtx s p.1 p.2) ++
  (s.anvils.flatMap fun (p : Nat × Anvil) => dueOfAnvil s p.1 p.2) ++
  (s.clusters.flatMap fun (p : Nat × Cluster) => dueOfCluster s p.1 p.2) ++
  (s.ports.flatMap fun (p : Nat × Port) => dueOfPort s p.1 p.2) ++
  (s.views.flatMap fun (p : Nat × ViewSlot) => dueOfView s p.1 p.2) ++
  (s.backInv.flatMap fun (p : Nat × BackInv) =>
    dueIf (!p.2.reported && decide (p.2.since + 1000000 ≤ s.gtc)) (.biTimeout p.1)) ++
  ([(0, s.evq), (1, s.fsq)].flatMap fun (p : Nat × HostQ) =>
    dueIf (p.2.owedIrq && decide (p.2.lastIrq.getD 0 + p.2.moderate * 1000 ≤ s.gtc)) (.moderationIntervalExpiry p.1)) ++
  dueIf (s.gtcEn && decide (old / 10000 ≠ s.gtc / 10000)) .gtcSyncExchange

/-- The second cycle of a nanosecond begins in the clusters that have one: their clocks, what counts their cycles, and the
timers that run by cycles, which come before the agents of the cycle (R19, R26, R481). -/
def secondCycle (s : State) (cls : List Nat) : State :=
  let t := { s with ctxs := s.ctxs.map fun (p : Nat × Ctx) => (p.1, if cls.contains (slotCl p.1) then p.2.count 1 else p.2) }
  let t := cls.foldl (fun u k => modCl u k fun c => { c with cyc := c.cyc + 1 }) t
  { t with due :=
      ((t.ctxs.filter fun (p : Nat × Ctx) => cls.contains (slotCl p.1)).flatMap fun p => dueOfCtx t p.1 p.2) ++
      ((t.anvils.filter fun (p : Nat × Anvil) => cls.contains (p.1 / 2)).flatMap fun p => dueOfAnvil t p.1 p.2) }

/-! ## Agents -/

/-- The agents of a cluster that have something to run: cores with an active context, anvils that are busy. -/
def agentsOf (s : State) (cl : Nat) : List Agent :=
  ((List.range 8).filter fun j => s.ctxs.any fun (p : Nat × Ctx) => slotCore p.1 == cl * 8 + j && p.2.active).map
    (fun j => .core (cl * 8 + j) []) ++
  ((List.range 2).filter fun j => avBusy s (cl * 2 + j)).map fun j => .anvil (cl * 2 + j)

/-- The turns of a cycle, from an agent that a free value names (log 1), and after them the cell tables, which take the
deadlines that have run out: what reached them in the cycle is before those (R212, R214). -/
def roundOf (s before : State) (k : Nat) : List Agent :=
  let cls := (liveClusters s).filter fun cl => decide (k < cyclesNow (clOf before cl))
  let l := cls.flatMap (agentsOf s)
  (if l.length < 2 then l else l.rotateLeft (Config.choose (s.fresh + k) % l.length)) ++
    (cls.filter fun cl => (clOf s cl).cells.any fun (p : Nat × Cell) => p.2.dlx || (p.2.dlv && p.2.dlrem == 0)).map .cells

/-- The cycles of this nanosecond, cycle by cycle. `before` holds the clocks as they stood. -/
def agentsNow (s before : State) : State :=
  let two := (liveClusters s).filter fun cl => decide (1 < cyclesNow (clOf before cl))
  let l := roundOf s before 0 ++ (if two.isEmpty then [] else .cycle two :: roundOf s before 1)
  { s with turns := l, fresh := if l.length < 2 then s.fresh else s.fresh + 2 }

/-- A nanosecond passes. Until the GTC runs nothing of the device does (R36, R46). -/
def tick (s : State) : State :=
  if !s.gtcRun then s
  else
    let t := upset (resume (clocks s))
    agentsNow { t with due := dueNow t s.gtc } s

/-! ## The agenda (log 1) -/

/-- Happenings of one stream keep their order; those of different streams come about in any order, but for what `before` says.
Messages and packets keep it by source, destination and class (R145). -/
def stream : Instr → Nat × Nat
  | .storePerform n | .amoExecute n | .atomicopCompletion n _ _ => (1, n)
  | .loadReturn n => (2, n)
  | .keyLoadDone n => (3, n)
  | .sealQueueRoom n => (4, n)
  | .teChunk c | .teCommandStart c | .teCommandComplete c _ => (5, c)
  | .avloadCopyDone n => (6, n)
  | .anvilStart a => (7, a)
  | .messageDelivery d m _ => (8, (msgSource m * 2 ^ 28 + d % 2 ^ 28) * 4 + msgCls m)
  | .flushMarker n k => (9, n * 4 + k)
  | .imageInstall n => (10, n)
  | .inMsg _ p | .inWrite _ p | .inCput _ p | .inAmoAdd _ p | .inAmoSwap _ p | .inAmoReply _ p | .inAck _ p | .inNack _ p =>
    (11, p.source * 4 + p.cls)
  | .hello h _ | .heartbeat h _ _ | .propose h _ _ _ | .ceAck h _ _ | .busy h _ | .abandon h | .commit h _ _ | .exclude h _
  | .stall h _ | .fetch h | .joinReq h _ _ | .joinNak h | .joinWait h _ => (12, h.src)
  | .suspect h _ => (13, h.src)
  | .ceData h _ => (14, h.src)
  | .launchDelivery => (15, 0)
  | .launchQueueEntry _ r | .spawnPacketArrival _ r | .forwardedRecordArrival _ r | .returnedRecordArrival r => (16, r.seq)
  | .idleNotice g c _ => (17, g * 256 + c)
  | .clockStepChangeDone c => (18, c)
  | .boost .. | .release .. => (19, 0)
  | .rebaseMove | .rebaseComplete => (20, 0)
  | .patrolScrub _ => (21, 0)
  | .attestationReportDone => (22, 0)
  | .tlbinvDone => (23, 0)
  | _ => (0, 0)

/-- The coordinator takes suspicions in order of their GTC and then of their source (R78): the rank of a report. -/
def suspicion : Instr → Option Nat
  | .suspect h r => some (r.gtc * 4096 + h.src % 4096)
  | _ => none

/-- A suspicion that ranks before another one comes first, wherever it stands. -/
def suspectsFirst (l : List Instr) (i : Instr) : Bool :=
  match suspicion i with
  | none => true
  | some g => l.all fun j => match suspicion j with | some k => decide (g ≤ k) | none => true

/-- The cluster whose router a message leaves by: its sender's, or its unit's (R38). None came over the mesh from outside it. -/
def sentFrom (m : Msg) : Option Nat :=
  let v := msgSource m
  if msgIsRemote m then none
  else if !msgFromUnit m then some (v / 128 % 256)
  else match fld v 11 4 with
    | 0 => some (fld v 0 11 / 2)
    | 1 | 4 => some (fld v 0 11)
    | _ => none

/-- The way of what crosses the mesh: from a cluster, to a cluster, on a channel. 0 is the control channel, which idle notices
have to themselves; each message class has its own (R138, R145). -/
def meshWay (s : State) : Instr → Option (Nat × Nat × Nat)
  | .idleNotice g c _ => some (c, (groupOf s g).bcluster, 0)
  | .messageDelivery d m _ => (sentFrom m).map fun f => (f, d / 128 % 256, msgCls m + 1)
  | .launchQueueEntry c r | .spawnPacketArrival c r | .forwardedRecordArrival c r => some (r.via, c, r.cls + 1)
  | .returnedRecordArrival r => some (r.via, (groupOf s r.target).bcluster, r.cls + 1)
  | _ => none

/-- An older happening comes first: it is of the same stream, or goes the same way at every router on the same channel or on one
with priority. A packet of a message class that has waited for 256 cycles goes once ahead of the other classes; the steps
for which the head of the agenda has waited stand for the cycles (R138, R145, R148; log 81). -/
def before (s : State) (older i : Instr) : Bool :=
  stream older == stream i ||
    match meshWay s older, meshWay s i with
    | some (f, t, k), some (g, u, l) =>
      f == g && t == u && (k == 0 || k == l || (decide (k < l) && decide (s.held < 256)))
    | _, _ => false

/-- Places in the agenda whose happening may come next: none that comes before it stands before it, and no report of suspicion
ranks before one (R78). -/
def mayCome (s : State) : List Nat :=
  (List.range s.agenda.length).filter fun k => match s.agenda[k]? with
    | some i => suspectsFirst s.agenda i && ((suspicion i).isSome || !(s.agenda.take k).any fun j => before s j i)
    | none => false

/-- Steps by which the head of the agenda can be put off. -/
def deferLimit : Nat := 65536

/-- The place in the agenda of what happens now: none if everything is put off. -/
def agendaPick (s : State) : Option Nat :=
  if deferLimit ≤ s.held then some ((mayCome s).headD 0)
  else if Config.defer s.fresh then none
  else
    let l := mayCome s
    some (l.getD (Config.choose s.fresh % Nat.max 1 l.length) 0)

/-- The agenda without the happening at a place. -/
def takeOff (s : State) (k : Nat) : State :=
  { s with agenda := s.agenda.eraseIdx k, fresh := s.fresh + 1, held := if k = 0 then 0 else s.held + 1 }

end Sys2Proof.Machine
end

