-- ==== Sys2Proof/Machine/Step.lean ====
section
/-!
DEFINITION. The step of the machine: a timer that is due, else a happening of the agenda, else a cycle of an agent, else a
nanosecond (log 1).
-/

namespace Sys2Proof.Machine

/-- The next agent's cycle; when every agent has had its cycles, a nanosecond passes. -/
noncomputable def turn (s : State) : Out :=
  match s.turns with
  | [] => .next (tick s)
  | .core k tried :: t => coreTurn { s with turns := t } k tried
  | .anvil av :: t => .next (anvilCycle { s with turns := t } av)
  | .cycle cls :: t => .next (secondCycle { s with turns := t } cls)
  | .cells cl :: t => .next { s with
      turns := t,
      due := ((clOf s cl).cells.filter fun (p : Nat × Cell) => expired p.2).map fun p => .cellDeadlineExpiry cl p.1 }

/-- One step. -/
noncomputable def step (s : State) : Host.Outcome State Fault Refusal :=
  match s.due with
  | i :: t => exec i { s with due := t }
  | [] =>
    if s.agenda.isEmpty then turn s
    else match agendaPick s with
      | none => turn { s with fresh := s.fresh + 1, held := s.held + 1 }
      | some k => match s.agenda[k]? with
        | some i => exec i (takeOff s k)
        | none => turn s

/-- `s` with a word, of `nbits` bits, stored where the next step fetches its instruction: a loader's work (log 2). -/
def State.withFetchWord (s : State) (nbits w : Nat) : State := placeWord s (w % 2 ^ nbits)

end Sys2Proof.Machine
end

