-- ==== Sys2Proof/Safety.lean ====
section
/-!
DEFINITION. The terms claims are stated in: a machine that goes on, what an instruction leaves unchanged, the shapes in
which an instruction of a context completes, and the invariant of memory.
-/

namespace Sys2Proof.Safety

open Sys2Proof.Machine

/-- The machine goes on: it stops with no fault and no refusal. -/
def Goes (s : State) : Prop := ∃ t, step s = .next t

/-- What every step keeps of memory: it stands in its canonical form. -/
def Inv (s : State) : Prop := Memory.wf s.mem

/-- An instruction answers a next state of which something holds. -/
def Does (i : Instr) (s : State) (p : State → Prop) : Prop := ∃ t, exec i s = .next t ∧ p t

/-- Every byte of memory reads as before. -/
def SameMem (s t : State) : Prop := ∀ a, memGet t.mem a = memGet s.mem a

/-- Every byte of memory outside `n` bytes from `a` reads as before. -/
def SameMemBut (s t : State) (a n : Nat) : Prop := ∀ x, x < a ∨ a + n ≤ x → memGet t.mem x = memGet s.mem x

/-- No word of memory is in error: what is read is what stands there. -/
def CleanMem (s : State) : Prop :=
  s.latent = [] ∧ s.latentL2 = [] ∧ s.poison = [] ∧ ∀ e ∈ s.clusters, e.2.latent = [] ∧ e.2.soft = [] ∧ e.2.poison = []

/-- A piece of an address range whose bytes are stored under the key by which it is accessed, or under none. -/
def Plain (s : State) (p : Part) : Prop :=
  p.isComb = true ∨ isHbm p.pa = false ∨ fget s.keys p.key = some (lineKeyOf s p.line)

/-- Each piece of a range holds its bytes of a list, and no other byte of memory has changed. -/
def Lands (s t : State) (qs : List Part) (bs : List Byte) : Prop :=
  (∀ q ∈ qs, memRead t.mem q.pa q.n = (bs.drop q.at_).take q.n) ∧
  ∀ a, (∀ q ∈ qs, a < q.pa ∨ q.pa + q.n ≤ a) → memGet t.mem a = memGet s.mem a

/-- The pieces of a range that can be written, each a part of memory of its own. -/
def Writable (s z : State) (va : Nat) (qs : List Part) : Prop :=
  (∀ q ∈ qs, Plain s q ∧ teWriteStop z va q = none) ∧ qs.Pairwise fun p q => p.pa + p.n ≤ q.pa ∨ q.pa + q.n ≤ p.pa

/-- Nothing of the machine but the context of slot `n` changes. -/
def OnlySlot (s t : State) (n : Nat) : Prop :=
  (∀ k, k ≠ n → ctxOf t k = ctxOf s k) ∧ SameMem s t ∧ { t with ctxs := [] } = { s with ctxs := [] }

/-- What is left of a context without its general, vector and mask registers, FCSR, pc and waits. -/
def rest (c : Ctx) : Ctx :=
  { c with x := Vector.replicate 32 0, shadow := Vector.replicate 8 0, v := Vector.replicate 16 0,
           m := Vector.replicate 4 0, fcsr := 0, pc := 0, wait := .none, waitSince := none, parked := false, fencing := false, ranTrap := false,
           ranHnd := false }

/-- An instruction of the context in hand completes: the pc is `pc`, nothing waits, no register but those named by the
other claims and no other part of the machine changes. -/
structure Done (s t : State) (pc : Word) : Prop where
  pc_eq : (cur t).pc = pc
  wait_eq : (cur t).wait = .none ∧ (cur t).waitSince = none
  rest_eq : rest (cur t) = rest (cur s)
  only : OnlySlot s t s.cx
  cx_eq : t.cx = s.cx

/-- The x registers are unchanged but for one; x0 has no value to change. -/
def XBut (s t : State) (d : XReg) (v : Word) : Prop := ∀ r : XReg, rx t r = if r = d ∧ r ≠ 0 then v else rx s r
def XSame (s t : State) : Prop := ∀ r : XReg, rx t r = rx s r
def VBut (s t : State) (d : VReg) (v : VWord) : Prop := ∀ r : VReg, rv t r = if r = d then v else rv s r
def VSame (s t : State) : Prop := ∀ r : VReg, rv t r = rv s r
def MBut (s t : State) (d : MReg) (v : BitVec 16) : Prop := ∀ r : MReg, rm t r = if r = d then v else rm s r
def MSame (s t : State) : Prop := ∀ r : MReg, rm t r = rm s r
def FlagsSame (s t : State) : Prop := (cur t).fcsr = (cur s).fcsr
/-- The flags of an operation are ORed into FCSR; its other bits stay. -/
def FlagsAdd (s t : State) (f : Fl) : Prop := (cur t).fcsr = (cur s).fcsr ||| f.fcsr

/-- The address of the next instruction. -/
def nextPc (s : State) : Word := (cur s).pc + 4

/-- An instruction whose effect is the value of one x register. -/
structure XResult (s t : State) (d : XReg) (v : Word) : Prop where
  done : Done s t (nextPc s)
  xs : XBut s t d v
  vs : VSame s t
  ms : MSame s t
  flags : FlagsSame s t

/-- An instruction whose effect is the value of one x register and the flags it raises. -/
structure XFResult (s t : State) (d : XReg) (v : Word) (f : Fl) : Prop where
  done : Done s t (nextPc s)
  xs : XBut s t d v
  vs : VSame s t
  ms : MSame s t
  flags : FlagsAdd s t f

/-- An instruction whose effect is the value of one v register and the flags it raises. -/
structure VFResult (s t : State) (d : VReg) (v : VWord) (f : Fl) : Prop where
  done : Done s t (nextPc s)
  xs : XSame s t
  vs : VBut s t d v
  ms : MSame s t
  flags : FlagsAdd s t f

/-- An instruction whose effect is the value of one mask register and the flags it raises. -/
structure MFResult (s t : State) (d : MReg) (v : BitVec 16) (f : Fl) : Prop where
  done : Done s t (nextPc s)
  xs : XSame s t
  vs : VSame s t
  ms : MBut s t d v
  flags : FlagsAdd s t f

/-- An instruction whose effect is the pc alone. -/
structure PcResult (s t : State) (pc : Word) : Prop where
  done : Done s t pc
  xs : XSame s t
  vs : VSame s t
  ms : MSame s t
  flags : FlagsSame s t

/-- The instruction in hand traps with a cause and a TVAL, at TL0 of a context at U with a handler, and has no other
effect (R182): TEPC1, TCAUSE1 and TVAL1 are written, TL becomes 1, the pc is TVEC. -/
structure Trapped (s t : State) (cause tval : Nat) : Prop where
  tl_eq : (cur t).tl = 1
  epc_eq : (cur t).tepc1 = (cur s).pc
  val_eq : (cur t).tval1 = wd tval
  cause_eq : fld (cur t).tcause1.toNat 0 8 = cause
  pc_eq : (cur t).pc = (cur s).tvec
  xs : XSame s t
  vs : VSame s t
  ms : MSame s t
  flags : FlagsSame s t
  only : OnlySlot s t s.cx

/-- The context in hand can take a trap at TL0. -/
def CanTrap (s : State) : Prop := (cur s).priv = .u ∧ (cur s).tl = 0 ∧ (cur s).tvec ≠ 0

end Sys2Proof.Safety
end

