-- ==== Sys2Proof/Certificates/Slice0/Obligations.lean ====
section
/-!
DEFINITION. The statements about the machine. Each docstring names the rule of spec/ it formalises; a statement that rests
on a choice of the model names the log entry.
-/

open Sys2Proof Sys2Proof.Machine Sys2Proof.Safety

/-! ## Integer instructions -/

/-- The value of an `n`-bit pattern in two's complement. -/
def Sys2Proof.Safety.sgn (n x : Nat) : Int := if x < 2 ^ (n - 1) then x else (x : Int) - 2 ^ n

/-- A result of `n` bits as rd receives it: all 64 bits, or the low 32 sign-extended (R312). -/
def Sys2Proof.Safety.narrow (w : Bool) (i : Int) : Word :=
  if w then (BitVec.ofInt 32 i).signExtend 64 else BitVec.ofInt 64 i

/-- The width a form works on and the operand as it takes it (R312). -/
def Sys2Proof.Safety.wid (w : Bool) : Nat := if w then 32 else 64
def Sys2Proof.Safety.lo (w : Bool) (a : Word) : Nat := a.toNat % 2 ^ wid w
def Sys2Proof.Safety.si (w : Bool) (a : Word) : Int := sgn (wid w) (lo w a)

/-- rd := i, of the form's width. -/
def Sys2Proof.Safety.Puts (i : Instr) (s : State) (d : XReg) (v : Word) : Prop := Does i s fun t => XResult s t d v

/-- R311 and R312: what each form of OP other than the divisions writes, in 64 bits and in 32; nothing else changes, no
flag is set, no form traps. Bitwise forms are said bit by bit, CLZ and CTZ by the place of the first set bit. -/
def Obligations.IntegerRegisterForms : Prop := ∀ (s : State) (d a b : XReg) (w : Bool),
  let n := wid w; let x := lo w (rx s a); let y := lo w (rx s b); let k := y % n
  Puts (.add d a b w) s d (narrow w (x + y)) ∧
  Puts (.sub d a b w) s d (narrow w (x - y)) ∧
  Puts (.and d a b w) s d (narrow w (x &&& y : Nat)) ∧
  Puts (.or d a b w) s d (narrow w (x ||| y : Nat)) ∧
  Puts (.xor d a b w) s d (narrow w (x ^^^ y : Nat)) ∧
  Puts (.sll d a b w) s d (narrow w (x * 2 ^ k)) ∧
  Puts (.srl d a b w) s d (narrow w (x / 2 ^ k : Nat)) ∧
  Puts (.sra d a b w) s d (narrow w (si w (rx s a) / 2 ^ k)) ∧
  Puts (.ror d a b w) s d (narrow w (x / 2 ^ k + x % 2 ^ k * 2 ^ (n - k) : Nat)) ∧
  Puts (.slt d a b w) s d (if si w (rx s a) < si w (rx s b) then 1 else 0) ∧
  Puts (.sltu d a b w) s d (if x < y then 1 else 0) ∧
  Puts (.min d a b w) s d (narrow w (min (si w (rx s a)) (si w (rx s b)))) ∧
  Puts (.max d a b w) s d (narrow w (max (si w (rx s a)) (si w (rx s b)))) ∧
  Puts (.minu d a b w) s d (narrow w (min x y : Nat)) ∧
  Puts (.maxu d a b w) s d (narrow w (max x y : Nat)) ∧
  Puts (.selnz d a b) s d (if rx s d ≠ 0 then rx s a else rx s b) ∧
  Puts (.mul d a b w) s d (narrow w (x * y)) ∧
  Puts (.mulh d a b w) s d (narrow w (si w (rx s a) * si w (rx s b) / 2 ^ n)) ∧
  Puts (.mulhu d a b w) s d (narrow w (x * y / 2 ^ n : Nat)) ∧
  (∃ c, Puts (.clz d a w) s d (narrow w (c : Nat)) ∧ c ≤ n ∧ x < 2 ^ (n - c) ∧ (c < n → 2 ^ (n - 1 - c) ≤ x)) ∧
  (∃ c, Puts (.ctz d a w) s d (narrow w (c : Nat)) ∧ c ≤ n ∧ x % 2 ^ c = 0 ∧ (c < n → x / 2 ^ c % 2 = 1)) ∧
  Puts (.popc d a w) s d (narrow w (((List.range n).map fun i => x / 2 ^ i % 2).sum : Nat)) ∧
  (∃ v, Puts (.bswap d a w) s d (narrow w (v : Nat)) ∧ v < 2 ^ n ∧
    ∀ i < n / 8, v / 256 ^ i % 256 = x / 256 ^ (n / 8 - 1 - i) % 256)

/-- R313: DIV and DIVU write the quotient truncated toward zero, REM and REMU the remainder with the sign of the dividend;
int_min by −1 gives int_min and 0.

R313: a division by zero traps with DIVZERO, TVAL 0, and leaves rd as it was. -/
def Obligations.Divisions : Prop :=
  (∀ (s : State) (d a b : XReg) (w : Bool),
   let x := lo w (rx s a); let y := lo w (rx s b)
   y ≠ 0 →
   Puts (.div d a b w) s d (narrow w ((si w (rx s a)).tdiv (si w (rx s b)))) ∧
   Puts (.rem d a b w) s d (narrow w ((si w (rx s a)).tmod (si w (rx s b)))) ∧
   Puts (.divu d a b w) s d (narrow w (x / y : Nat)) ∧
   Puts (.remu d a b w) s d (narrow w (x % y : Nat))) ∧
  (∀ (s : State) (d a b : XReg) (w : Bool),
   CanTrap s → lo w (rx s b) = 0 →
   ∀ i ∈ [Instr.div d a b w, .divu d a b w, .rem d a b w, .remu d a b w], Does i s fun t => Trapped s t 0x06 0)

/-- R314 and R315: the immediate forms and the shifts by an immediate.

R316: EXTU, EXTS and INS, with the field cut at bit 63 and a field of no bits. -/
def Obligations.ImmediateAndBitFieldForms : Prop :=
  (∀ (s : State) (d a : XReg) (i : BitVec 16) (w : Bool) (n : Fin 64),
   let x := (rx s a).toNat; let z := i.toNat; let e : Int := sgn 16 i.toNat; let k := n.val % wid w; let l := lo w (rx s a)
   Puts (.addi d a i) s d (BitVec.ofInt 64 (x + e)) ∧
   Puts (.andi d a i) s d (wd (x &&& z)) ∧
   Puts (.ori d a i) s d (wd (x ||| z)) ∧
   Puts (.xori d a i) s d (wd (x ^^^ z)) ∧
   Puts (.slti d a i) s d (if sgn 64 x < e then 1 else 0) ∧
   Puts (.sltiu d a i) s d (if (x : Int) < e % 2 ^ 64 then 1 else 0) ∧
   Puts (.lui d i) s d (BitVec.ofInt 64 (e * 2 ^ 16)) ∧
   Puts (.shori d a i) s d (wd (x * 2 ^ 16 + z)) ∧
   Puts (.auipc d i) s d (BitVec.ofInt 64 ((cur s).pc.toNat + e * 2 ^ 16)) ∧
   Puts (.slli d a w n) s d (narrow w (l * 2 ^ k)) ∧
   Puts (.srli d a w n) s d (narrow w (l / 2 ^ k : Nat)) ∧
   Puts (.srai d a w n) s d (narrow w (si w (rx s a) / 2 ^ k)) ∧
   Puts (.rori d a w n) s d (narrow w (l / 2 ^ k + l % 2 ^ k * 2 ^ (wid w - k) : Nat))) ∧
  (∀ (s : State) (d a : XReg) (w : Nat) (o : Fin 64), w ≤ 64 →
   let f := min w (64 - o.val); let x := (rx s a).toNat; let y := (rx s d).toNat; let g := x / 2 ^ o.val % 2 ^ f
   Puts (.extu d a w o) s d (wd g) ∧
   Puts (.exts d a w o) s d (if f = 0 then 0 else BitVec.ofInt 64 (sgn f g)) ∧
   Puts (.ins d a w o) s d (wd (y - y / 2 ^ o.val % 2 ^ f * 2 ^ o.val + x % 2 ^ f * 2 ^ o.val)))

/-! ## Rounding (R260, R276, R277) -/

/-- The magnitude of a pattern without sign: a multiple of the least subnormal below `2^m`, then a significand and an exponent.
The patterns go on past the largest finite one, as rounding with no upper bound needs. -/
def Sys2Proof.Safety.mag (f : Fmt) (k : Nat) : ℚ :=
  if k < 2 ^ f.m then k * 2 ^ f.emin else (2 ^ f.m + k % 2 ^ f.m : Nat) * 2 ^ (f.emin + (k / 2 ^ f.m : Nat) - 1)

/-- `k` is the step of a rising grid that a mode chooses for an exact magnitude, given by how it compares with a number: the
step below or above, the nearer one, at a tie the even one or the one above (R275, R276). -/
def Sys2Proof.Safety.Nearest (g : Nat → ℚ) (rm : Rm) (neg : Bool) (c : ℚ → Ordering) (k : Nat) : Prop :=
  ∃ d, c (g d) ≠ .lt ∧ c (g (d + 1)) = .lt ∧ k = if c (g d) = .eq then d else match rm with
    | .rtz => d
    | .rdn => if neg then d + 1 else d
    | .rup => if neg then d else d + 1
    | .rne => match c ((g d + g (d + 1)) / 2) with | .lt => d | .gt => d + 1 | .eq => d + d % 2
    | .rmm => if c ((g d + g (d + 1)) / 2) = .lt then d else d + 1

/-- Tiny after rounding: below the least normal number when rounded to the format's precision with no lower bound. -/
def Sys2Proof.Safety.Tiny (f : Fmt) (rm : Rm) (neg : Bool) (c : ℚ → Ordering) : Prop :=
  ∃ n k, let g : Fmt := { f with bias := f.bias + n }
    c (mag g (2 ^ f.m)) ≠ .lt ∧ Nearest (mag g) rm neg c k ∧ mag g k < mag f (2 ^ f.m)

/-- A pattern and flags are an exact value rounded once: the nearest pattern; past the largest finite one `big`, OF and NX; NX
where the result is not exact, UF where it is tiny besides. -/
def Sys2Proof.Safety.Rounds (f : Fmt) (rm : Rm) (big : Nat) (neg : Bool) (c : ℚ → Ordering) (r : Nat × Fl) : Prop :=
  ∃ k, Nearest (mag f) rm neg c k ∧ r.2.nv = false ∧ r.2.dz = false ∧
    (f.maxBits < k → r = (big, { of := true, nx := true })) ∧
    (k ≤ f.maxBits → r.1 = f.signed neg k ∧ r.2.of = false ∧ (r.2.nx = true ↔ c (mag f k) ≠ .eq) ∧
      (r.2.uf = true ↔ r.2.nx = true ∧ Tiny f rm neg c))

/-- What an overflow of a sign gives in a format with infinities. -/
def Sys2Proof.Safety.overflowOf (f : Fmt) (rm : Rm) (neg : Bool) : Nat :=
  f.signed neg (if rm = .rtz ∨ (rm = .rdn ∧ neg = false) ∨ (rm = .rup ∧ neg = true) then f.maxBits else f.infBits)

/-- An exact number rounded in a format with infinities; a zero takes the sign `z`. -/
def Sys2Proof.Safety.Exact (f : Fmt) (rm : Rm) (e : ℚ) (z : Bool) (r : Nat × Fl) : Prop :=
  let neg := if e = 0 then z else decide (e < 0)
  Rounds f rm (overflowOf f rm neg) neg (fun p => compare |e| p) r

/-- The number that an exact value is, and that it is one. -/
def Sys2Proof.Safety.ratOf : FVal → ℚ
  | .num n m e => (if n then -1 else 1) * (m * 2 ^ e)
  | _ => 0
def Sys2Proof.Safety.IsNum (v : FVal) : Prop := ∃ n m e, v = .num n m e

/-- The patterns of each format and their values; infinities and the canonical NaN (R260, R276). -/
def Sys2Proof.Safety.PatternsRight : Prop :=
  (∀ f ∈ [Fmt.fp16, .bf16, .f32, .f64, .e8m10, .e4m3, .e5m2, .e3m2, .e2m3, .e2m1, .fp36], ∀ (neg : Bool) (k : Nat), k ≤ f.maxBits →
    ∃ m e, unpack f (f.signed neg k) = .num neg m e ∧ (m : ℚ) * 2 ^ e = mag f k) ∧
  (∀ f ∈ [Fmt.fp16, .bf16, .f32, .f64, .e8m10, .e5m2, .fp36], ∀ neg : Bool,
    unpack f (f.signed neg f.infBits) = .inf neg ∧ unpack f f.nanBits = .nan false) ∧
  (∀ i : Int, IsNum (ofInt i) ∧ ratOf (ofInt i) = i ∧ ((ofInt i).signBit = true ↔ i < 0))

/-- The four operations, the square root and the fused multiply-add of a format (R276, R318). -/
def Sys2Proof.Safety.ArithmeticRight : Prop := ∀ f ∈ [Fmt.fp16, .bf16, .f32, .f64], ∀ (rm : Rm) (x y z : Nat) (n k : Bool),
  let X := unpack f x; let Y := unpack f y; let Z := unpack f z; let u := ratOf X; let v := ratOf Y; let w := ratOf Z
  let a := X.signBit; let b := Y.signBit; let down := decide (rm = .rdn)
  let nan (nv : Bool) : Nat × Fl := (f.nanBits, { nv := nv }); let inf (n : Bool) : Nat × Fl := (f.signed n f.infBits, {})
  let bad : Bool := (decide (X = .inf false ∨ X = .inf true) && Y.isZero) || (decide (Y = .inf false ∨ Y = .inf true) && X.isZero)
  ((X.isNan = true ∨ Y.isNan = true → ∀ op, farith f rm op x y = nan (X.isSnan || Y.isSnan)) ∧
   (IsNum X → IsNum Y →
    Exact f rm (u + v) (if u = 0 ∧ v = 0 ∧ a = b then a else down) (farith f rm .add x y) ∧
    Exact f rm (u - v) (if u = 0 ∧ v = 0 ∧ a ≠ b then a else down) (farith f rm .sub x y) ∧
    Exact f rm (u * v) (a != b) (farith f rm .mul x y) ∧
    (v ≠ 0 → Exact f rm (u / v) (a != b) (farith f rm .div x y)) ∧
    (v = 0 → farith f rm .div x y = if u = 0 then nan true else (f.signed (a != b) f.infBits, { dz := true }))) ∧
   (X = .inf n → IsNum Y →
    farith f rm .add x y = inf n ∧ farith f rm .sub x y = inf n ∧ farith f rm .div x y = inf (n != b) ∧
    farith f rm .mul x y = if v = 0 then nan true else inf (n != b)) ∧
   (IsNum X → Y = .inf k →
    farith f rm .add x y = inf k ∧ farith f rm .sub x y = inf (!k) ∧ farith f rm .div x y = (f.signed (a != k) 0, {}) ∧
    farith f rm .mul x y = if u = 0 then nan true else inf (a != k)) ∧
   (X = .inf n → Y = .inf k →
    farith f rm .add x y = (if n = k then inf n else nan true) ∧ farith f rm .sub x y = (if n = k then nan true else inf n) ∧
    farith f rm .mul x y = inf (n != k) ∧ farith f rm .div x y = nan true)) ∧
  ((X.isNan = true → fsqrtBits f rm x = nan X.isSnan) ∧
   (X = .inf n → fsqrtBits f rm x = if n then nan true else inf false) ∧
   (IsNum X → (u = 0 → fsqrtBits f rm x = (f.signed a 0, {})) ∧ (u < 0 → fsqrtBits f rm x = nan true) ∧
    (0 < u → Rounds f rm (overflowOf f rm false) false (fun p => compare u (p * p)) (fsqrtBits f rm x)))) ∧
  ((X.isNan = true ∨ Y.isNan = true ∨ Z.isNan = true → ffma f rm x y z = nan (X.isSnan || Y.isSnan || Z.isSnan || bad)) ∧
   (bad = true → Z.isNan = false → ffma f rm x y z = nan true) ∧
   (IsNum X → IsNum Y → IsNum Z →
    Exact f rm (w + u * v) (if w = 0 ∧ u * v = 0 ∧ Z.signBit = (a != b) then Z.signBit else down) (ffma f rm x y z)) ∧
   (IsNum X → IsNum Y → Z = .inf n → ffma f rm x y z = inf n) ∧
   (X.isNan = false → Y.isNan = false → Z.isNan = false → ¬IsNum X ∨ ¬IsNum Y → bad = false →
    ffma f rm x y z = if Z = .inf (!(a != b)) then nan true else inf (a != b)))

/-- The conversions: of an exact value to a format with infinities, to E4M3 and E5M2, to an integer held to a range (R276, R277,
R279). -/
def Sys2Proof.Safety.ConversionsRight : Prop := ∀ (rm : Rm) (sat neg : Bool) (m : Nat) (e lo hi : Int),
  let v := FVal.num neg m e; let x : ℚ := m * 2 ^ e
  (∀ f ∈ [Fmt.fp16, .bf16, .f32, .f64, .fp36], Exact f rm (ratOf v) neg (packIeee f rm v) ∧
    packIeee f rm (.inf neg) = (f.signed neg f.infBits, {}) ∧ packIeee f rm (.nan sat) = (f.nanBits, { nv := sat })) ∧
  (∀ f ∈ [Fmt.fp16, .bf16, .f32, .f64], ∀ u, fcvtBits rm sat f u = packIeee f rm u) ∧
  (∀ f ∈ [Fmt.e4m3, .e5m2],
    let big := if sat = true ∨ overflowOf f rm neg = f.signed neg f.maxBits then f.signed neg f.maxBits
      else if f = .e5m2 then f.signed neg f.infBits else f.nanBits
    Rounds f rm big neg (fun p => compare x p) (fcvtBits rm sat f v) ∧ fcvtBits rm sat f (.nan neg) = (f.nanBits, { nv := neg }) ∧
    fcvtBits rm sat f (.inf neg) = if sat then (f.signed neg f.maxBits, { nv := true })
      else if f = .e5m2 then (f.signed neg f.infBits, {}) else (f.nanBits, { nv := true })) ∧
  (lo ≤ 0 → 0 ≤ hi → toInt rm lo hi (.nan neg) = (0, { nv := true }) ∧
    toInt rm lo hi (.inf neg) = (if neg then lo else hi, { nv := true }) ∧
    ∃ k, Nearest (fun j => (j : ℚ)) rm neg (fun p => compare x p) k ∧ let i : Int := if neg then -(k : Int) else k
      toInt rm lo hi v = if i < lo then (lo, { nv := true }) else if hi < i then (hi, { nv := true })
        else (i, { nx := decide ((k : ℚ) ≠ x) }))

/-- A dot product of finite elements is their exact sum rounded once to binary32 (R350). -/
def Sys2Proof.Safety.DotRight : Prop := ∀ (rm : Rm), ∀ f ∈ [Fmt.fp16, .bf16, .e4m3, .e5m2], ∀ ps : List (Nat × Nat),
  let sum := (ps.map fun p => ratOf (unpack f p.1) * ratOf (unpack f p.2)).sum
  (∀ p ∈ ps, IsNum (unpack f p.1) ∧ IsNum (unpack f p.2)) → sum ≠ 0 → Exact .f32 rm sum false (fdot rm f ps)

/-! ## Scalar floating point -/

/-- rd := a pattern with the bits above the format zero, and flags ORed into FCSR (R317, R275). -/
def Sys2Proof.Safety.PutsF (i : Instr) (s : State) (d : XReg) (r : Nat × Fl) : Prop := Does i s fun t => XFResult s t d (wd r.1) r.2

/-- An operand of a format: the low bits of its register (R317). -/
def Sys2Proof.Safety.opnd (f : FFmt) (s : State) (a : XReg) : Nat := (rx s a).toNat % 2 ^ (fmtOf f).width

/-- R317 to R323: each OPF form reads its operands from the low bits of its registers, rounds under FCSR.RM once, writes the
pattern and ORs the flags of the operation into FCSR; nothing else changes. Sign injection and FCLASS raise no flag.

R260, R276, R277, R318: the format arithmetic by which they and the vector forms compute is the exact result rounded once to the
nearest pattern of its mode, ties as the mode says, with OF, UF, NX, NV and DZ where the rules set them, the canonical NaN, and
the infinities and signed zeros of IEEE 754. -/
def Obligations.ScalarFloatForms : Prop := (PatternsRight ∧ ArithmeticRight ∧ ConversionsRight ∧ DotRight) ∧
  ∀ (s : State) (f g : FFmt) (d a b : XReg),
  let t := fmtOf f; let r := rmOf ((cur s).fcsr.toNat / 32 % 8); let x := opnd f s a; let y := opnd f s b; let z := opnd f s d
  let top := 2 ^ (t.width - 1)
  PutsF (.fadd f d a b) s d (farith t r .add x y) ∧
  PutsF (.fsub f d a b) s d (farith t r .sub x y) ∧
  PutsF (.fmul f d a b) s d (farith t r .mul x y) ∧
  PutsF (.fdiv f d a b) s d (farith t r .div x y) ∧
  PutsF (.fsqrt f d a) s d (fsqrtBits t r x) ∧
  PutsF (.fma f d a b) s d (ffma t r x y z) ∧
  PutsF (.fmin f d a b) s d (fminmax t false x y) ∧
  PutsF (.fmax f d a b) s d (fminmax t true x y) ∧
  PutsF (.feq f d a b) s d (b2n (fcompare t .eq x y).1, (fcompare t .eq x y).2) ∧
  PutsF (.flt f d a b) s d (b2n (fcompare t .lt x y).1, (fcompare t .lt x y).2) ∧
  PutsF (.fle f d a b) s d (b2n (fcompare t .le x y).1, (fcompare t .le x y).2) ∧
  PutsF (.fclass f d a) s d (2 ^ fclassBit t x, {}) ∧
  PutsF (.fsgnj f d a b) s d (x % top + y / top % 2 * top, {}) ∧
  PutsF (.fsgnjn f d a b) s d (x % top + (1 - y / top % 2) * top, {}) ∧
  PutsF (.ftoi f d a) s d (((toInt r (-2 ^ 63) (2 ^ 63 - 1) (unpack t x)).1 % 2 ^ 64).toNat,
    (toInt r (-2 ^ 63) (2 ^ 63 - 1) (unpack t x)).2) ∧
  PutsF (.ftou f d a) s d (((toInt r 0 (2 ^ 64 - 1) (unpack t x)).1 % 2 ^ 64).toNat, (toInt r 0 (2 ^ 64 - 1) (unpack t x)).2) ∧
  PutsF (.itof f d a) s d (packIeee t r (ofInt (sgn 64 (rx s a).toNat))) ∧
  PutsF (.utof f d a) s d (packIeee t r (ofInt (rx s a).toNat)) ∧
  PutsF (.fcvt f g d a) s d (fcvtBits r ((cur s).fcsr.getLsbD 8) t (unpack (fmtOf g) (opnd g s a)))

/-! ## Vector instructions -/

/-- vd := the register whose elements of `b` bytes are `f 0`, `f 1` …, with the flags of the active ones (R343, R344). -/
def Sys2Proof.Safety.PutsV (i : Instr) (s : State) (d : VReg) (p : Pred) (b : Nat) (f : Nat → Nat × Fl) : Prop :=
  Does i s fun t => ∃ v fl, VFResult s t d v fl ∧
    (∀ e < 16 / b, elemOf b v e = if activeE (cur s) p b e then (f e).1 % 2 ^ (8 * b) else elemOf b (rv s d) e) ∧
    fl = ((List.range (16 / b)).filter (activeE (cur s) p b)).foldl (fun k e => k.join (f e).2) {}

/-- R345: each VOP form computes the active elements from the elements of its operands at the same place and keeps the
others; the flags are those of the active elements together; nothing else changes. The arithmetic of a float element is that
of the scalar forms, whose rounding ScalarFloatForms states. -/
def Obligations.VectorArithmetic : Prop := ∀ (s : State) (t : ETy) (d a b : VReg) (p : Pred),
  let n := etBytes t; let u := etFmt t; let r := rmOf ((cur s).fcsr.toNat / 32 % 8)
  let x := elemOf n (rv s a); let y := elemOf n (rv s b); let z := elemOf n (rv s d)
  let i (k : Nat) : Int := elemInt t k
  let int (j : Int) : Nat × Fl := ((j % 2 ^ (8 * n)).toNat, {})
  let clip (j : Int) : Int := max (elemRange t).1 (min (elemRange t).2 j)
  PutsV (.vadd t d a b p) s d p n (fun e => if t.isInt then int (i (x e) + i (y e)) else farith u r .add (x e) (y e)) ∧
  PutsV (.vsub t d a b p) s d p n (fun e => if t.isInt then int (i (x e) - i (y e)) else farith u r .sub (x e) (y e)) ∧
  PutsV (.vmul t d a b p) s d p n (fun e => if t.isInt then int (i (x e) * i (y e)) else farith u r .mul (x e) (y e)) ∧
  PutsV (.vfma t d a b p) s d p n (fun e => if t.isInt then int (z e + x e * y e) else ffma u r (x e) (y e) (z e)) ∧
  PutsV (.vmin t d a b p) s d p n (fun e => if t.isInt then int (min (i (x e)) (i (y e))) else fminmax u false (x e) (y e)) ∧
  PutsV (.vmax t d a b p) s d p n (fun e => if t.isInt then int (max (i (x e)) (i (y e))) else fminmax u true (x e) (y e)) ∧
  PutsV (.vadds t d a b p) s d p n (fun e => int (clip (i (x e) + i (y e)))) ∧
  PutsV (.vsubs t d a b p) s d p n (fun e => int (clip (i (x e) - i (y e)))) ∧
  PutsV (.vand t d a b p) s d p n (fun e => (x e &&& y e, {})) ∧
  PutsV (.vor t d a b p) s d p n (fun e => (x e ||| y e, {})) ∧
  PutsV (.vxor t d a b p) s d p n (fun e => (x e ^^^ y e, {})) ∧
  PutsV (.vsll t d a b p) s d p n (fun e => (x e * 2 ^ (y e % (8 * n)), {})) ∧
  PutsV (.vsrl t d a b p) s d p n (fun e => (x e / 2 ^ (y e % (8 * n)), {})) ∧
  PutsV (.vsra t d a b p) s d p n (fun e => int (sgn (8 * n) (x e) / 2 ^ (y e % (8 * n)))) ∧
  PutsV (.vdiv t d a b p) s d p n (fun e => farith u r .div (x e) (y e)) ∧
  PutsV (.vsqrt t d a p) s d p n (fun e => fsqrtBits u r (x e)) ∧
  PutsV (.vmov d a p) s d p 1 (fun e => (elemOf 1 (rv s a) e, {})) ∧
  PutsV (.vperm t d a b p) s d p n (fun e => (x (y e % (16 / n)), {})) ∧
  (t = .ui32 ∨ t = .i32 ∨ t = .ui64 ∨ t = .i64 → PutsV (.vhash t d a b p) s d p n (fun e =>
    ((if n = 8 then (hash64 (wd (x e)) (wd (y e))).toNat else (hash32 (BitVec.ofNat 32 (x e)) (BitVec.ofNat 32 (y e))).toNat), {})))

/-- A mask register := `f`, bit by bit. -/
def Sys2Proof.Safety.PutsM (i : Instr) (s : State) (d : MReg) (f : Nat → Bool) (fl : Fl) : Prop :=
  Does i s fun t => ∃ v, MFResult s t d v fl ∧ ∀ k < 16, v.getLsbD k = f k

/-- R346 and R347: a compare writes every lane bit of each active element and keeps the others; the mask forms act on all 16
bits; MFROMX, MTOX and MPOPC move between mask and x registers. -/
def Obligations.CompareAndMaskForms : Prop := ∀ (s : State) (t : ETy) (d : MReg) (p : Pred) (a b : VReg) (m n : MReg) (x y : XReg),
  let k := etBytes t
  let u := elemOf k (rv s a); let v := elemOf k (rv s b)
  let cmp (c : FCmp) (q : Int → Int → Bool) (e : Nat) : Bool × Fl :=
    if t.isInt then (q (elemInt t (u e)) (elemInt t (v e)), {}) else fcompare (etFmt t) c (u e) (v e)
  let bits (c : FCmp) (q : Int → Int → Bool) (i : Nat) : Bool :=
    if activeE (cur s) p k (i / k) then (cmp c q (i / k)).1 else (rm s d).getLsbD i
  let fl (c : FCmp) (q : Int → Int → Bool) : Fl :=
    ((List.range (16 / k)).filter (activeE (cur s) p k)).foldl (fun j e => j.join (cmp c q e).2) {}
  let eq (i j : Int) : Bool := decide (i = j); let ne (i j : Int) : Bool := decide (i ≠ j)
  let lt (i j : Int) : Bool := decide (i < j); let le (i j : Int) : Bool := decide (i ≤ j)
  PutsM (.vcmpeq t d a b p) s d (bits .eq eq) (fl .eq eq) ∧
  PutsM (.vcmpne t d a b p) s d (bits .ne ne) (fl .ne ne) ∧
  PutsM (.vcmplt t d a b p) s d (bits .lt lt) (fl .lt lt) ∧
  PutsM (.vcmple t d a b p) s d (bits .le le) (fl .le le) ∧
  PutsM (.mand d m n) s d (fun i => (rm s m).getLsbD i && (rm s n).getLsbD i) {} ∧
  PutsM (.mor d m n) s d (fun i => (rm s m).getLsbD i || (rm s n).getLsbD i) {} ∧
  PutsM (.mxor d m n) s d (fun i => (rm s m).getLsbD i != (rm s n).getLsbD i) {} ∧
  PutsM (.mnot d m) s d (fun i => !(rm s m).getLsbD i) {} ∧
  PutsM (.mfromx d y) s d (fun i => (rx s y).getLsbD i) {} ∧
  Puts (.mtox x m) s x (wd (rm s m).toNat) ∧
  Puts (.mpopc x m) s x (wd ((List.range 16).map fun i => (rm s m).toNat / 2 ^ i % 2).sum)

/-- The whole of vd := the elements given, with flags. -/
def Sys2Proof.Safety.PutsW (i : Instr) (s : State) (d : VReg) (b : Nat) (f : Nat → Nat) (fl : Fl) : Prop :=
  Does i s fun t => ∃ v, VFResult s t d v fl ∧ ∀ e < 16 / b, elemOf b v e = f e % 2 ^ (8 * b)

/-- R348 to R355: selection, conversion, the dot product, compression, splat, element moves and reductions. A conversion
fills the low elements that both types have and zeroes the rest; VNZC packs the non-zero elements and sets the mask bits of
their bytes. -/
def Obligations.VectorMoveForms : Prop := ∀ (s : State) (t q : ETy) (d a b : VReg) (p : Pred) (m : MReg) (xd x y : XReg),
  let n := etBytes t; let k := etBytes q; let r := rmOf ((cur s).fcsr.toNat / 32 % 8); let sat := (cur s).fcsr.getLsbD 8
  let u := elemOf n (rv s a)
  let nz := ((List.range (16 / n)).map u).filter fun w => !elemZero t w
  let act := (List.range (16 / n)).filter (activeE (cur s) p n)
  PutsW (.vsel t d a b m) s d n (fun e => if (rm s m).getLsbD (n * e) then u e else elemOf n (rv s b) e) {} ∧
  PutsW (.vcvt t q d a p) s d n (fun e => if 16 / max n k ≤ e then 0
    else if activeE (cur s) p n e then (vconv r sat t q (elemOf k (rv s a) e)).1 else elemOf n (rv s d) e)
    (((List.range (16 / max n k)).filter (activeE (cur s) p n)).foldl
      (fun j e => j.join (vconv r sat t q (elemOf k (rv s a) e)).2) {}) ∧
  PutsV (.vdot t q d a p) s d p n (fun e => vdotElem r t q (rv s a) (rv s (a + 1)) e) ∧
  Does (.vnzc t d a m) s (fun w => Done s w (nextPc s) ∧ XSame s w ∧ FlagsSame s w ∧ VBut s w d (vOf n nz) ∧
    MBut s w m (BitVec.ofNat 16 (2 ^ (nz.length * n) - 1))) ∧
  PutsV (.vsplat t d x p) s d p n (fun _ => ((rx s x).toNat, {})) ∧
  Puts (.vext t xd a y) s xd (elemX t (u ((rx s y).toNat % (16 / n)))) ∧
  PutsW (.vins t d x y) s d n (fun e => if e = (rx s y).toNat % (16 / n) then (rx s x).toNat else elemOf n (rv s d) e) {} ∧
  (t.isInt = true → act ≠ [] →
    Puts (.vredsum t xd a p) s xd (BitVec.ofInt 64 ((act.map fun e => elemInt t (u e)).sum)) ∧
    (∃ e ∈ act, Puts (.vredmax t xd a p) s xd (BitVec.ofInt 64 (elemInt t (u e))) ∧ ∀ j ∈ act, elemInt t (u j) ≤ elemInt t (u e)) ∧
    (∃ e ∈ act, Puts (.vredmin t xd a p) s xd (BitVec.ofInt 64 (elemInt t (u e))) ∧ ∀ j ∈ act, elemInt t (u e) ≤ elemInt t (u j))) ∧
  (t.isInt = true → act = [] →
    Puts (.vredsum t xd a p) s xd 0 ∧ Puts (.vredmax t xd a p) s xd 0 ∧ Puts (.vredmin t xd a p) s xd 0) ∧
  (t.isInt = false →
    let es := (List.range (16 / n)).map fun e => if activeE (cur s) p n e then some (u e) else none
    let by' (f : Nat → Nat → Nat × Fl) : Nat × Fl := ((tree f 4 es).1.getD 0, (tree f 4 es).2)
    PutsF (.vredsum t xd a p) s xd (by' (farith (etFmt t) r .add)) ∧
    PutsF (.vredmax t xd a p) s xd (by' (fminmax (etFmt t) true)) ∧
    PutsF (.vredmin t xd a p) s xd (by' (fminmax (etFmt t) false)))

/-! ## Control transfer -/

/-- An instruction whose effect is the pc alone. -/
def Sys2Proof.Safety.Jumps (i : Instr) (s : State) (pc : Int) : Prop := Does i s fun t => PcResult s t (BitVec.ofInt 64 pc)

/-- R325 to R326: each branch goes to pc + 4 × imm16 when its condition holds and to pc + 4 when it does not; JAL and JALR
write pc + 4 to rd, JALR reading rs1 first and trapping with MISALIGN on a target that is no multiple of 4. -/
def Obligations.ControlTransfer : Prop := ∀ (s : State) (d a b : XReg) (m : MReg) (i : BitVec 16) (j : BitVec 21),
  let pc := (cur s).pc.toNat; let x := (rx s a).toNat; let y := (rx s b).toNat; let k := (rm s m).toNat
  let tgo (c : Bool) : Int := if c then (pc : Int) + 4 * sgn 16 i.toNat else pc + 4
  let links (t : State) (target : Word) : Prop := Done s t target ∧ XBut s t d (nextPc s) ∧ VSame s t ∧ MSame s t ∧ FlagsSame s t
  let tgt := BitVec.ofInt 64 (x + sgn 16 i.toNat)
  Jumps (.beq a b i) s (tgo (x = y)) ∧ Jumps (.bne a b i) s (tgo (x ≠ y)) ∧
  Jumps (.blt a b i) s (tgo (sgn 64 x < sgn 64 y)) ∧ Jumps (.bge a b i) s (tgo (sgn 64 y ≤ sgn 64 x)) ∧
  Jumps (.bltu a b i) s (tgo (x < y)) ∧ Jumps (.bgeu a b i) s (tgo (y ≤ x)) ∧
  Jumps (.bmany m i) s (tgo (k ≠ 0)) ∧ Jumps (.bmnone m i) s (tgo (k = 0)) ∧ Jumps (.bmall m i) s (tgo (k = 0xFFFF)) ∧
  Does (.jal d j) s (fun t => links t (BitVec.ofInt 64 (pc + 4 * sgn 21 j.toNat))) ∧
  (tgt.toNat % 4 = 0 → Does (.jalr d a i) s fun t => links t tgt) ∧
  (tgt.toNat % 4 ≠ 0 → CanTrap s → Does (.jalr d a i) s fun t => Trapped s t 0x03 tgt.toNat)

/-! ## Loads and stores -/

/-- The effective address of an I or S form (R329). -/
def Sys2Proof.Safety.ea (s : State) (a : XReg) (i : BitVec 16) : Nat := (((rx s a).toNat + sgn 16 i.toNat) % 2 ^ 64).toNat

/-- `n` bytes at a comb-window address are free to be loaded: the address names comb of a real cluster (0xFF its own),
nothing of it is spill area, an OPEN cell or in error, and no store stands in the buffer (R202, R203, R331, R40). -/
def Sys2Proof.Safety.CombReadable (s : State) (va n cl o : Nat) : Prop :=
  va / 2 ^ 44 = 0xF ∧ combAddr (ownCl (cur s)) va = .ok (cl, o) ∧ o + n ≤ spillBase s cl ∧ (cur s).sb = [] ∧
  ∀ w ∈ wordsOf o n, w ∉ (clOf s cl).poison ∧ w ∉ (clOf s cl).latent ∧ w ∉ (clOf s cl).soft ∧
    ∀ i c, boundTo s cl (8 * w) = some (i, c) → c.st ≠ .opn

/-- A load whose parts translate and pass their checks is served at once when the store buffer, a bank or a usable L1 copy
has every byte; an acquiring one, when no earlier load of its context is outstanding either. Otherwise its request, with the
bytes at hand, leaves for the homes: an acquiring load waits for it, any other leaves it outstanding and the next instruction
follows (R142, R233). -/
def Sys2Proof.Safety.LoadsAt (i : Instr) (s : State) (va n : Nat) (dst : LdDst) (acq : Option Scope) (force : Bool) : Prop :=
  ∀ px, partsOf s s.cx va n .read = .ok px →
  let ps := px.map Prod.fst
  let u := fillParts s s.cx va px
  let bank := bankParts u s.cx ps
  let t := detectParts u bank
  let got := ps.map fun p => partNow t s.cx p force
  let r := loadReq t ps got dst va force
  let bytes := (got.map fun g => (g.getD ([], 0)).1).flatten
  let wts := got.foldl (fun m g => max m (g.getD ([], 0)).2) 0
  combLoadsOk s va ps = .ok () → sbWaits u s.cx ps = false → bankSound t bank = .ok () →
  (r.missing = [] → acq = none ∨ (cur t).loads = [] →
    exec i s = .next (loadDone t s.cx dst bytes wts acq (ps.all Part.isComb))) ∧
  (r.missing ≠ [] ∨ (acq ≠ none ∧ (cur t).loads ≠ []) → Does i s fun w =>
    (match acq with
     | none => (cur w).wait = .none ∧ (cur w).pc = nextPc t ∧ (cur w).loads = (cur t).loads ++ [r]
     | some _ => (cur w).wait = .load r acq ∧ (cur w).pc = (cur t).pc ∧ (cur w).loads = (cur t).loads) ∧
    XSame t w ∧ VSame t w ∧ MSame t w ∧ SameMem t w ∧ w.agenda = t.agenda ++ [.loadReturn s.cx]) ∧
  t.ctxs = s.ctxs

/-- R330, R331 and R332: every load from comb writes rd with the little-endian bytes at the address, sign- or
zero-extended, at any alignment; LDA must be aligned and moves no clock there (R241). Nothing else changes.

R228, R233, R330 to R332: every load form at every address its parts translate to. LDA and LDA.F must be aligned.
That an access is translated whole before any effect is a reading of the model (log 16). -/
def Obligations.Loads : Prop :=
  (∀ (s : State) (d a : XReg) (v : VReg) (i : BitVec 16) (sc : Scope) (w : Bool) (cl o : Nat),
   let val (n : Nat) := leNat (combBytes s cl o n)
   let e := ea s a i; let f := (rx s a).toNat; let n := if w then 8 else 4
   (CombReadable s e 1 cl o → Puts (.lb d a i) s d (BitVec.ofInt 64 (sgn 8 (val 1))) ∧ Puts (.lbu d a i) s d (wd (val 1))) ∧
   (CombReadable s e 2 cl o → Puts (.lh d a i) s d (BitVec.ofInt 64 (sgn 16 (val 2))) ∧ Puts (.lhu d a i) s d (wd (val 2))) ∧
   (CombReadable s e 4 cl o → Puts (.lw d a i) s d (BitVec.ofInt 64 (sgn 32 (val 4))) ∧ Puts (.lwu d a i) s d (wd (val 4))) ∧
   (CombReadable s e 8 cl o → Puts (.ld d a i) s d (wd (val 8))) ∧
   (CombReadable s e 16 cl o → Does (.vld v a i) s fun t => VFResult s t v (BitVec.ofNat 128 (val 16)) {}) ∧
   (CombReadable s f n cl o → f % n = 0 → (cur s).loads = [] →
     Puts (.lda d a sc w) s d (BitVec.ofInt 64 (sgn (8 * n) (val n))) ∧
     Puts (.ldaF d a sc w) s d (BitVec.ofInt 64 (sgn (8 * n) (val n))))) ∧
  (∀ (s : State) (d a : XReg) (v : VReg) (i : BitVec 16) (sc : Scope) (w : Bool),
   let e := ea s a i; let f := (rx s a).toNat; let n := if w then 8 else 4
   LoadsAt (.lb d a i) s e 1 (.x d.val 1 true) none false ∧ LoadsAt (.lbu d a i) s e 1 (.x d.val 1 false) none false ∧
   LoadsAt (.lh d a i) s e 2 (.x d.val 2 true) none false ∧ LoadsAt (.lhu d a i) s e 2 (.x d.val 2 false) none false ∧
   LoadsAt (.lw d a i) s e 4 (.x d.val 4 true) none false ∧ LoadsAt (.lwu d a i) s e 4 (.x d.val 4 false) none false ∧
   LoadsAt (.ld d a i) s e 8 (.x d.val 8 false) none false ∧ LoadsAt (.vld v a i) s e 16 (.v v.val) none false ∧
   (f % n = 0 → LoadsAt (.lda d a sc w) s f n (.x d.val n (!w)) (some sc) false ∧
     LoadsAt (.ldaF d a sc w) s f n (.x d.val n (!w)) (some sc) true) ∧
   (f % n ≠ 0 → CanTrap s → ∀ j ∈ [Instr.lda d a sc w, .ldaF d a sc w], Does j s fun t => Trapped s t 0x03 f))

/-- A store takes the entry at the tail of the buffer: its bytes, its parts, a clock, the cells it counts against (R244);
the next instruction follows and no byte of memory, no register and no flag changes. -/
def Sys2Proof.Safety.Enters (i : Instr) (s : State) (e : SbEntry) (pts : Nat) (mem : State) (pc : Word) (wait : Wait) (n : Nat) : Prop :=
  Does i s fun t => (cur t).sb = (cur s).sb ++ [{ e with counted := cellsHit s e.parts }] ∧ (cur t).pts = pts ∧ (cur t).pc = pc ∧ (cur t).wait = wait ∧
    XSame s t ∧ VSame s t ∧ MSame s t ∧ FlagsSame s t ∧ SameMem mem t ∧
    t.agenda = mem.agenda ++ (if (cur s).sb = [] then [if n = 0 then .storePerform s.cx else .amoExecute s.cx] else [])

/-- No walk is needed for the parts of an access: comb, or a page that a TLB holds. -/
def Sys2Proof.Safety.NoWalk (s : State) (va : Nat) (px : List (Part × Option Xl)) : Prop :=
  (∀ p ∈ px, p.2 = none) ∨ ∃ p x, px = [(p, some x)] ∧ (tlbHit (tlbsOf s s.cx) (cur s).asid (va + p.at_)).isSome

/-- The context in hand changes as `f` says, and nothing else does. -/
def Sys2Proof.Safety.Sets (i : Instr) (s : State) (f : Ctx → Ctx) : Prop := exec i s = .next (modCur s f)

/-- R228, R234, R235, R330, R331: every store whose parts translate and pass their checks enters the store buffer with PTS
as it stands, if the buffer has room; it performs by an event of its own, and memory is as translation leaves it: untouched
unless a walk brings lines into the L2. STL must be aligned, releases at its scope first
(R241) and leaves the buffer after every earlier entry.

R239, R240, R242, R333: a fence whose release has nothing to wait for moves PTS to MTS (its release), to MRTS (its
acquire) or to both, at every scope but CLU, and goes on; one whose covered writes have not performed does not go on; a
SYS release that finds writes lost ends in PEER_LOST. R68, R333: a SYS release whose remote writes are not all acknowledged
does not go on either: it parks if a port of theirs is in RETRAIN, and is held otherwise.
An access is translated whole before any effect (log 16). -/
def Obligations.StoresAndFences : Prop :=
  (∀ (s : State) (a b : XReg) (v : VReg) (i : BitVec 16) (sc : Scope) (w : Bool) (va : Nat)
     (px : List (Part × Option Xl)),
   let put (j : Instr) (bs : List Byte) : Prop := partsOf s s.cx va bs.length .write = .ok px →
     combStoresOk s va (px.map Prod.fst) = .ok () → (cur s).sb.length < 8 →
     Enters j s { kind := .store, parts := px.map Prod.fst, bytes := bs, pts := (cur s).pts, ord := false, va := va } (cur s).pts
       (fillParts s s.cx va px) (nextPc s) .none 0
   let n := if w then 8 else 4; let bs := leBytes n (rx s b).toNat
   let pts := if sc = .clu ∨ (px.map Prod.fst).any Part.isComb then (cur s).pts else max (cur s).pts (cur s).mts
   (va = ea s a i → put (.sb b a i) (leBytes 1 (rx s b).toNat) ∧ put (.sh b a i) (leBytes 2 (rx s b).toNat) ∧
     put (.sw b a i) (leBytes 4 (rx s b).toNat) ∧ put (.sd b a i) (leBytes 8 (rx s b).toNat) ∧
     put (.vst v a i) (leBytes 16 (rv s v).toNat)) ∧
   (va = (rx s a).toNat → va % n = 0 → partsOf s s.cx va n .write = .ok px → combStoresOk s va (px.map Prod.fst) = .ok () →
     (cur s).sb.length < 8 → releaseStep s sc = .done →
     Enters (.stl a b sc w) s { kind := .store, parts := px.map Prod.fst, bytes := bs, pts := pts, ord := true, va := va } pts
       (fillParts s s.cx va px) (nextPc s) .none 0) ∧
   (NoWalk s va px → SameMem s (fillParts s s.cx va px) ∧ (fillParts s s.cx va px).agenda = s.agenda) ∧
   (va = (rx s a).toNat → va % n ≠ 0 → CanTrap s → Does (.stl a b sc w) s fun t => Trapped s t 0x03 va)) ∧
  (∀ (s : State) (sc : Scope),
   let up (b : Bool) (x y : Nat) : Nat := if b && sc != .clu then max x y else x
   let fence (rel acq : Bool) (c : Ctx) : Ctx := { c.goto (c.pc + 4) with pts := up acq (up rel c.pts c.mts) c.mrts }
   (releaseStep s sc = .done → Sets (.fence sc) s (fence true true) ∧ Sets (.fenceRel sc) s (fence true false)) ∧
   Sets (.fenceAcq sc) s (fence false true) ∧
   (sbCovered (cur s) sc ≠ [] → ∀ i ∈ [Instr.fence sc, .fenceRel sc],
     Sets i s fun c => { c with waitSince := some (c.waitSince.getD (cycOf s s.cx)) }) ∧
   (sc = .sys → (cur s).sb = [] → (cur s).lost = [] → (cur s).unacked ≠ 0 →
     let retrains := ∃ t ∈ s.tags, t.2.issuer = nameOf (cur s) ∧ (portOf s t.2.port).st = .retrain
     ∀ i ∈ [Instr.fence sc, .fenceRel sc],
       (retrains → exec i s = .next (park s .fenceSys)) ∧ (¬retrains → exec i s = .next (hold s))) ∧
   (sc = .sys → (cur s).sb = [] → (cur s).lost ≠ [] → CanTrap s → ∀ i ∈ [Instr.fence sc, .fenceRel sc],
     Does i s fun t => (cur t).tcause1.toNat % 256 = 0x15 ∧ (cur t).tepc1 = (cur s).pc ∧ (cur t).pc = (cur s).tvec ∧
       (cur t).tval1 = wd (lostTval (cur s).lost) ∧ (cur t).lost = [] ∧ XSame s t ∧ VSame s t ∧ MSame s t ∧ SameMem s t))

/-- R334, R335: with its word in the state it waits for, LDFE takes the word and leaves it EMPTY, LDFF reads it, STEF writes
it and leaves it FULL, STFF writes a FULL word; with its word in the other state each parks at the bank. The word named has
no other request, deferred signal or error, and no AMO waits for a place at its bank. -/
def Obligations.FullEmpty : Prop := ∀ (s : State) (d a b : XReg) (cl o : Nat),
  let f := (rx s a).toNat; let k := clOf s cl; let w := o / 8; let x := rx s b
  (∀ op ∈ [FeOp.ldfe, .ldff, .stef, .stff], feCheck s f op = .ok (cl, o)) → (cur s).sb = [] →
  w ∉ k.poison → w ∉ k.latent → w ∉ k.soft → (∀ q ∈ k.fe, q.word ≠ w) →
  (∀ g ∈ k.defer, g.off / 8 ≠ w ∧ (bankOf g.off = bankOf (8 * w) → g.entered = true)) →
  let same (t : State) : Prop := VSame s t ∧ MSame s t ∧ FlagsSame s t ∧ (∀ c, c ≠ cl → clOf t c = clOf s c)
  let goesOn (t : State) : Prop := (cur t).pc = nextPc s ∧ (cur t).wait = .none
  let parks (i : Instr) (op : FeOp) (rd : Nat) (dat : Word) : Prop := Does i s fun t => (cur t).wait = .fe f ∧
    (cur t).pc = (cur s).pc ∧ same t ∧ XSame s t ∧ SameMem s t ∧ clOf t cl = { k with fe := k.fe ++ [⟨w, op, s.cx, rd, dat⟩] }
  let stores (t : State) : Prop := SameMemBut s t (combKey cl o) 8 ∧ combNat t cl o 8 = x.toNat ∧ XSame s t
  (w ∉ k.empty →
    Does (.ldfe d a) s (fun t => goesOn t ∧ same t ∧ SameMem s t ∧ XBut s t d (wd (combNat s cl o 8)) ∧
      (clOf t cl).empty = nins k.empty w) ∧
    Does (.ldff d a) s (fun t => goesOn t ∧ same t ∧ SameMem s t ∧ XBut s t d (wd (combNat s cl o 8)) ∧
      (clOf t cl).empty = k.empty) ∧
    Does (.stff a b) s (fun t => goesOn t ∧ same t ∧ stores t ∧ (clOf t cl).empty = k.empty) ∧
    parks (.stef a b) .stef 0 x) ∧
  (w ∈ k.empty →
    Does (.stef a b) s (fun t => goesOn t ∧ same t ∧ stores t ∧ (clOf t cl).empty = nrem k.empty w) ∧
    parks (.ldfe d a) .ldfe d.val 0 ∧ parks (.ldff d a) .ldff d.val 0 ∧ parks (.stff a b) .stff 0 x)

/-- R206, R336 to R338: an AMO must be aligned; one whose address translates and passes its checks enters the store buffer
with its operation, operand and expected value, and the context waits for the old value; outside comb one with destination
x0 does not wait. It performs by an event of its own.
That a comb atomic always waits, and its TVAL, are readings of the model (log 24, log 25). -/
def Obligations.AtomicsEnter : Prop := ∀ (s : State) (d a b : XReg) (w : Bool) (p : Part) (x : Option Xl),
  let va := (rx s a).toNat; let n := if w then 8 else 4
  let one (i : Instr) (op : AmoOp) : Prop :=
    (partsOf s s.cx va n .amo = .ok [(p, x)] → hostAmoOk s op va p = .ok () → combAmoOk s va p = .ok () →
      (cur s).sb.length < 8 → va % n = 0 →
      let t := detectParts (fillParts s s.cx va [(p, x)]) [p]
      Enters i s { kind := .amo op n (rx s b) (rx s d) d.val, parts := [p], bytes := [], pts := (cur s).pts, ord := true,
                   va := va } (cur s).pts t
        (if d = 0 ∧ !p.isComb then nextPc s else (cur s).pc)
        (if d = 0 ∧ !p.isComb then .none else .amo d.val n va) 1) ∧
    (va % n ≠ 0 → CanTrap s → Does i s fun t => Trapped s t 0x03 va)
  one (.amoadd d a b w) .add ∧ one (.amoand d a b w) .and ∧ one (.amoor d a b w) .or ∧ one (.amoxor d a b w) .xor ∧
  one (.amoswap d a b w) .swap ∧ one (.amomin d a b w) .min ∧ one (.amomax d a b w) .max ∧ one (.amominu d a b w) .minu ∧
  one (.amomaxu d a b w) .maxu ∧ one (.amocas d a b w) .cas

/-- A packet of this device (R51). -/
def Sys2Proof.Safety.pkt (s : State) (kind cls dev tag : Nat) (addr : Word) (data : List Byte) : Packet :=
  { kind := kind, cls := cls, hops := 0, dest := dev, source := s.devid, tag := tag, addr := addr, data := data, resv := false,
    ce := none }

/-- A packet leaves: at the tail of its port's queue, or into the device as inbound traffic (R51, R339). -/
def Sys2Proof.Safety.SendsPkt (s t : State) (w : Way) (p : Packet) : Prop :=
  match w with
  | .here => t.agenda = s.agenda ++ [arrival 0xFF p] ∧ t.ports = s.ports
  | .port q => t.agenda = s.agenda ∧ portOf t q = { portOf s q with txq := (portOf s q).txq ++ [p] } ∧
      ∀ r, r ≠ q → portOf t r = portOf s r

/-- R68, R339, R340: a remote AMO sends its operand under a tag of its own and waits for the reply, RSD and RSQ send and go
on counting one write more, unless the queues of the port are full (R56); no register, flag or byte of memory changes. R4: a
peer's comb address in a cluster of row 6 or 7 traps with BAD_TARGET.
The lowest free tag is a choice of the model (log 28). -/
def Obligations.RemoteAccesses : Prop := ∀ (s : State) (d a b : XReg) (v : VReg) (w : Bool) (dev pa : Nat) (way : Way),
  let f := (rx s a).toNat; let n := if w then 8 else 4; let tag := freeTag s; let c := cur s
  let port := match way with | .here => 0xFF | .port q => q
  let sends (t : State) (kind : Nat) (data : List Byte) (k : TagKind) : Prop :=
    SendsPkt s t way (pkt s kind c.cls dev tag (wd pa) data) ∧
    t.tags = fset s.tags tag { kind := k, issuer := nameOf c, dest := dev, port := port, cls := c.cls, addr := wd pa, seq := s.seq } ∧
    XSame s t ∧ VSame s t ∧ MSame s t ∧ FlagsSame s t ∧ SameMem s t
  (remoteCheck s f n = .ok (dev, pa, way) → (cur s).sb = [] → way.full s = false →
    let bs := leBytes 8 ((rx s b).toNat % 2 ^ (8 * n)) ++ leBytes 8 n
    Does (.ramoadd d a b w) s (fun t => sends t 3 bs (.amo d.val n) ∧ (cur t).wait = .remoteAmo tag d.val n ∧ (cur t).pc = c.pc) ∧
    Does (.ramoswap d a b w) s (fun t => sends t 4 bs (.amo d.val n) ∧ (cur t).wait = .remoteAmo tag d.val n ∧ (cur t).pc = c.pc)) ∧
  (remoteCheck s f 8 = .ok (dev, pa, way) → c.unacked < 32 → way.full s = false → Does (.rsd a b) s fun t =>
    sends t 4 (leBytes 8 (rx s b).toNat ++ leBytes 8 8) .rsd ∧ (cur t).unacked = c.unacked + 1 ∧ (cur t).pc = nextPc s ∧
      (cur t).wait = .none) ∧
  (remoteCheck s f 16 = .ok (dev, pa, way) → c.unacked < 32 → way.full s = false → Does (.rsq a v) s fun t =>
    sends t 1 (leBytes 16 (rv s v).toNat) .write ∧ (cur t).unacked = c.unacked + 1 ∧ (cur t).pc = nextPc s ∧
      (cur t).wait = .none) ∧
  (f < 2 ^ 60 → f % 16 = 0 → f / 2 ^ 44 % 16 = 15 → f / 2 ^ 36 % 256 ≠ 0xFF → 6 ≤ f / 2 ^ 39 % 8 → CanTrap s →
    ∀ i ∈ [Instr.ramoadd d a b w, .ramoswap d a b w, .rsd a b, .rsq a v], Does i s fun t => Trapped s t 0x16 f)

/-! ## Cells, circular buffers and barrier slots -/

/-- R7, R209, R210, R296, R357: COPEN with rs2 = x0 opens the lowest FREE cell of the own cluster with the geometry of rs1;
with a handle it reopens a SEALED cell that has no reference, under the next CGEN, with its own geometry (rs1 = x0) or the
one given, and parks while references stand. rd receives the handle; nothing else changes. That a FREE cell loses its TIMEOUT
and pause bits as well is a reading of the model (log 26). -/
def Obligations.CellOpen : Prop := ∀ (s : State) (d a b : XReg) (cl i : Nat),
  let x := (rx s a).toNat; let h := (rx s b).toNat; let c := cellOf s cl i; let g := geomOf x; let me := nameOf (cur s)
  let shape (k : Cell) : Cell := { k with base := g.base, gran := g.gran, rows := g.rows, pitch := g.pitch, fmt := g.fmt }
  (b = 0 → x < 2 ^ 42 → cl = ownCl (cur s) → geomOk s cl g none 0 = .ok () → i < 1024 → c.st = .free →
    (∀ j < i, (cellOf s cl j).st ≠ .free) →
    exec (.copen d a b) s = .next (wbX (modCell s cl i fun k => { shape k with
      st := .opn, owner := me, valid := 0, refcnt := 0, dlv := false, dlp := false, zero := false, tout := false }) d (wd (handleOf cl i c.cgen)))) ∧
  (b ≠ 0 → handleReg (rx s b) = .ok (cl, i) → c.cgen = handleGen h → c.st = .sealed →
    (a ≠ 0 → x < 2 ^ 42 ∧ geomOk s cl g (some i) h = .ok ()) →
    (c.refcnt = 0 → exec (.copen d a b) s = .next (wbX (modCell s cl i fun k => { (if a = 0 then k else shape k) with
      st := .opn, cgen := (k.cgen + 1) % 64, owner := me, valid := 0, zero := false, tout := false, dlv := false,
      dlp := false }) d (wd (handleOf cl i ((c.cgen + 1) % 64))))) ∧
    (0 < c.refcnt → exec (.copen d a b) s = .next (park s (.copen cl i))))

/-- R244, R356, R358, R359: CPUT.D and CPUT.Q into an OPEN cell whose handle is current enter the store buffer with the
bytes and the place in comb they go to; CPUT.R sends them in a packet and counts it. An offset that is misaligned or beyond
the cell traps with MISALIGN_CELL, a stale or other cell with CELL, a place in the spill area with PROT (R170), and FLAGS or
a cluster that names none in the handle of CPUT.R with BAD_TARGET (R4, R7). Which free tag a packet takes is the model's
choice (log 28). -/
def Obligations.CellPuts : Prop := ∀ (s : State) (a b : XReg) (v : VReg) (cl i off : Nat) (way : Way),
  let x := rx s a; let h := x.toNat % 2 ^ 32; let c := cellOf s cl i; let dev := fld x.toNat 48 12
  let put (j : Instr) (bs : List Byte) : Prop := cellPtr x = .ok (cl, i, off) →
    let o := c.base * 512 + off
    (off % bs.length = 0 → off < (c.rows + 1) * c.pitch * 16 →
      (c.cgen = handleGen h → spillBase s cl < o + bs.length → CanTrap s →
        Does j s fun t => Trapped s t 0x05 (protTrap (combVa cl o) .write false).tval) ∧
      (c.cgen = handleGen h → c.st = .opn → o + bs.length ≤ spillBase s cl → (cur s).sb.length < 8 →
        let p : Part := { pa := combKey cl o, n := bs.length, at_ := 0, key := 0, cls := 0, sys := false }
        Enters j s { kind := .cput cl i off, parts := [p], bytes := bs, pts := (cur s).pts, ord := true, va := 0 } (cur s).pts
          s (nextPc s) .none 0) ∧
      (c.cgen ≠ handleGen h ∨ (c.st ≠ .opn ∧ o + bs.length ≤ spillBase s cl) → CanTrap s → Does j s fun t => Trapped s t 0x09 (h + c.st.code * 2 ^ 32))) ∧
    (off % bs.length ≠ 0 ∨ (c.rows + 1) * c.pitch * 16 ≤ off → CanTrap s →
      Does j s fun t => Trapped s t 0x18 (h + off * 2 ^ 32))
  put (.cputD a b) (leBytes 8 (rx s b).toNat) ∧ put (.cputQ a v) (leBytes 16 (rv s v).toNat) ∧
  (x.toNat < 2 ^ 60 → fld x.toNat 0 8 = 0 → clusterOk (fld x.toNat 24 8) → wayTo s dev x.toNat = .ok () →
    off = fld x.toNat 32 16 → off % 16 = 0 → portFor s dev = .ok way →
    (cur s).unacked < 32 → way.full s = false → Does (.cputR a v) s fun t =>
      SendsPkt s t way (pkt s 2 (cur s).cls dev (freeTag s) (wd (h * 2 ^ 32 + off)) (leBytes 16 (rv s v).toNat)) ∧
      (cur t).unacked = (cur s).unacked + 1 ∧ (cur t).pc = nextPc s ∧ XSame s t ∧ VSame s t ∧ MSame s t ∧ FlagsSame s t ∧
      SameMem s t) ∧
  (fld x.toNat 0 8 ≠ 0 ∨ clusterOk (fld x.toNat 24 8) = false → CanTrap s →
    Does (.cputR a v) s fun t => Trapped s t 0x16 x.toNat)

/-- A seal of an OPEN cell whose handle is current, whose counted writes have performed and whose targets have room (R211,
R360, R361): the cell's state, STS and references, an entry with FLAGS in every target queue, PTS released. -/
def Sys2Proof.Safety.Seals (i : Instr) (s : State) (h : Nat) (targets : List (Nat × Nat)) (sc : Scope) : Prop :=
  let cl := handleCl h; let ix := handleIx h; let c := cellOf s cl ix; let z := cellZero s cl c
  let pts := if sc = .clu then (cur s).pts else max (cur s).pts (cur s).mts
  let row (e : TqEntry) := (e.handle, e.flags, e.resv)
  c.cgen = handleGen h → c.st = .opn → c.refcnt + targets.length ≤ 4095 → releaseStep s sc = .done → c.counted = 0 →
  c.apost = none →
  ((∀ g ∈ targets, targets.countP (· == g) ≤ tqRoom s g.1 g.2) → Does i s fun t =>
    cellOf t cl ix = { c with st := .sealed, zero := z, sts := max c.cts pts, dlv := false, dlx := false, tout := false,
                              refcnt := c.refcnt + targets.length } ∧
    (∀ av q, q < 8 → let n := targets.countP (· == (av, q))
      (tqOf t av q).es.map row = (tqOf s av q).es.map row ++
        List.replicate n (BitVec.ofNat 32 (handleOf cl ix c.cgen), 2 * b2n z, none)) ∧
    (cur t).pts = pts ∧ (cur t).pc = nextPc s ∧ (cur t).wait = .none ∧ XSame s t ∧ VSame s t ∧ MSame s t ∧ FlagsSame s t ∧
    SameMem s t) ∧
  ((∃ g ∈ targets, tqRoom s g.1 g.2 < targets.countP (· == g)) → Does i s fun t => (cur t).wait = .seal ∧
    (cur t).pc = (cur s).pc ∧ (cur t).pts = (cur s).pts ∧ (∀ av, avOf t av = avOf s av) ∧
    (∀ k j, cellOf t k j = cellOf s k j) ∧ XSame s t ∧ SameMem s t)

/-- A seal at SYS scope with remote writes unacknowledged does not go on (R68): it parks if a port of theirs is in RETRAIN. -/
def Sys2Proof.Safety.SealWaits (i : Instr) (s : State) (h n : Nat) : Prop :=
  let c := cellOf s (handleCl h) (handleIx h)
  c.cgen = handleGen h → c.st = .opn → c.refcnt + n ≤ 4095 → (cur s).sb = [] → (cur s).lost = [] → (cur s).unacked ≠ 0 →
  let retrains := ∃ t ∈ s.tags, t.2.issuer = nameOf (cur s) ∧ (portOf s t.2.port).st = .retrain
  (retrains → exec i s = .next (park s .fenceSys)) ∧ (¬retrains → exec i s = .next (hold s))

/-- R211, R360, R361: SEAL with no target and with one, SEALM with the list of its line.
R68: at SYS scope each waits for the acknowledgements of its context's remote writes.
SEALM reads its list again when it issues again (log 23). -/
def Obligations.CellSeals : Prop := ∀ (s : State) (a b : XReg) (sc : Scope) (cl i k o : Nat) (g : Nat × Nat) (ts : List (Nat × Nat)),
  let h := (rx s a).toNat; let v := (rx s b).toNat
  handleReg (rx s a) = .ok (cl, i) →
  (v < 2 ^ 12 → Seals (.seal a b sc) s h [] sc) ∧
  (v / 2 ^ 12 = 1 → targetOf (v % 4096) = .ok g → Seals (.seal a b sc) s h [g] sc) ∧
  (combOperand (ownCl (cur s)) v 32 = .ok (k, o) → o + 32 ≤ spillBase s k → (cur s).sb = [] → sealTargets s k o = .ok ts →
    Seals (.sealm a b sc) s h ts sc) ∧
  (v < 2 ^ 12 → SealWaits (.seal a b .sys) s h 0) ∧
  (v / 2 ^ 12 = 1 → targetOf (v % 4096) = .ok g → SealWaits (.seal a b .sys) s h 1) ∧
  (combOperand (ownCl (cur s)) v 32 = .ok (k, o) → o + 32 ≤ spillBase s k → sealTargets s k o = .ok ts →
    SealWaits (.sealm a b .sys) s h ts.length)

/-- R208, R362, R363, R365: CSETT arms the deadline of an OPEN cell, paused while its owner is saved or moving; CLD reads 8 bytes of a valid row of a SEALED or
RETIRING cell and zero of another row, CLD.ACQ acquires its STS as well; CSTAT reads a word of the descriptor.

R210, R364, R244: CRETIRE frees an OPEN cell and a SEALED one without references, turns a SEALED one with references RETIRING
and parks, its parked reopeners trapping with CELL_STATE; DONE takes one reference off and, with the last one, frees a
RETIRING cell. A FREE cell, a stale handle and DONE of a cell without references trap. -/
def Obligations.CellReadsAndEnds : Prop :=
  (∀ (s : State) (d a b : XReg) (cl i off : Nat),
   let h := (rx s a).toNat; let v := (rx s b).toNat; let c := cellOf s cl i
   (handleReg (rx s a) = .ok (cl, i) → v < 2 ^ 46 → fld v 44 2 ≠ 3 → clusterOk (fld v 36 8) → c.cgen = handleGen h →
     c.st = .opn → exec (.csett a b) s = .next (next (modCell s cl i fun k =>
       { k with dlrem := max 1 (v % 2 ^ 32), dltgt := fld v 32 12, dlscope := fld v 44 2, dlv := true,
                dlp := deadlinesPaused s k.owner }))) ∧
   (handleReg (rx s a) = .ok (cl, i) → v ≤ 3 → c.cgen = handleGen h →
     Puts (.cstat d a b) s d (wd (cellBits c / 2 ^ (64 * v) % 2 ^ 64))) ∧
   (cellPtr (rx s a) = .ok (cl, i, off) → off % 8 = 0 → off < (c.rows + 1) * c.pitch * 16 → c.cgen = handleGen (h % 2 ^ 32) →
     c.st = .sealed ∨ c.st = .retiring → c.base * 512 + off + 8 ≤ spillBase s cl →
     let valid := c.valid.getLsbD (off / (c.pitch * 16)); let o := c.base * 512 + off
     (valid = true → o / 8 ∉ (clOf s cl).poison ∧ o / 8 ∉ (clOf s cl).latent ∧ o / 8 ∉ (clOf s cl).soft) →
     let x := if valid then wd (combNat s cl o 8) else 0
     Puts (.cld d a) s d x ∧
     exec (.cldAcq d a) s = .next (wbX (modCur s fun k => { k with pts := max k.pts (max k.mrts c.sts) }) d x))) ∧
  (∀ (s : State) (a : XReg) (cl i : Nat),
   let h := (rx s a).toNat; let c := cellOf s cl i
   let free (k : Cell) : Cell := { k with st := .free, cgen := (k.cgen + 1) % 64, dlv := false, dlx := false, refcnt := 0,
                                          counted := 0, tpost := none }
   let freed := modCell (dropPost s cl i) cl i free
   handleReg (rx s a) = .ok (cl, i) →
   (c.cgen = handleGen h →
     (c.st = .opn ∨ (c.st = .sealed ∧ c.refcnt = 0) → exec (.cretire a) s = .next (next freed)) ∧
     (c.st = .sealed → 0 < c.refcnt → waiting s (fun q => q == .copen cl i || q == .cbfree cl i) = [] →
       exec (.cretire a) s = .next (park (modCell s cl i fun k => { k with st := .retiring }) (.cretire cl i))) ∧
     (∀ n, c.st = .sealed → 0 < c.refcnt → n ≠ s.cx → waiting s (fun q => q == .copen cl i || q == .cbfree cl i) = [n] →
       (ctxOf s n).active = true → (ctxOf s n).priv = .u → (ctxOf s n).tl = 0 → (ctxOf s n).tvec ≠ 0 →
       Does (.cretire a) s fun t => cellOf t cl i = { c with st := .retiring } ∧ (cur t).wait = .cretire cl i ∧
         (cur t).pc = (cur s).pc ∧ XSame s t ∧ SameMem s t ∧ (ctxOf t n).wait = .none ∧ (ctxOf t n).tl = 1 ∧
         (ctxOf t n).tepc1 = (ctxOf s n).pc ∧ (ctxOf t n).pc = (ctxOf s n).tvec ∧
         (ctxOf t n).tcause1.toNat % 512 = 0x09 ∧ (ctxOf t n).tcause1.getLsbD 10 = true ∧
         (ctxOf t n).tval1 = wd (h + CellSt.retiring.code * 2 ^ 32) ∧ ∀ r, (ctxOf t n).getX r = (ctxOf s n).getX r) ∧
     (c.st = .retiring → exec (.cretire a) s = .next (park s (.cretire cl i))) ∧
     (c.st = .sealed ∨ c.st = .retiring → 1 < c.refcnt →
       exec (.done a) s = .next (next (modCell s cl i fun k => { k with refcnt := k.refcnt - 1 }))) ∧
     (c.st = .sealed → c.refcnt = 1 → Does (.done a) s fun t =>
       cellOf t cl i = { c with refcnt := 0 } ∧ (cur t).pc = nextPc s ∧ (cur t).wait = .none ∧ XSame s t ∧ SameMem s t ∧
       ∀ n, (ctxOf s n).wait = .copen cl i ∨ (ctxOf s n).wait = .cbfree cl i → (ctxOf t n).wait = .none) ∧
     (c.st = .retiring → c.refcnt = 1 → waiting s (· == .cretire cl i) = [] →
       exec (.done a) s = .next (next freed))) ∧
   (c.cgen ≠ handleGen h ∨ c.st = .free → CanTrap s → ∀ j ∈ [Instr.cretire a, .done a],
     Does j s fun t => Trapped s t 0x09 (h + c.st.code * 2 ^ 32)) ∧
   (c.cgen = handleGen h → c.refcnt = 0 ∨ c.st = .opn → CanTrap s →
     Does (.done a) s fun t => Trapped s t 0x09 (h + c.st.code * 2 ^ 32)))

/-- R175, R176, R366, R367: CBINIT writes a LIVE descriptor with every slot FREE; CBPOP takes the handle of a FILLED slot at
POP and acquires, or parks; CBFREE reopens the cell of a TAKEN slot and frees the slot, or parks while references stand.

R173, R174, R368: BINIT makes a slot LIVE with EXPECT and, if asked, its group; BARRV releases, counts an arrival and
bytes, raises STS, writes the phase to rd, and with the last arrival and nothing pending the phase advances and the waiters
go on; BWAIT waits in the current phase and acquires STS after it; BRETIRE ends a slot or a descriptor.
Which offsets are LIVE is kept beside the LIVE bit (log 14). -/
def Obligations.CircularBuffersAndBarriers : Prop :=
  (∀ (s : State) (d a b : XReg) (cl o k : Nat),
   let adr := (rx s a).toNat; let v := (rx s b).toNat; let n := v % 512; let hs := fld v 32 22; let w := cbGet s cl o
   let ix := handleIx v; let c := cellOf s cl ix
   (combOperand (ownCl (cur s)) adr 128 = .ok (cl, o) → 1 ≤ n → n ≤ 256 → fld v 10 22 = 0 → v < 2 ^ 54 → hs % 4 = 0 →
     o + 128 ≤ spillBase s cl → hs + 4 * n ≤ spillBase s cl → liveAt s cl o 128 = false → (cur s).sb = [] →
     boundIn s cl o 128 = none → boundIn s cl hs (4 * n) = none →
     (∀ j < n, let h := combNat s cl (hs + 4 * j) 4
       h % 256 = 0 ∧ handleCl h = cl ∧ (cellOf s cl (handleIx h)).cgen = handleGen h ∧ (cellOf s cl (handleIx h)).st = .opn) →
     exec (.cbinit a b) s = .next (next (modCl (combPutNat s cl o 128
       (n + fld v 9 1 * 2 ^ 30 + 2 ^ 31 + n * 2 ^ 96 + hs * 2 ^ 128)) cl fun q => { q with cbs := nins q.cbs o }))) ∧
   (cbNamed s adr = .ok (cl, o) →
     (cbSlot w (cbPop w) = 2 → exec (.cbpop d a) s = .next (wbX (modCur (combPutNat s cl o 128
         (setFld (setFld (setFld w (512 + 2 * cbPop w) 2 3) 48 8 ((cbPop w + 1) % cbN w)) 64 9 (cbFillCnt w - 1)))
         fun q => { q with pts := max q.pts (max q.mrts (cbSts w)) }) d (wd (combNat s cl (cbHandles w + 4 * cbPop w) 4)))) ∧
     (cbSlot w (cbPop w) ≠ 2 → exec (.cbpop d a) s = .next (park s (.cbpop cl o))) ∧
     (handleReg (rx s b) = .ok (cl, ix) → k < cbN w → cbHandle s cl w k = v → (∀ j < k, cbHandle s cl w j ≠ v) →
       cbSlot w k = 3 → c.cgen = handleGen v →
       (∀ j ∈ s.clusters, ∀ m ∈ j.2.te, m.compl = 2 → m.complAddr ≠ combKey cl o) →
       let w' := setFld (setFld w (512 + 2 * k) 2 0) 96 9 (cbFreeCnt w + 1)
       (c.st = .sealed → c.refcnt = 0 → exec (.cbfree a b) s = .next (next (combPutNat (combPutNat
         (reopen s cl ix (nameOf (cur s)) none) cl o 128 w') cl (cbHandles w + 4 * k) 4 (handleOf cl ix ((c.cgen + 1) % 64))))) ∧
       (c.st = .sealed → 0 < c.refcnt → exec (.cbfree a b) s = .next (park s (.cbfree cl ix))) ∧
       (c.st = .opn → exec (.cbfree a b) s =
         .next (next (combPutNat (modCell s cl ix fun q => { q with valid := 0 }) cl o 128 w')))))) ∧
  (∀ (s : State) (d a b : XReg) (cl o : Nat),
   let adr := (rx s a).toNat; let v := (rx s b).toNat; let w := barGet s cl o; let live := o ∈ (clOf s cl).bars
   barNamed s adr = .ok (cl, o) →
   (v < 2 ^ 25 → fld v 15 1 = 0 → 1 ≤ v % 2 ^ 15 → v % 2 ^ 15 ≤ 24576 → liveAt s cl o 16 = false → (cur s).sb = [] →
     exec (.binit a b) s = .next (next (modCl (combPutNat s cl o 16 (2 ^ 63 + v % 2 ^ 15 * 2 ^ 46 +
       (if bit v 24 then fld v 16 8 * 2 ^ 64 + 2 ^ 62 else 0))) cl fun q => { q with bars := nins q.bars o }))) ∧
   (live → v < 2 ^ 32 → barArrived w ≠ barExpect w → releaseStep s .dev = .done → Does (.barrv d a b) s fun t =>
     let pts := max (cur s).pts (cur s).mts
     let w1 := barAddPend (setFld (setFld w 72 24 (max (barSts w) pts)) 31 15 (barArrived w + 1)) (sgn 32 v)
     let full := barArrived w1 = barExpect w1 ∧ barPend w1 = 0 ∧ !barOvf w1
     barGet t cl o = (if full then setFld (setFld (setFld w1 0 16 (barPhase w1 + 1)) 31 15 0) 16 15 0 else w1) % 2 ^ 128 ∧
     SameMemBut s t (combKey cl o) 16 ∧ XBut s t d (wd (barPhase w)) ∧ VSame s t ∧ MSame s t ∧ FlagsSame s t ∧
     (cur t).pts = pts ∧ (cur t).pc = nextPc s ∧ (cur t).wait = .none ∧
     ∀ n, n ≠ s.cx → (ctxOf s n).wait = .bwait cl o → (ctxOf t n).wait = if full then .none else .bwait cl o) ∧
   (live → barOvf w = false → barPhase w ≠ v % 2 ^ 16 → exec (.bwait a b) s =
     .next (next (modCur s fun q => { q with pts := max q.pts (max q.mrts (barSts w)) }))) ∧
   (live → barOvf w = false → barPhase w = v % 2 ^ 16 → Does (.bwait a b) s fun t => (cur t).wait = .bwait cl o ∧
     (cur t).pc = (cur s).pc ∧ barGet t cl o = setFld w 16 15 (fld w 16 15 + 1) % 2 ^ 128 ∧ XSame s t ∧
     SameMemBut s t (combKey cl o) 16) ∧
   (live → waiting s (· == .bwait cl o) = [] → Does (.bretire a) s fun t => o ∉ (clOf t cl).bars ∧
     barGet t cl o = setFld w 63 1 0 % 2 ^ 128 ∧ SameMemBut s t (combKey cl o) 16 ∧ XSame s t ∧ (cur t).pc = nextPc s ∧
     (cur t).wait = .none) ∧
   (¬live → o ∈ (clOf s cl).cbs → waiting s (· == .cbpop cl o) = [] → Does (.bretire a) s fun t => o ∉ (clOf t cl).cbs ∧
     cbGet t cl o = setFld (cbGet s cl o) 31 1 0 % 2 ^ 1024 ∧ SameMemBut s t (combKey cl o) 128 ∧ XSame s t ∧
     (cur t).pc = nextPc s ∧ (cur t).wait = .none) ∧
   (¬live → o ∉ (clOf s cl).cbs → CanTrap s → Does (.bretire a) s fun t => Trapped s t 0x0D adr))

/-! ## Transfers -/

/-- R146, R369, R370, R373, R193: a well-formed transfer command whose earlier stores need no wait enters the queue of its
class with the next number and the issuer's clock, its first 16 MiB charged to the grant if it moves more than 1 MiB; a full
queue parks the context. XRESTART puts a command of the restart table back; XDISCARD ends one with XDONE, status XLATE.
A park issues the instruction again (log 23). -/
def Obligations.TransferCommands : Prop := ∀ (s : State) (a : XReg) (m : TeCmd) (i : Nat),
  let cl := slotCl s.cx; let f := (rx s a).toNat; let k := clOf s cl
  let room := (k.te.filter fun c => c.cls == m.cls && !c.running).length < 32
  let clk := if m.acq then max (cur s).pts (max (cur s).mts (cur s).mrts) else (cur s).pts
  let same (t : State) : Prop := XSame s t ∧ VSame s t ∧ MSame s t ∧ FlagsSame s t ∧ SameMem s t
  let queued (t : State) (n charged : Nat) : Prop := (clOf t cl).te = k.te ++ [{ m with
      id := n, charged := charged, clock := clk, wmax := max m.wmax clk, running := false, seq := s.seq, after := 0 }] ∧ t.agenda = s.agenda ++ [.teCommandStart cl] ∧
    (cur t).pc = nextPc s ∧ (cur t).wait = .none ∧ same t
  let parked (t : State) (r : Bool) : Prop := (cur t).wait = .te cl m.cls r ∧ (cur t).pc = (cur s).pc ∧ clOf t cl = k ∧ same t
  teAcqWaits (cur s) m = false →
  (∀ p ∈ [(Instr.xfer a, 0), (.xgather a, 1), (.xscatter a, 2)], (cur s).sb = [] → teCheck s p.2 f = .ok m →
    (room → Does p.1 s fun t => queued t k.teNext (min m.amount (2 ^ 24)) ∧
      (m.amount ≤ 2 ^ 20 → (cur t).grant = (cur s).grant) ∧
      (2 ^ 20 < m.amount → (cur t).grant = (cur s).grant.map fun g => { g with left := g.left - m.firstEu })) ∧
    (¬room → Does p.1 s fun t => parked t false)) ∧
  (teToken s cl (rx s a) = .ok (i, m) →
    (room → Does (.xrestart a) s fun t => queued t m.id m.charged ∧ (fget (clOf t cl).restarts i).bind Restart.cmd = none) ∧
    (¬room → Does (.xrestart a) s fun t => parked t true) ∧
    Does (.xdiscard a) s fun t => (cur t).pc = nextPc s ∧ (cur t).wait = .none ∧ same t ∧ (clOf t cl).te = k.te ∧
      (fget (clOf t cl).restarts i).bind Restart.cmd = none ∧
      t.agenda = s.agenda ++ [.messageDelivery m.issuer (mkMsg s (unitSrc 1 cl) m.cls 3 (if m.rel then some m.wmax else none)
        m.tag (wd (0x04 + m.done * 2 ^ 32)) (wd m.written)) none])

/-! ## Messages -/

/-- The release an instruction begins with, if any, has nothing to wait for (R239, R374). -/
def Sys2Proof.Safety.relDone (s : State) : Option Scope → Prop
  | none => True
  | some sc => releaseStep s sc = .done
/-- PTS after that release. -/
def Sys2Proof.Safety.relPts (s : State) : Option Scope → Nat
  | none => (cur s).pts
  | some sc => if sc = .clu then (cur s).pts else max (cur s).pts (cur s).mts
/-- The class of a send: its selector's or the context's own; a class-0 send within 100 ns of the last goes as 1 (R152). -/
def Sys2Proof.Safety.wantCls (s : State) (c : ClsSel) : Nat := (c.map Fin.val).getD (cur s).cls
def Sys2Proof.Safety.tooSoon (s : State) : Bool := ((cur s).lastC0.map fun g =>
  if (cur s).c0Short then decide ((s.gtc + 2 ^ 32 - g % 2 ^ 32) % 2 ^ 32 < 100) else decide (s.gtc < g + 100)).getD false
def Sys2Proof.Safety.sendCls (s : State) (c : ClsSel) : Nat := if wantCls s c = 0 && tooSoon s then 1 else wantCls s c

/-- What a class-0 send and the release of any leave behind when it is accepted, and not before (R152, R168, R182, R375). -/
def Sys2Proof.Safety.pledgeOf (s : State) (c : ClsSel) (rel : Option Scope) (dl : Bool) : Option Pledge :=
  match rel with
  | none => if wantCls s c = 0 then some { gtc := s.gtc, demoted := tooSoon s, dl := dl, c0 := true, rel := none } else none
  | some sc => some { gtc := s.gtc, demoted := wantCls s c = 0 && tooSoon s, dl := dl && decide (wantCls s c = 0),
                      c0 := decide (wantCls s c = 0), rel := some sc }
/-- LAST_C0 after the acceptance. -/
def Sys2Proof.Safety.lastAfter (s : State) (c : ClsSel) : Option Nat :=
  if wantCls s c = 0 && !tooSoon s then some s.gtc else (cur s).lastC0

/-- The state after the policing of an instruction that launches (R152). -/
def Sys2Proof.Safety.policedState (s : State) (rel : Option Scope) (c : ClsSel) : State :=
  modCur { s with seq := s.seq + 1 } fun q => { q with pledge := pledgeOf s c rel (sendCls s c = 0) }

/-- R163, R171, R245, R374: SEND and its release form send rs2 and the vector register to the name in rs1, the context
waiting until a mailbox or spill area accepts; to another device the message leaves in a packet and the context goes on,
unless the queues of the port are full (R56).

R113, R128, R132, R139, R159, R375, R376: ACTIVATE and SPAWN send a record to the cluster it belongs to and wait until a
queue accepts it; ACTIVATE of a group starts an eligible context of the own cluster at once. NXTDL goes with class 0. What a
send changes of its sender, the clock of its release too, it changes on acceptance (R168, R182).
The demoted send and the TAG of a record are readings of the model (log 43, log 47), and so is tag 0 in a packet that asks for
no answer (log 28). -/
def Obligations.SendsAndLaunches : Prop :=
  (∀ (s : State) (d : VReg) (a b : XReg) (c : ClsSel) (sc : Scope) (name dev : Nat) (way : Way),
   let v := (rx s a).toNat; let k := sendCls s c; let x := rv s d
   ∀ p ∈ [(Instr.send d a b c, none), (.sendRel d a b c sc, some sc)], relDone s p.2 →
   let m := mkMsg s (nameOf (cur s)) k 0 (p.2.map fun _ => relPts s p.2) (rx s b) (x.extractLsb' 0 64) (x.extractLsb' 64 64)
   let same (t : State) : Prop := XSame s t ∧ VSame s t ∧ MSame s t ∧ FlagsSame s t ∧ SameMem s t
   (sendDest s v = .ok (name, none) → Does p.1 s fun t => (cur t).wait = .send name m false ∧ (cur t).pc = (cur s).pc ∧
     t.agenda = s.agenda ++ [.messageDelivery name m (some s.cx)] ∧ same t ∧ (cur t).lastC0 = (cur s).lastC0 ∧
     (cur t).pts = (cur s).pts ∧ (cur t).pledge = pledgeOf s c p.2 false) ∧
   (sendDest s v = .ok (name, some dev) → portFor s dev = .ok way → way.full s = false → Does p.1 s fun t =>
     (cur t).lastC0 = lastAfter s c ∧ (cur t).pledge = none ∧ (cur t).pts = relPts s p.2 ∧
     (clOf t (slotCl s.cx)).demoted = (if wantCls s c = 0 && tooSoon s then min ((clOf s (slotCl s.cx)).demoted + 1) 0xFFFF
       else (clOf s (slotCl s.cx)).demoted) ∧
     SendsPkt s t way (pkt s 8 k dev 0 (wd (name % 2 ^ 28)) (msgBytes m)) ∧
     (cur t).wait = .none ∧ (cur t).pc = nextPc s ∧ same t)) ∧
  (∀ (s : State) (d : VReg) (a b : XReg) (c : ClsSel) (sc : Scope) (n key : Nat),
   let v := (rx s a).toNat; let pc := (rx s b).toNat; let k := sendCls s c; let x := rv s d
   ∀ rel ∈ [none, some sc], relDone s rel →
   let act := match rel with | none => Instr.activate d a b c | some sc => .activateRel d a b c sc
   let spn := match rel with | none => Instr.spawn d a b c | some sc => .spawnRel d a b c sc
   let nx := (cur s).nxtdl; let u := policedState s rel c
   let dl := if k = 0 ∧ nx ≠ 0 then some nx.toNat else none
   let r (f : LForm) (code t tw : Nat) (dl : Option Nat) (dlt gm : Bool) : LRec :=
     { form := f, cls := k, asid := (cur s).asid, pc := pc, a0 := x.extractLsb' 0 64, a1 := x.extractLsb' 64 64, deadline := dl,
       dltrap := dlt, gmatch := gm, target := t, tag := wd pc, ts := if rel.isSome then relPts s rel else 0, tsv := rel.isSome,
       src := .ctx (nameOf (cur s)) s.cx, hdr := recHeader code k dl.isSome dlt gm (cur s).asid, tgtWord := wd tw, passed := 0,
       seq := s.seq, hops := 0, via := slotCl s.cx }
   let held (i : Instr) (m : State) (cl : Nat) (q : LRec) (ev : Instr) (pl : Bool) : Prop := Does i s fun t =>
     (cur t).wait = .launch cl q false ∧ (cur t).pc = (cur s).pc ∧ (cur t).lastC0 = (cur s).lastC0 ∧ (cur t).nxtdl = nx ∧
     (cur t).pledge = pledgeOf s c rel pl ∧ t.agenda = m.agenda ++ [ev] ∧ XSame s t ∧ VSame s t ∧ MSame s t ∧ SameMem m t ∧
     (cur t).pts = (cur s).pts
   let named := r .named 0 (v % 2 ^ 28) (v % 2 ^ 28) dl (bit v 60) (bit v 61)
   let group := r .group 1 (v % 256) (v % 256) dl (bit v 60) (bit v 61)
   let home := (groupOf s (v % 256)).bcluster
   (activateCheck s v pc = .ok () → v / 2 ^ 62 = 0 →
     held act s (slotCl (v % 2 ^ 15)) named (.launchQueueEntry (slotCl (v % 2 ^ 15)) named) (k = 0)) ∧
   (activateCheck s v pc = .ok () → v / 2 ^ 62 = 1 → pickCtx u (slotCl s.cx) group = some n → n ≠ s.cx → Does act s fun t =>
     (cur t).lastC0 = lastAfter s c ∧ (cur t).pts = relPts s rel ∧ (cur t).nxtdl = (if k = 0 then 0 else nx) ∧ (cur t).pledge = none ∧
     (ctxOf t n).active = true ∧ (ctxOf t n).pc = wd (if pc = 0 then (groupOf s (v % 256)).entrypc else pc) ∧
     (ctxOf t n).cls = k ∧ (ctxOf t n).asid = (cur s).asid ∧ (ctxOf t n).getX 4 = group.a0 ∧ (ctxOf t n).getX 5 = group.a1 ∧
     (cur t).pc = nextPc s ∧ (cur t).wait = .none ∧ XSame s t ∧ VSame s t ∧ MSame s t) ∧
   (activateCheck s v pc = .ok () → v / 2 ^ 62 = 1 → pickCtx u (slotCl s.cx) group = none → clusterOk home →
     held act s home group (.launchQueueEntry home group) (k = 0)) ∧
   (pc % 4 = 0 → pc ≠ 0 → spawnKey s v = .ok key → let q := r .spawn 2 key v none false false; let m := walkMiss s s.cx v 1
     (2 ^ 48 ≤ v ∨ isComb v = true ∨ (tlbHit (tlbsOf s s.cx) (cur s).asid v).isSome → m = s) ∧
     held spn m ((spawnOwners m key).headD 0) q (.spawnPacketArrival ((spawnOwners m key).headD 0) q) false))

/-- R163, R166, R377: a receive takes the oldest message of the lowest class into its pair of registers and out of the
mailbox; on an empty mailbox RECV waits and TRYRECV gives word 0 all ones and the others zero. The `.acq` forms acquire.

R168, R169, R378: MSGMASK sets and clears MASK and its count; MRET leaves the handler, the shadow bank and nothing
else, and is ILLEGAL outside a handler. -/
def Obligations.ReceivesAndHandlers : Prop :=
  (∀ (s : State) (d : Fin 8) (m : Msg) (l r : List Msg),
   let lo : VReg := Fin.ofNat 16 (2 * d.val); let hi : VReg := Fin.ofNat 16 (2 * d.val + 1); let name := nameOf (cur s)
   let gets (t : State) (v w : VWord) (pts : Nat) : Prop :=
     (∀ q : VReg, rv t q = if q = lo then v else if q = hi then w else rv s q) ∧ XSame s t ∧ MSame s t ∧ FlagsSame s t ∧
     SameMem s t ∧ (cur t).pc = nextPc s ∧ (cur t).wait = .none ∧ (cur t).pts = pts
   let acq (b : Bool) (ts : Nat) : Nat := if b then max (cur s).pts (max (cur s).mrts ts) else (cur s).pts
   let all := [(Instr.recv d, false), (.recvAcq d, true), (.tryrecv d, false), (.tryrecvAcq d, true)]
   ((cur s).mailbox = l ++ m :: r → (∀ k ∈ l ++ r, msgCls m ≤ msgCls k) → (∀ k ∈ l, msgCls k ≠ msgCls m) →
     (∀ k, ∀ e ∈ (clOf s k).spill, e.dest ≠ name) →
     ∀ p ∈ all, Does p.1 s fun t => gets t (m.w1 ++ m.w0) (m.w3 ++ m.w2) (acq p.2 (if msgTsv m then msgTs m else 0)) ∧
       (cur t).mailbox = l ++ r ∧ (cur t).msgdev = if msgIsRemote m then m.dev else s.devid) ∧
   ((cur s).mailbox = [] →
     (∀ p ∈ all.drop 2, Does p.1 s fun t => gets t (BitVec.ofNat 128 (2 ^ 64 - 1)) 0 (acq p.2 0)) ∧
     ∀ p ∈ all.take 2, Does p.1 s fun t => (cur t).wait = .recv (2 * d.val) p.2 ∧ (cur t).pc = (cur s).pc ∧ XSame s t ∧ VSame s t ∧
       SameMem s t) ∧
   ((cur s).mailbox = [] → Does .waitmsg s fun t => (cur t).wait = .waitmsg ∧ (cur t).pc = (cur s).pc ∧ XSame s t ∧ SameMem s t) ∧
   ((cur s).mailbox ≠ [] → Does .waitmsg s fun t => PcResult s t (nextPc s))) ∧
  (∀ (s : State),
   Sets .msgmaskSet s (fun c => { c.goto (c.pc + 4) with mhMask := true, masked := if c.mhMask then c.masked else 0 }) ∧
   Sets .msgmaskClr s (fun c => { c.goto (c.pc + 4) with mhMask := false, masked := 0 }) ∧
   ((cur s).mhInh = true → (cur s).tl = 0 →
     Sets .mret s fun c => { c.goto c.mepc with mhInh := false, ranTrap := false, ranHnd := false }) ∧
   ((cur s).mhInh = false → CanTrap s → Does .mret s fun t => Trapped s t 0x01 (encodeWord .mret)))

/-- R160, R161, R184: with nothing of its own left to wait for, EXIT turns the slot IDLE, and so does a trap that cannot be
taken (at S, at TL2, at TL0 without a handler); no other slot starts or ends. -/
def Obligations.Endings : Prop := ∀ (s : State),
  (cur s).mailbox = [] → (cur s).sb = [] → (cur s).preempt = none → fget s.saved s.cx = none → (cur s).wait = .none →
  (∀ k, ∀ e ∈ (clOf s k).spill, e.dest ≠ nameOf (cur s)) →
  let ends (i : Instr) : Prop := Does i s fun t => (cur t).active = false ∧ (cur t).mailbox = [] ∧
    ∀ n, n ≠ s.cx → (ctxOf t n).active = (ctxOf s n).active
  ends .exit ∧ ((cur s).priv = .s ∨ (cur s).tl = 2 ∨ ((cur s).tl = 0 ∧ (cur s).tvec = 0) → ends .brk)

/-! ## Traps and privilege -/

/-- R182, R183, R186, R388: BREAK and TRAP enter the handler at TL0 (TVEC, TEPC1) and at TL1 (TVEC + 0x40, TEPC2), BREAK with
its own address and TRAP with the next one and its immediate; TRET returns to the level below.

R185, R389: SVC saves the next address in SEPC and enters SVCVEC at S; SRET returns to SEPC at U. R307, R389, R391: at U
every S-only instruction and a write of an S-only register traps with PRIV, its word in TVAL, and changes nothing else. -/
def Obligations.TrapsAndPrivilege : Prop :=
  (∀ (s : State) (i : BitVec 16),
   ((cur s).tl = 1 → Sets .tret s fun c => { c.goto c.tepc1 with tl := 0, ranTrap := false }) ∧
   ((cur s).tl = 2 → Sets .tret s fun c => { c.goto c.tepc2 with tl := 1 }) ∧
   (CanTrap s → Does .tret s (fun t => Trapped s t 0x01 (encodeWord .tret)) ∧ Does .brk s (fun t => Trapped s t 0x14 0) ∧
     Sets (.trap i) s fun c => { c with
       wait := .none, waitSince := none, parked := false, fencing := false, pledge := none, tl := 1, tepc1 := c.pc + 4, tval1 := wd i.toNat,
       tcause1 := wd (0x13 + 512 * b2n c.mhInh), pc := c.tvec }) ∧
   ((cur s).priv = .u → (cur s).tl = 1 →
     let at1 (epc tval : Word) (cause : Nat) (c : Ctx) : Ctx := { c with
       wait := .none, waitSince := none, parked := false, fencing := false, pledge := none, tl := 2, tepc2 := epc, tval2 := tval,
       tcause2 := wd (cause + 512 * b2n c.mhInh), pc := c.tvec + 0x40 }
     Sets .brk s (at1 (cur s).pc 0 0x14) ∧ Sets (.trap i) s (at1 (nextPc s) (wd i.toNat) 0x13))) ∧
  (∀ (s : State) (a b : XReg) (i : BitVec 16) (n : BitVec 12),
   ((cur s).priv = .u → Sets (.svc i) s fun c => { c.goto c.svcvec with priv := .s, sepc := c.pc + 4 }) ∧
   ((cur s).priv = .s → Sets .sret s fun c => { c.goto c.sepc with priv := .u }) ∧
   (CanTrap s → ∀ j ∈ [Instr.sret, .kill a, .grpw a b, .keyld a b, .tlbinv a], Does j s fun t => Trapped s t 0x02 (encodeWord j)) ∧
   (CanTrap s → n = 8 ∨ n = 9 ∨ n = 10 ∨ n = 0x100 ∨ n = 0x101 →
     Does (.ssr a n) s fun t => Trapped s t 0x02 (encodeWord (.ssr a n))))

/-- R286: what GSR reads from each state register; an unassigned number is ILLEGAL. EMTR has counted on by an amount the
manual leaves to the device (R35).

R286, R169, R181, R231, R275: what SSR writes to each state register, with the bits a register keeps; the time registers
only rise; RO registers and unassigned numbers are ILLEGAL.
The amount EMTR counts is free (log 5). -/
def Obligations.StateRegisters : Prop :=
  (∀ (s : State) (d : XReg) (n : BitVec 12),
   let c := cur s; let g (k : BitVec 12) (v : Nat) : Prop := Puts (.gsr d k) s d (wd v)
   g 0x00 c.fcsr.toNat ∧ g 0x01 (nameOf c + s.devid * 2 ^ 28) ∧
   g 0x02 (c.grp[0].toNat + c.grp[1].toNat * 2 ^ 8 + c.grp[2].toNat * 2 ^ 16 + c.grp[3].toNat * 2 ^ 24 + c.grpValid.toNat * 2 ^ 32) ∧
   g 0x03 c.msgdev ∧ g 0x04 (b2n c.mhEn + 2 * b2n c.mhInh + 4 * b2n c.mhMask) ∧ g 0x05 c.mhvec.toNat ∧ g 0x06 c.mepc.toNat ∧
   g 0x07 c.mtrapm.toNat ∧ g 0x08 c.pts ∧ g 0x09 c.mts ∧ g 0x0A c.mrts ∧ g 0x0B (s.btsN * 2 ^ 23) ∧ g 0x0C c.nxtdl.toNat ∧
   g 0x10 c.tl ∧ g 0x11 c.tvec.toNat ∧ g 0x12 c.tepc1.toNat ∧ g 0x13 c.tepc2.toNat ∧ g 0x14 c.tcause1.toNat ∧
   g 0x15 c.tcause2.toNat ∧ g 0x16 c.tval1.toNat ∧ g 0x17 c.tval2.toNat ∧ g 0x18 c.tscr[0].toNat ∧ g 0x19 c.tscr[1].toNat ∧
   g 0x1A c.tscr[2].toNat ∧ g 0x1B c.tscr[3].toNat ∧ g 0x20 s.gtc ∧ g 0x22 netcap ∧ g 0x100 c.sepc.toNat ∧
   g 0x101 c.svcvec.toNat ∧
   Does (.gsr d 0x21) s (fun t => ∃ e, (cur t).meter = (c.meter + e) % 2 ^ 64 ∧ XBut s t d (wd (cur t).meter) ∧
     (cur t).pc = nextPc s ∧ VSame s t ∧ MSame s t ∧ FlagsSame s t ∧ SameMem s t) ∧
   (stateAcc n.toNat = none → CanTrap s → Does (.gsr d n) s fun t => Trapped s t 0x01 (encodeWord (.gsr d n)))) ∧
  (∀ (s : State) (a : XReg) (n : BitVec 12),
   let x := rx s a; let v := x.toNat; let w (k : BitVec 12) (f : Ctx → Ctx) : Prop := Sets (.ssr a k) s fun c => (f c).goto (c.pc + 4)
   w 0x00 (fun c => { c with fcsr := BitVec.ofNat 9 (if 4 < fld v 5 3 then v - fld v 5 3 * 32 else v) }) ∧
   w 0x04 (fun c => { c with mhEn := bit v 0, mhMask := bit v 2, masked := if bit v 2 && c.mhMask then c.masked else 0 }) ∧
   w 0x05 (fun c => { c with mhvec := wd (fld v 8 40 * 256) }) ∧ w 0x06 (fun c => { c with mepc := x }) ∧
   w 0x0C (fun c => { c with nxtdl := x }) ∧ w 0x11 (fun c => { c with tvec := wd (fld v 7 41 * 128) }) ∧
   w 0x12 (fun c => { c with tepc1 := x }) ∧ w 0x13 (fun c => { c with tepc2 := x }) ∧
   w 0x14 (fun c => { c with tcause1 := wd (v % 2 ^ 11) }) ∧ w 0x15 (fun c => { c with tcause2 := wd (v % 2 ^ 11) }) ∧
   w 0x16 (fun c => { c with tval1 := x }) ∧ w 0x17 (fun c => { c with tval2 := x }) ∧
   w 0x18 (fun c => { c with tscr := c.tscr.set 0 x }) ∧ w 0x19 (fun c => { c with tscr := c.tscr.set 1 x }) ∧
   w 0x1A (fun c => { c with tscr := c.tscr.set 2 x }) ∧ w 0x1B (fun c => { c with tscr := c.tscr.set 3 x }) ∧
   ((cur s).priv = .s → w 0x100 (fun c => { c with sepc := x }) ∧ w 0x101 (fun c => { c with svcvec := wd (fld v 2 46 * 4) })) ∧
   ((cur s).priv = .s → v % 2 ^ 24 < 0xE00000 → w 0x08 (fun c => { c with pts := max c.pts (v % 2 ^ 24) }) ∧
     w 0x09 (fun c => { c with mts := max c.mts (v % 2 ^ 24) }) ∧ w 0x0A fun c => { c with mrts := max c.mrts (v % 2 ^ 24) }) ∧
   (stateAcc n.toNat = none ∨ stateAcc n.toNat = some .ro → CanTrap s →
     Does (.ssr a n) s fun t => Trapped s t 0x01 (encodeWord (.ssr a n))))

/-- R125, R126, R127, R189, R190, R390: FAULTWAIT answers 0 where the page is present or a reply resolved it and 1 where a
reply failed it; its walk brings the lines it reads into the L2 (R219); else it joins the request for its 64 KiB range or makes one under the lowest free REQID, with its fault's TVAL
(R186), and waits. A reply
answers every context that waits; one that names no request is counted.
The lowest free REQID and the corners of the address are readings of the model (log 54). -/
def Obligations.FaultService : Prop := ∀ (s : State) (d a b : XReg) (q r n tv : Nat) (req : FaultReq) (ok : Bool),
  let v := (rx s a).toNat; let acc := (rx s b).toNat; let c := cur s; let range := v % 2 ^ 48 / 65536
  let me := (nameOf c, v % 2 ^ 48 + acc * 2 ^ 48 + r * 2 ^ 50)
  let waits (t : State) : Prop := (cur t).wait = .faultwait q ∧ (cur t).pc = c.pc ∧ XSame s t ∧ VSame s t ∧ MSame s t
  (acc ≤ 2 → c.faultDone = some ok →
    exec (.faultwait d a b) s = .next (wbX (modCur s fun k => { k with faultDone := none }) d (if ok then 0 else 1))) ∧
  (v < 2 ^ 48 → isComb v = false → (walkFill s c.asid v).ctxs = s.ctxs) ∧
  (acc ≤ 2 → c.faultDone = none → v < 2 ^ 48 → isComb v = true → Puts (.faultwait d a b) s d 0) ∧
  (acc ≤ 2 → c.faultDone = none → v < 2 ^ 48 → isComb v = false → (walk s c.asid v).isOk →
    exec (.faultwait d a b) s = .next (wbX (walkFill s c.asid v) d 0)) ∧
  (acc ≤ 2 → c.faultDone = none → (v < 2 ^ 48 ∧ isComb v = false ∧ walk s c.asid v = .error r) ∨ (2 ^ 48 ≤ v ∧ r = 0) →
    (s.faults.find? (fun p => p.2.asid == c.asid && p.2.range == range) = some (q, req) → Does (.faultwait d a b) s fun t =>
      waits t ∧ t.faults = fset s.faults q { req with who := req.who ++ [me] }) ∧
    (s.faults.find? (fun p => p.2.asid == c.asid && p.2.range == range) = none → q < 4096 → fget s.faults q = none →
      (∀ j < q, fget s.faults j ≠ none) → Does (.faultwait d a b) s fun t =>
      waits t ∧ t.faults = fset s.faults q { asid := c.asid, range := range, who := [me] } ∧
      (s.fsq.en = false → t.fsq.held = s.fsq.held ++ [record 64 [(0, 8, s.gtc), (8, 2, c.nameCxa % 32768), (10, 2, s.devid),
        (12, 2, q), (14, 1, acc), (15, 1, r), (16, 8, v % 2 ^ 48 + c.asid * 2 ^ 48), (24, 4, nameOf c)]]))) ∧
  (2 < acc → CanTrap s → Does (.faultwait d a b) s fun t => Trapped s t 0x16 acc) ∧
  (hostShut s = false → fget s.faults q = none → ∀ i ∈ [Instr.faultreplyResolved q, .faultreplyFailed q, .faultreplyKill q],
    exec i s = .next { s with badreply := min (s.badreply + 1) 65535 }) ∧
  (hostShut s = false → fget s.faults q = some { req with who := [(nameOf (ctxOf s n), tv)] } → whereIs s (nameOf (ctxOf s n)) = some n →
    (ctxOf s n).wait = .faultwait q →
    (∀ p ∈ [(Instr.faultreplyResolved q, true), (.faultreplyFailed q, false)], Does p.1 s fun t => t.faults = fdel s.faults q ∧
      ctxOf t n = { ctxOf s n with wait := .none, waitSince := none, parked := false, faultDone := some p.2 } ∧ SameMem s t) ∧
    ((ctxOf s n).sb = [] → (ctxOf s n).preempt = none → fget s.saved n = none →
      Does (.faultreplyKill q) s fun t => t.faults = fdel s.faults q ∧ (ctxOf t n).active = false))

/-- R121, R161, R200, R391: at S, KILL of another context ends it, of a saved one discards its image, of a name that is gone
has no effect; GRPW writes the slots of an idle context at once and holds those of an active one; the host's write likewise.

R45, R226, R391: KEYLD drops the L2 lines of its slot, hands both keys over and waits until the slot holds them; an
invalidation, of TLBINV or of the host, ends with no TLB entry it covers left, and with BUSY clear once nothing it
translated is in flight.
When KEYLD captures its keys and what TLBINV waits for are readings of the model (log 55). -/
def Obligations.KillGroupsKeysAndInvalidation : Prop :=
  (∀ (s : State) (a b : XReg) (n : Nat) (val : Word),
   let v := (rx s a).toNat; let w := (rx s b).toNat
   let on (t : State) : Prop := (cur t).pc = nextPc s ∧ (cur t).wait = .none
   let takes (t : State) (g : Nat) : Prop := (ctxOf t n).grpValid = BitVec.ofNat 4 (g / 2 ^ 32) ∧
     (∀ i : Fin 4, (ctxOf t n).grp[i] = BitVec.ofNat 8 (g / 2 ^ (8 * i.val))) ∧ SameMem s t
   ((cur s).priv = .s →
     (v < 2 ^ 28 → cxaOk (v % 65536) →
       (whereIs s v = some n → n ≠ s.cx → (ctxOf s n).sb = [] → (ctxOf s n).preempt = none → fget s.saved n = none →
         Does (.kill a) s fun t => (ctxOf t n).active = false ∧ on t ∧ XSame s t) ∧
       (whereIs s v = none → savedAs s v = some n → Does (.kill a) s fun t => fget t.saved n = none ∧ on t ∧ XSame s t) ∧
       (whereIs s v = none → savedAs s v = none → (∀ p ∈ s.ctxs, p.2.dying = false) → Does (.kill a) s fun t => PcResult s t (nextPc s))) ∧
     (v < 2 ^ 15 → cxaOk v → w < 2 ^ 36 → n = v →
       ((ctxOf s n).active = true → exec (.grpw a b) s = .next (next (modCtx s n fun c => { c with grpHeld := some (BitVec.ofNat 36 w) }))) ∧
       ((ctxOf s n).active = false → Does (.grpw a b) s fun t => takes t w ∧ on t))) ∧
   (clusterOk (slotCl (n % 2 ^ 15)) → n < 2 ^ 15 → hostShut s = false →
     ((ctxOf s n).active = true → exec (.ctxgrpWrite n val) s =
       .next (modCtx s n fun c => { c with grpHeld := some (BitVec.ofNat 36 val.toNat) })) ∧
     ((ctxOf s n).active = false → Does (.ctxgrpWrite n val) s fun t => takes t (val.toNat % 2 ^ 36)))) ∧
  (∀ (s : State) (a b : XReg) (cl o n slot : Nat) (k : KeyVal) (val : Word),
   let v := (rx s a).toNat; let p := (rx s b).toNat
   ((cur s).priv = .s → 1 ≤ v → v ≤ 8191 → combOperand (ownCl (cur s)) p 64 = .ok (cl, o) → o + 64 ≤ spillBase s cl →
     (cur s).sb = [] → Does (.keyld a b) s fun t => (cur t).wait = .keyld v ∧ (cur t).pc = (cur s).pc ∧ XSame s t ∧
       ((∀ e ∈ s.home, e.2.key = v → fget s.latentL2 e.1 = none) → SameMem s t) ∧
       (∀ e ∈ t.home, e.2.key ≠ v) ∧ t.agenda = s.agenda ++ [.keyLoadDone s.cx] ∧
       fget t.keyReqs s.cx = some (v, .loaded (BitVec.ofNat 256 (combNat s cl o 32)) (BitVec.ofNat 256 (combNat s cl (o + 32) 32)))) ∧
   (fget s.keyReqs n = some (slot, k) → (ctxOf s n).wait = .keyld slot →
     exec (.keyLoadDone n) s = .next (nextAt { s with keys := fset s.keys slot k, keyReqs := fdel s.keyReqs n } n)) ∧
   ((cur s).priv = .s → fld v 28 4 = 0 → fld v 2 14 = 0 →
     (s.tlbBusy = false → exec (.tlbinv a) s = .next (later { park s .tlbinv with tlbBusy := true, tlbReq := some (rx s a, some s.cx) }
       .tlbinvDone)) ∧
     (s.tlbBusy = true → exec (.tlbinv a) s = .next (park s .tlbinv))) ∧
   (s.tlbBusy = false → hostShut s = false → exec (.tlbinvWrite val) s = .next (later { s with tlbBusy := true, tlbReq := some (val, none) } .tlbinvDone)) ∧
   (s.tlbBusy = true → hostShut s = false → exec (.tlbinvWrite val) s = .next { s with badacc := min (s.badacc + 1) 65535 }) ∧
   (s.tlbReq = some (val, some n) → (ctxOf s n).wait = .tlbinv → (∀ e ∈ s.ctxs, inFlight val.toNat e.2 = false) →
     Does .tlbinvDone s fun t => t.tlbBusy = false ∧ t.tlbReq = none ∧ (ctxOf t n).pc = (ctxOf s n).pc + 4 ∧
       (ctxOf t n).wait = .none ∧ SameMem s t ∧
       (∀ e ∈ t.cores, ∀ x ∈ e.2.tlb, tlbMatch val.toNat x = false) ∧ (∀ e ∈ t.dies, ∀ x ∈ e.2.llTlb, tlbMatch val.toNat x = false) ∧
       ∀ e ∈ t.clusters, ∀ x ∈ e.2.teTlb, tlbMatch val.toNat x = false))

/-- R177, R361, R379 to R384: AVLOAD asks for a copy and waits; AVSTART queues a start or waits for a place; AVSTOP
withdraws and halts; AVPOST adds a reference and an entry, or waits for room; AVSTAT reads the anvil's status.
The moment of AVLOAD is a reading of the model (log 58). -/
def Obligations.AnvilControl : Prop := ∀ (s t0 : State) (d a b : XReg) (av q cl i : Nat),
  let v := (rx s a).toNat; let w := (rx s b).toNat; let c := cur s; let an := avOf s av; let k := fld v 12 1
  let same (t : State) : Prop := XSame s t ∧ VSame s t ∧ MSame s t ∧ FlagsSame s t
  let on (t : State) : Prop := (cur t).pc = nextPc s ∧ (cur t).wait = .none ∧ same t
  (anvilNamed (w % 4096) 12 = .ok av → fld w 12 4 = 0 → w < 2 ^ 49 → 4 ≤ fld w 32 17 → fld w 16 16 + fld w 32 17 ≤ 65536 →
    v % 4 = 0 → fld w 16 16 % 4 = 0 → fld w 32 17 % 4 = 0 → avloadFirst s v (fld w 32 17) = .ok t0 → c.sb = [] →
    Does (.avload a b) s fun t => (cur t).wait = .avload av false ∧ (cur t).pc = c.pc ∧ same t ∧
      (avOf t av).loads = an.loads ++ [{ cxa := s.cx, asid := c.asid, priv := c.priv, clock := max c.pts (max c.mts c.mrts),
                                         va := resolved (ownCl c) v, off := fld w 16 16, len := fld w 32 17, copying := false }]) ∧
  (anvilNamed (v % 4096) 12 = .ok av → fld v 12 4 = 0 → v < 2 ^ 35 → v / 2 ^ 16 % 4 = 0 →
    (an.startq.length < 8 → Does (.avstart a b) s fun t => on t ∧ SameMem s t ∧ (avOf t av).startq = an.startq ++
      [{ pc := fld v 16 16, cls := fld v 32 2, notify := bit v 34, s0 := BitVec.ofNat 32 w, s1 := BitVec.ofNat 32 (w / 2 ^ 32),
         starter := nameOf c, seq := s.seq }]) ∧
    (8 ≤ an.startq.length → exec (.avstart a b) s = .next (park s (.avstart av)))) ∧
  (anvilNamed (v % 4096) 12 = .ok av → v < 2 ^ 14 → (cur s).wait = .none → Does (.avstop a) s fun t => on t ∧ SameMem s t ∧
    (avCtx (avOf t av) k).running = false ∧
    (avOf t av).startq = an.startq.filter fun r => !(bit v 13) || r.starter != nameOf c) ∧
  (handleReg (rx s a) = .ok (cl, i) → w < 2 ^ 12 → targetOf w = .ok (av, q) → (cellOf s cl i).cgen = handleGen v →
    (cellOf s cl i).st = .sealed → (cellOf s cl i).refcnt < 4095 →
    (0 < tqRoom s av q → Does (.avpost a b) s fun t => on t ∧ SameMem s t ∧
      cellOf t cl i = { cellOf s cl i with refcnt := (cellOf s cl i).refcnt + 1 } ∧
      (tqOf t av q).es = (tqOf s av q).es ++ [{ handle := BitVec.ofNat 32 v, flags := 2 * b2n (cellOf s cl i).zero, resv := none,
                                                num := (tqOf s av q).arrv }] ∧
      (tqOf t av q).arrv = ((tqOf s av q).arrv + 1) % 2 ^ 32) ∧
    (tqRoom s av q = 0 → exec (.avpost a b) s = .next (park s .seal))) ∧
  (anvilNamed (v % 4096) 12 = .ok av → v < 2 ^ 13 →
    let blocked (j : Nat) : Nat := b2n ((avCtx an j).running && (avCtx an j).wait != .none && !waitMet s av j)
    Puts (.avstat d a) s d (wd (if bit v 12 then ((List.range 8).map fun j => (an.qs[j]!).es.length * 2 ^ (7 * j)).sum
      else an.a.pc % 65536 * 2 ^ 48 + an.b.pc % 65536 * 2 ^ 32 + b2n an.a.running * 2 ^ 31 + b2n an.b.running * 2 ^ 30 +
        an.cur * 2 ^ 29 + blocked 0 * 2 ^ 28 + blocked 1 * 2 ^ 27 + an.startq.length * 2 ^ 23)))

/-- A COLLDONE that ends an operation ABORTED sets out: its reason, its tag, the time (R92). -/
def Sys2Proof.Safety.AbortSent (t : State) (o : CeOp) (reason gtc : Nat) : Prop :=
  ∃ n m, Instr.messageDelivery o.issuer m none ∈ t.agenda ∧ m.w1 = wd o.desc ∧
    m.w2 = wd (3 + reason * 2 ^ 8 + n % 2 ^ 11 * 2 ^ 16 + (viewOf t o.slot).vid * 2 ^ 32) ∧
    m.w3 = wd (o.tag % 2 ^ 32 + gtc % 2 ^ 32 * 2 ^ 32) ∧ o ∉ t.ceOps

/-- The sum of a subtree of the tree, `k` levels deep (R87). -/
def Sys2Proof.Safety.treeSum (o : CeOp) (inp : Nat → List Word) : Nat → Nat → List Word
  | 0, i => inp i
  | k + 1, i =>
    let l := if 2 * i + 1 < o.n then o.comb (inp i) (treeSum o inp k (2 * i + 1)) else inp i
    if 2 * i + 2 < o.n then o.comb l (treeSum o inp k (2 * i + 2)) else l

/-- R86: how elements enter a sum, add, and leave it. -/
def Sys2Proof.Safety.SumsRight : Prop := ∀ (o : CeOp) (ety a b n : Nat) (x y : List Word),
  let bits := if ety = 5 then 64 else 32; let f : Fmt := if ety = 3 then .f64 else .f32; let top := 2 ^ (f.width - 1)
  (o.op < 2 → o.comb x y = List.zipWith (fun p q => wd (ceAdd o.redop o.ety p.toNat q.toNat)) x y) ∧
  (2 ≤ o.op → o.comb x y = List.zipWith (fun p q => p ||| q) x y) ∧
  (ety = 4 ∨ ety = 5 →
    ceAdd 0 ety a b = (a + b) % 2 ^ bits ∧ ceAdd 1 ety a b = (a + b) % 2 ^ bits ∧
    (a < 2 ^ bits → b < 2 ^ bits → sgn bits (ceAdd 2 ety a b) = max (sgn bits a) (sgn bits b) ∧
      sgn bits (ceAdd 3 ety a b) = min (sgn bits a) (sgn bits b)) ∧
    (a < 2 ^ bits → (ceMean ety n a : Int) = (sgn bits a).tdiv n % 2 ^ bits) ∧ ceIn ety a = a ∧ ceOut ety a = a) ∧
  (ety < 4 →
    (∀ r < 2, ceAdd r ety a b = (farith f .rne .add a b).1) ∧
    (∀ r, r = 2 ∨ r = 3 → ((unpack f a).isNan = true ∨ (unpack f b).isNan = true → ceAdd r ety a b = f.nanBits) ∧
      ((unpack f a).isNan = false → (unpack f b).isNan = false → ceAdd r ety a b = (fminmax f (r == 2) a b).1)) ∧
    ceAdd 2 ety 0 top = 0 ∧ ceAdd 2 ety top 0 = 0 ∧ ceAdd 3 ety 0 top = top ∧ ceAdd 3 ety top 0 = top ∧
    ceMean ety n a = (farith f .rne .div a (packIeee f .rne (ofInt n)).1).1 ∧
    (ety = 1 → (IsNum (unpack .bf16 a) → ratOf (unpack .f32 (ceIn ety a)) = ratOf (unpack .bf16 a)) ∧
      ceOut ety a = (packIeee .bf16 .rne (unpack .f32 a)).1) ∧
    (ety = 2 → (IsNum (unpack .fp16 a) → ratOf (unpack .f32 (ceIn ety a)) = ratOf (unpack .fp16 a)) ∧
      ceOut ety a = (packIeee .fp16 .rne (unpack .f32 a)).1) ∧
    (ety = 0 ∨ ety = 3 → ceIn ety a = a ∧ ceOut ety a = if (unpack f a).isNan then f.nanBits else a)) ∧
  (o.op < 2 → o.bytes x = x.flatMap fun w => leBytes (esize o.ety)
    (ceOut o.ety (if o.redop = 1 then ceMean o.ety o.n w.toNat else w.toNat))) ∧
  (2 ≤ o.op → o.bytes x = x.flatMap fun w => leBytes (esize o.ety) w.toNat)

/-- R87: what a member does in the tree and in the ring with what it has, and when it has its result. -/
def Sys2Proof.Safety.StepsRight : Prop := ∀ (s : State) (o : CeOp) (inp v : Nat → List Word) (k c : Nat) (es : List Word) (d : CeData),
  let n := o.n; let r := rankIn o.live s.devid; let at_ (i : Nat) := o.live.getD i 0
  let len (c : Nat) := o.count / n + if c < o.count % n then 1 else 0
  let cut (l : List Word) (c : Nat) := (l.drop (c * (o.count / n) + min c (o.count % n))).take (len c)
  let down := ([2 * r + 1, 2 * r + 2].filter fun i => decide (i < n)).foldl (fun t i =>
    ceTo t o (at_ i) (o.data .done 0 true (o.rk 0) n es)) s
  (ceGet s o.id = some o → o.held = false → o.reweight = false → o.changed = false → o.ready = true →
    (o.tree = true →
      (o.sent = [] → o.chunks = [] → o.inp.length = o.inLen s.devid → inp r = o.place s.devid →
        (∀ i, i = 2 * r + 1 ∨ i = 2 * r + 2 → i < n → ∃ d, o.parts.find? (fun d => d.tree && d.first == o.rk i) = some d ∧
          d.elems = treeSum o inp k i) → es = treeSum o inp (k + 1) r →
        (r ≠ 0 → ceRun s o.id = cePut (ceTo s o (at_ ((r - 1) / 2)) (o.data .part 0 true (o.rk r) (subtree n 11 r) es))
          { o with sent := [0] }) ∧
        (r = 0 → ceRun s o.id = ceFinish down { o with chunks := [(0, es)], sent := [0, 1] } (if o.op = 1 then cut es 0 else es))) ∧
      (o.sent = [0] → o.chunks = [(0, es)] → ceRun s o.id =
        ceFinish down { o with sent := [0, 1] } (if o.op = 1 then cut es r else es))) ∧
    (o.tree = false → r < n → (∀ c < n, 2 * c ∈ o.sent) → (∀ p ∈ o.chunks, 2 * p.1 + 1 ∈ o.sent) →
      (o.op = 0 ∨ o.op = 3 → (∀ c < n, fget o.chunks c = some (v c)) → ceRun s o.id = ceFinish s o ((List.range n).flatMap v)) ∧
      (o.op = 1 → fget o.chunks r = some (v r) → ceRun s o.id = ceFinish s o (v r)) ∧
      (o.op = 2 → (∀ c < n * n, fget o.chunks c = some (v c)) → ceRun s o.id = ceFinish s o ((List.range (n * n)).flatMap v)))) ∧
  (o.changed = false → c < n → 2 * c ∉ o.sent → let org := (c + 1) % n; let k := (r + n - org) % n
    let find := o.parts.find? fun d => d.chunk == c && !d.tree && d.first == o.rk org && d.cover == k
    let marked := { o with sent := nins o.sent (2 * c) }
    let sums (l : List Word) : Prop :=
      (r = c → ringReduce s o c = (s, .ok { marked with chunks := fset o.chunks c l })) ∧
      (r ≠ c → ringReduce s o c = (ceTo s o (at_ ((r + 1) % n)) (o.data .part c false (o.rk org) (k + 1) l), .ok marked))
    (r = org → sums (cut o.inp c)) ∧ (r ≠ org → find = none → ringReduce s o c = (s, .ok o)) ∧
    (r ≠ org → find = some d → sums (o.comb d.elems (cut o.inp c)))) ∧
  (fget o.chunks c = some es → 2 * c + 1 ∉ o.sent → o.op ≠ 1 →
    let start := if o.op = 3 then rankIn o.live o.root else if o.op = 2 then c / n else c
    ((r + 1) % n = start → ringPass s o c = (s, o)) ∧
    ((r + 1) % n ≠ start → ringPass s o c =
      (ceTo s o (at_ ((r + 1) % n)) (o.data .done c false (o.rk start) n es), { o with sent := nins o.sent (2 * c + 1) }))) ∧
  (o.changed = false → o.inp.length = o.count → (o.op = 2 ∨ (o.op = 3 ∧ o.root = s.devid)) → o.chunks = [] → 0 < n →
    ∃ p, ringOwn s o = (s, .ok p) ∧ { p with chunks := [] } = o ∧ ∀ c < n, fget p.chunks ((if o.op = 2 then r * n else 0) + c) = some (cut o.inp c)) ∧
  rangeWord true k c = 2 ^ 31 + c % 2048 * 1024 + k % 1024 ∧ rangeWord false k c = c % 2048 * 1024 + k % 1024

/-- R85, R92: with its result an operation writes OUTPUT and sends COLLDONE with its status and the contributors; a fault ends it
ABORTED. -/
def Sys2Proof.Safety.FinishRight : Prop := ∀ (s z : State) (o : CeOp) (es : List Word) (qs : List Part),
  let t := ceFinish s o es; let bs := o.bytes es; let status := if o.changed = false then 0 else if o.policy = 1 then 2 else 1
  o.past = false →
  (tePieces s o.own (ceCmd o) o.output bs.length .write = (z, .ok qs) → Writable s z o.output qs → CleanMem s →
    Lands s t qs bs ∧ (∀ p ∈ t.ceOps, p.id ≠ o.id) ∧ ∃ w d, Instr.messageDelivery o.issuer ⟨w, wd o.desc,
      wd (status + o.n % 2 ^ 11 * 2 ^ 16 + (viewOf s o.slot).vid * 2 ^ 32), wd (o.tag % 2 ^ 32 + s.gtc % 2 ^ 32 * 2 ^ 32), d⟩ none ∈ t.agenda) ∧
  (∀ e, tePieces s o.own (ceCmd o) o.output bs.length .write = (z, .error (.inr e)) → t = ceAbort (cePut z o) o 8)

/-- R89 to R91: what the install of a view does to an operation; a rerun starts from nothing; what a combiner of R90 keeps and
adds. -/
def Sys2Proof.Safety.ChangesRight : Prop := ∀ (s : State) (o q : CeOp) (c me : Nat) (mine : List Word) (range : List Nat) (d : CeData)
    (part : Nat → CeData),
  let live := o.start.filter fun d => inView (viewOf s o.slot).view d; let p := { o with live := live, ran := (viewOf s o.slot).vid }
  let n := o.start.length; let sound (e : CeData) : Prop := e ∈ o.parts ∧ e.chunk = c ∧ e.tree = false ∧ e.first = (c + 1) % n ∧
    ∀ i < e.cover, (e.first + i) % n ∈ o.ranks
  let rest := ((List.range n).map fun i => (c + 1 + i) % n).filter fun r => decide (r ∈ o.ranks ∧ r ∉ range)
  let part_ (r : Nat) : List Word := if r = me then mine else (part r).elems
  (o.policy = 2 → ceChange s o = ceAbort s p 1) ∧
  (o.policy ≠ 2 → (o.op = 1 ∨ o.op = 2 → ceChange s o = ceAbort s p 3) ∧ (o.op = 3 → o.root ∉ live → ceChange s o = ceAbort s p 4) ∧
    ((o.op = 3 ∧ o.root ∈ live) ∨ o.op = 4 ∨ (o.op = 0 ∧ (o.policy ≠ 1 ∨ 2 ≤ o.redop ∨ p.tree = true)) → ceChange s o = ceRerun s p) ∧
    (o.op = 0 → o.policy = 1 → o.redop < 2 → p.tree = false → ∃ t u, ceChange s o = ceRun (cePut t u) o.id ∧ u.reweight = true ∧
      u.changed = true ∧ u.live = live ∧ u.parts = o.parts ∧ u.chunks = (if ∀ d ∈ o.live, d ∈ live then o.chunks else []) ∧ u.sent = [])) ∧
  (ceGet s o.id = some q → ∃ t, ceRerun s o = ceRun t o.id ∧ SameMem s t ∧ ceGet t o.id = some { o with
    changed := true, reweight := false, ready := false, inp := [], parts := [], got := [], pieces := [], chunks := [], sent := [] }) ∧
  (keptOf o c = some d → sound d ∧ ∀ e, sound e → e.cover ≤ d.cover) ∧ (keptOf o c = none → ∀ e, ¬sound e) ∧
  ((∀ r ∈ rest, r ≠ me → o.got.find? (fun p => p.1 == r && p.2.chunk == c && p.2.kind == .part) = some (r, part r)) →
    (range ≠ [] → keptOf o c = some d → ceCombined o c range me mine = some ((rest.map part_).foldl o.comb d.elems)) ∧
    (range = [] → ceCombined o c range me mine = some ((rest.map part_).tail.foldl o.comb ((rest.map part_).headD []))))

/-- R81, R82, R84, R85, R385: COLL releases and hands the operation of its descriptor to the CE, which holds it while the
slot forms or changes, starts it in an ACTIVE view, and ends it ABORTED for a bad descriptor or another slot; 32 operations
fill the CE.

R86 to R92: the arithmetic, the steps of the tree and of the ring with the ranges their packets carry, what OUTPUT holds and
COLLDONE says at the end, and what a view change makes of an operation.
Reasons for a bad ROOT or OUTPUT, when an operation is held, and what members tell each other to find a holder, are readings of
the model (log 52, log 9). -/
def Obligations.Collectives : Prop := (SumsRight ∧ StepsRight ∧ FinishRight ∧ ChangesRight) ∧ ∀ (s : State) (a : XReg) (cl o : Nat),
  let adr := (rx s a).toNat; let own := ownCl (cur s); let c := { cur s with pts := max (cur s).pts (cur s).mts }
  let w := combNat s cl o 64; let op : CeOp := { ceOpOf s own adr w with clock := c.pts }; let v := viewOf s op.slot
  let on (t : State) : Prop := (cur t).pc = nextPc s ∧ (cur t).wait = .none ∧ (cur t).pts = c.pts ∧ XSame s t ∧ VSame s t ∧ MSame s t
  combOperand own adr 64 = .ok (cl, o) → o + 64 ≤ spillBase s cl → releaseStep s .dev = .done →
  let running := s.ceOps.filter fun q => !q.past
  (32 ≤ running.length → Does (.coll a) s fun t => (cur t).wait = .coll ∧ (cur t).pc = (cur s).pc ∧ XSame s t ∧ SameMem s t ∧
    t.ceOps = s.ceOps) ∧
  (running.length < 32 → (∀ x ∈ wordsOf o 64, x ∉ (clOf s cl).latent ∧ x ∉ (clOf s cl).soft) →
    (combLoadOk s adr cl o 64 = .ok () →
      (ceBad op w = true → Does (.coll a) s fun t => on t ∧ AbortSent t op 9 s.gtc) ∧
      (ceBad op w = false →
        (v.st = .forming ∨ v.st = .changing ∨ (v.st = .active ∧ v.holdColl = true) →
          Does (.coll a) s fun t => on t ∧ SameMem s t ∧ t.ceOps = s.ceOps ++ [op]) ∧
        (v.st = .free → Does (.coll a) s fun t => on t ∧ AbortSent t op 7 s.gtc) ∧
        (v.st = .stalled → Does (.coll a) s fun t => on t ∧ AbortSent t op 2 s.gtc) ∧
        (v.st = .excluded → Does (.coll a) s fun t => on t ∧ AbortSent t op 6 s.gtc) ∧
        (v.st = .active → v.holdColl = false → op.viewid ≠ 0 → op.viewid ≠ v.vid →
          Does (.coll a) s fun t => on t ∧ AbortSent t op 7 s.gtc) ∧
        (v.st = .active → v.holdColl = false → op.viewid = 0 ∨ op.viewid = v.vid → exec (.coll a) s =
          .next (ceStart { next (modCur s fun _ => c) with ceOps := s.ceOps ++ [op], seq := s.seq + 1 } op)))) ∧
    (∀ e, combLoadOk s adr cl o 64 = .error e → Does (.coll a) s fun t => on t ∧ AbortSent t op 8 s.gtc))

/-- R25, R26, R27, R386, R387: VIEWGET reads VSTAT and VID of a slot or the member of a rank; MTRAP sets the mask and
discards what it shuts out; ADMIT of 0 asks for nothing, another ADMIT is granted at once where the level allows it and
waits at its bellows where it does not. That VIEWGET ignores the bits of rs1 beyond its fields is a reading of the model
(log 55). -/
def Obligations.ViewAndAdmit : Prop := ∀ (s : State) (d a b : XReg),
  let x := rx s a; let v := x.toNat; let l := (rx s b).toNat; let c := cur s; let die := clDie (slotCl s.cx)
  let k := min v 16384; let eu := k * (l + 1); let e := dieOf s die
  let fits : Prop := s.gtcRun = true ∧ 0 ≤ e.level ∧ if c.cls = 0 then (eu : Int) ≤ e.level else (12 * e.b : Int) ≤ 100 * (e.level - eu)
  let slot := viewOf s (v % 16)
  Puts (.viewget d a) s d (if bit v 4 then ((slot.view[fld v 16 10]?).map memberWord).getD 0
    else wd (vstat s (v % 16) * 2 ^ 32 + slot.vid)) ∧
  (v < 2 ^ 16 → Sets (.mtrap a) s fun c =>
    { c.goto (c.pc + 4) with mtrapm := BitVec.ofNat 16 v, pendView := c.pendView &&& BitVec.ofNat 16 v }) ∧
  (2 ^ 16 ≤ v → CanTrap s → Does (.mtrap a) s fun t => Trapped s t 0x16 v) ∧
  (c.grant = none → v < 2 ^ 32 → l ≤ 3 →
    (v = 0 → Does (.admitS a b) s fun t => PcResult s t (nextPc s)) ∧
    (v ≠ 0 → e.reqs = [] → c.cls < 4 →
      (fits → Does (.admitS a b) s fun t => (cur t).grant = some { left := eu, endCyc := cycOf s s.cx + k } ∧
        (cur t).pc = nextPc s ∧ (cur t).wait = .none ∧ XSame s t ∧ VSame s t ∧ MSame s t ∧ SameMem s t ∧
        (dieOf t die).level = e.level - eu ∧ (dieOf t die).reqs = []) ∧
      (¬fits → Does (.admitS a b) s fun t => (cur t).wait = .forGrant ∧ (cur t).pc = c.pc ∧ XSame s t ∧ VSame s t ∧ MSame s t ∧
        SameMem s t ∧ (dieOf t die).level = e.level ∧
        (dieOf t die).reqs = [{ who := .ctx s.cx, cls := c.cls, n := k, lvl := l, win := e.win,
                                mesh := max (meshCyc s) e.nextMesh, src := holderSrc s (.ctx s.cx) }])))

/-! ## Events of memory -/

/-- A line of HBM stands in the L2 under the key its contents were written with, in a set of at most 16 ways (R215), and no
error waits in it. -/
def Sys2Proof.Safety.HeldLine (s : State) (p : Part) (h : Home) : Prop :=
  isHbm p.pa = true ∧ fget s.home p.line = some h ∧ h.key = p.key ∧ fget s.keys p.key = some (lineKeyOf s p.line) ∧
  p.line ∉ s.poison ∧ fget s.latent p.line = none ∧ fget s.latentL2 p.line = none ∧ p.pa % 64 + p.n ≤ 64 ∧ p.at_ = 0 ∧
  (l2SetOf { s with home := fset s.home p.line h } p.line).length ≤ 16

/-- R206, R207, R237, R336, R337: an AMO alone in its buffer executes: the new value stands in memory, rd receives the old
one, and the clocks cover the timestamp; one with destination x0 outside comb ends no wait; at an EMPTY comb word it is
deferred while there is room, and its context parks from then on, or goes on with destination x0. In host memory the host executes it, and its completion brings the old value, or the trap PROT (R109). Nothing
leaves the buffer before an earlier load has returned (R235).
An AMO that the host refuses traps with a write in TVAL: a reading of the model (log 25). -/
def Obligations.AtomicsExecute : Prop := ∀ (s : State) (n rd w va : Nat) (op : AmoOp) (b ex old : Word) (e : SbEntry) (p : Part) (h : Home),
  let c := ctxOf s n; let ts := max e.pts (h.rts + 1)
  c.sb = [e] → e.kind = .amo op w b ex rd → e.parts = [p] → p.n = w → w = 4 ∨ w = 8 → c.dying = false → rd < 32 → p.at_ = 0 →
  (sbMayLeave c 0 = false → exec (.amoExecute n) s = .next (later s (.amoExecute n))) ∧
  (sbMayLeave c 0 = true →
  let o := leNat (memRead s.mem p.pa w)
  let performs (t : State) (o : Nat) : Prop := memRead t.mem p.pa w = leBytes w (amoVal op w o b.toNat ex.toNat) ∧
    SameMemBut s t p.pa w ∧ (ctxOf t n).sb = []
  let ends (t : State) (o : Nat) : Prop := performs t o ∧ (ctxOf t n).wait = .none ∧ (ctxOf t n).pc = c.pc + 4 ∧
    ∀ r : XReg, (ctxOf t n).getX r = if r.val = rd ∧ r ≠ 0 then amoRd w o else c.getX r
  let passes (t : State) (o : Nat) : Prop := performs t o ∧ (ctxOf t n).wait = c.wait ∧ (ctxOf t n).pc = c.pc ∧
    ∀ r : XReg, (ctxOf t n).getX r = c.getX r
  (HeldLine s p h → biBlocks s p.line = false → Does (.amoExecute n) s fun t =>
    (rd ≠ 0 → c.wait = .amo rd w va → ends t o) ∧ (rd = 0 → passes t o) ∧
    (ctxOf t n).mts = max c.mts ts ∧ (ctxOf t n).mrts = max c.mrts ts) ∧
  (c.wait = .amo rd w va → p.isComb = true → boundTo s p.combCl p.combOff = none → p.combOff % w = 0 →
    p.combOff / 8 ∉ (clOf s p.combCl).poison → p.combOff / 8 ∉ (clOf s p.combCl).latent →
    p.combOff / 8 ∉ (clOf s p.combCl).soft →
    (p.combOff / 8 ∉ (clOf s p.combCl).empty → Does (.amoExecute n) s fun t => ends t o) ∧
    (p.combOff / 8 ∈ (clOf s p.combCl).empty → let room := deferHeld s p.combCl (bankOf p.combOff) < 32
      Does (.amoExecute n) s fun t => SameMem s t ∧ (ctxOf t n).sb = [] ∧
        (ctxOf t n).wait = (if rd = 0 ∧ room then .none else .combAmo rd w va) ∧
        (ctxOf t n).pc = (if rd = 0 ∧ room then c.pc + 4 else c.pc) ∧
        ∃ d, (clOf t p.combCl).defer = (clOf s p.combCl).defer ++ [d] ∧ d.off = p.combOff ∧ d.op = op ∧
          d.b = b ∧ d.who = (if rd = 0 ∧ room then .nobody else .ctx n rd) ∧ (d.entered = true ↔ room))) ∧
  (p.isComb = false → isHbm p.pa = false →
    (fget s.latentL2 p.line = none → Does (.amoExecute n) s fun t => SameMem s t ∧ fget t.home p.line = none ∧ ctxOf t n = c) ∧
    Does (.atomicopCompletion n true old) s (fun t =>
      (rd ≠ 0 → c.wait = .amo rd w va → ends t (old.toNat % 2 ^ (8 * w))) ∧ (rd = 0 → passes t (old.toNat % 2 ^ (8 * w)))) ∧
    (c.wait = .amo rd w va → rd ≠ 0 → c.active = true → c.priv = .u → c.tl = 0 → c.tvec ≠ 0 →
      Does (.atomicopCompletion n false old) s fun t => (ctxOf t n).tl = 1 ∧ (ctxOf t n).tepc1 = c.pc ∧ (ctxOf t n).pc = c.tvec ∧
        fld (ctxOf t n).tcause1.toNat 0 8 = 0x05 ∧ (ctxOf t n).tval1 = wd (protTrap e.va .amo false).tval ∧
        (∀ r : XReg, (ctxOf t n).getX r = c.getX r) ∧ SameMem s t)))

/-- R205, R211, R217, R234, R235, R237: the one entry of a buffer performs: its bytes, and no others, stand in memory; at a
home the store takes the next timestamp and MTS covers it; a CPUT makes its row valid and CTS covers MTS.

R233, R240, R241: the data of an LDA that waited for one line comes back: rd receives the bytes, the home's lease is renewed,
MRTS covers its timestamp, an acquire moves PTS, and the next instruction follows; an LDA.F passes the read timestamp of the
copy its L1 holds first. The data of an outstanding load does the
same to rd, unless a younger instruction has written that, to the lease and to MRTS, whatever the context is at meanwhile; the
home renews once for all the loads it combines, to the largest of their clocks (R220). -/
def Obligations.StoresPerformAndLoadsReturn : Prop :=
  (∀ (s : State) (n cl i off : Nat) (e : SbEntry) (p : Part) (h : Home),
   let c := ctxOf s n; let ts := max e.pts (h.rts + 1)
   c.sb = [e] → e.parts = [p] → p.n = e.bytes.length → p.at_ = 0 → c.dying = false →
   (sbMayLeave c 0 = false → exec (.storePerform n) s = .next (later s (.storePerform n))) ∧
   (sbMayLeave c 0 = true →
   let stored (t : State) : Prop := memRead t.mem p.pa p.n = e.bytes ∧ SameMemBut s t p.pa p.n ∧ (ctxOf t n).sb = [] ∧
     (ctxOf t n).pc = c.pc ∧ (∀ r, (ctxOf t n).getX r = c.getX r) ∧ ∀ k, k ≠ n → ctxOf t k = ctxOf s k
   (e.kind = .store → p.isComb = true → Does (.storePerform n) s fun t => stored t ∧ (ctxOf t n).mts = c.mts) ∧
   (e.kind = .cput cl i off → p.isComb = true → e.counted = [(cl, i, (cellOf s cl i).cgen)] →
     Does (.storePerform n) s fun t => stored t ∧ (cellOf t cl i).cts = max (cellOf s cl i).cts c.mts ∧
       (cellOf t cl i).valid = (cellOf s cl i).valid ||| BitVec.ofNat 32 (2 ^ (off / ((cellOf s cl i).pitch * 16))) ∧
       (cellOf t cl i).counted = (cellOf s cl i).counted - 1) ∧
   (e.kind = .store → HeldLine s p h → biBlocks s p.line = false → Does (.storePerform n) s fun t => stored t ∧
     (ctxOf t n).mts = max c.mts ts ∧
     ∃ g, fget t.home p.line = some g ∧ g.wts = ts ∧ g.rts = ts ∧ g.dirty = true ∧ g.cls = h.cls) ∧
   (e.kind = .store → p.isComb = false → biBlocks s p.line = true → Does (.storePerform n) s fun t =>
     (ctxOf t n).sb = [e] ∧ SameMem s t ∧ ∃ b, fget t.backInv p.line = some b ∧ .storePerform n ∈ b.retry))) ∧
  (∀ (s : State) (n : Nat) (p : Part) (h : Home) (r : LoadReq) (q : Option (List Byte × Nat)) (acq : Option Scope),
   let c := ctxOf s n
   c.wait = .load r acq → c.loads = [] → r.parts = [p] → r.got = [q] → r.missing = [p] → r.sent = true →
   HeldLine s p h → biPending s p.line = false →
   let pts := if r.force && p.cached then ((l1Get (coreOf s (slotCore n)).l1d p.line).map fun k => max c.pts (k.rts + 1)).getD c.pts
     else c.pts
   let bytes := (q.map Prod.fst).getD (memRead s.mem p.pa p.n)
   let c1 := { c.putLoad r.dst bytes with mrts := max c.mrts h.wts, pts := pts }
   Does (.loadReturn n) s fun t => SameMem s t ∧
     ctxOf t n = (match acq with | some sc => c1.acquire sc 0 | none => c1).goto (c.pc + 4) ∧ (∀ k, k ≠ n → ctxOf t k = ctxOf s k) ∧
     ∃ g, fget t.home p.line = some g ∧ g.wts = h.wts ∧ g.rts = max h.rts (pts + leaseOf s h.cls)) ∧
  (∀ (s : State) (n : Nat) (p : Part) (h : Home) (r : LoadReq),
   let c := ctxOf s n; let l := (combined s n r).1
   c.loads = [r] → r.parts = [p] → r.got = [none] → r.sent = true → r.force = false → (∀ q g b, c.wait ≠ .fetch q g b) →
   HeldLine s p h → biPending s p.line = false →
   Does (.loadReturn n) s fun t => SameMem s t ∧
     ((∀ q ∈ l, q.1 ≠ n) → ctxOf t n = { (if r.dead = none then c.putBack r (memRead s.mem p.pa p.n) else c) with
       mrts := max c.mrts h.wts, loads := [] }) ∧
     (∀ k, k ≠ n → (∀ q ∈ l, q.1 ≠ k) → ctxOf t k = ctxOf s k) ∧ (∀ q ∈ l, h.wts ≤ (ctxOf t q.1).mrts) ∧
     ∃ g, fget t.home p.line = some g ∧ g.wts = h.wts ∧
       g.rts = max h.rts (l.foldl (fun m q => max m (ctxOf s q.1).pts) c.pts + leaseOf s h.cls))

/-- R41, R43, R103 to R108, R117, R249: the scrubber finds what a line hides; the host reads a line's home value and the line
enters the directory, or waits until a victim's entry has gone; the host writes at home, HTS covering the timestamp; a host
address that no decoder claims, and any in BOOT_FAIL, reaches nothing; a line it reads stands under key slot 0 from then on
(R216); BIRsp clears the directory entry and lets what waited perform, before what came later; a late one is recorded once; a
snoop writes a host line back, or takes it away, and the host then writes it (R249).
Latent errors are inputs of the model (log 19); a write of no bytes or over the end of a line is none, and the bytes a host
write leaves are free (log 37). -/
def Obligations.HostMemory : Prop := ∀ (s : State) (line block off : Nat) (bs : List Byte), let hpa := hostAddr block off
  Does (.patrolScrub line) s (fun t => t.scrub = line ∧ fget t.latent line = none ∧ t.home = s.home ∧ t.ctxs = s.ctxs ∧
    (∀ l, l ≠ line → fget t.latent l = fget s.latent l) ∧
    t.poison = match fget s.latent line with | some (.uncorrectable _) => nins s.poison line | _ => s.poison) ∧
  (hostShut s = true ∨ hdmPa s (hpa / 64 * 64) 64 = none → exec (.hdmRead block off) s = .next s) ∧
  (∀ pa, hostShut s = false → hdmPa s (hpa / 64 * 64) 64 = some pa →
    (dirVictim s (pa / 64) = none → Does (.hdmRead block off) s fun t => pa / 64 ∈ t.hostDir ∧ (∀ l ∈ s.hostDir, l ∈ t.hostDir) ∧
      t.home = (match fget s.home (pa / 64) with
        | none => s.home
        | some h => if h.key = 0 then s.home else fset s.home (pa / 64) { h with key := 0, dirty := false }) ∧
      t.ctxs = s.ctxs ∧ (∀ b, fget s.backInv (pa / 64) = some b →
        fget t.backInv (pa / 64) = some { b with since := s.gtc, reported := false }) ∧
      (fget s.latent (pa / 64) = none → fget s.latentL2 (pa / 64) = none → SameMem s t ∧ t.hostRd = readUnder s 0 pa 64 ∧
        (pa % 64 = 0 → fget s.keys 0 = some (lineKeyOf s (pa / 64)) → t.hostRd = memRead s.mem pa 64))) ∧
    (∀ v, dirVictim s (pa / 64) = some v → Does (.hdmRead block off) s fun t => t.hostDir = s.hostDir ∧ t.home = s.home ∧ SameMem s t ∧
      ∃ b, fget t.backInv v = some b ∧ .hdmRead block off ∈ b.retry)) ∧
  (hostShut s = true ∨ hdmPa s hpa bs.length = none → exec (.hdmWrite block off bs) s = .next s) ∧
  (∀ pa, hostShut s = false → hdmPa s hpa bs.length = some pa → bs = [] ∨ 64 < pa % 64 + bs.length →
    exec (.hdmWrite block off bs) s = .next s) ∧
  (∀ pa h, hostShut s = false → hdmPa s hpa bs.length = some pa → bs ≠ [] → pa % 64 + bs.length ≤ 64 →
    Does (.hdmWrite block off bs) s (fun t => memRead t.mem pa bs.length = bs ∧ s.hts ≤ t.hts ∧ t.ctxs = s.ctxs) ∧
    (HeldLine s { pa := pa, n := bs.length, at_ := 0, key := 0, cls := 0, sys := false } h → Does (.hdmWrite block off bs) s fun t =>
      memRead t.mem pa bs.length = bs ∧ SameMemBut s t pa bs.length ∧ t.hts = max s.hts (h.rts + 1) ∧
      ∃ g, fget t.home (pa / 64) = some g ∧ g.wts = h.rts + 1 ∧ g.rts = h.rts + 1)) ∧
  (fget s.backInv line = none → exec (.birsp line) s = .next s ∧ exec (.biTimeout line) s = .next s) ∧
  (∀ b, fget s.backInv line = some b →
    exec (.birsp line) s = .next { s with backInv := fdel s.backInv line, hostDir := s.hostDir.filter (· != line),
                                          agenda := b.retry ++ s.agenda } ∧
    (b.reported = true ∨ s.gtc < b.since + 1000000 → exec (.biTimeout line) s = .next s) ∧
    (b.reported = false → b.since + 1000000 ≤ s.gtc → Does (.biTimeout line) s fun t =>
      fget t.backInv line = some { b with reported := true } ∧ t.hostDir = s.hostDir ∧ t.ctxs = s.ctxs ∧
      (s.evq.en = false → s.evq.held.length < 256 → t.evq.held = s.evq.held ++ [record 64 [(0, 8, s.gtc),
        (8, 2, unitSrc 2 (sliceOf s line)), (10, 2, s.devid), (12, 1, 0x25), (16, 8, 64 * line)]]))) ∧
  (isHostLine line = false → ∀ inv, exec (.hostSnoop line inv) s = .next s) ∧
  (isHostLine line = true → fget s.home line = none → exec (.hostSnoop line false) s = .next s ∧
    Does (.hostSnoop line true) s fun t => fget t.home line = none ∧ SameMemBut s t (64 * line) 64 ∧ t.ctxs = s.ctxs) ∧
  (∀ h, isHostLine line = true → fget s.home line = some h →
    exec (.hostSnoop line false) s = .next { s with home := fset s.home line { h with dirty := false } } ∧
    Does (.hostSnoop line true) s fun t => fget t.home line = none ∧ line ∉ t.poison ∧ t.ctxs = s.ctxs ∧
      h.rts + 1 ≤ (fget t.sliceTs (sliceOf s line)).getD 0 ∧ (fget s.latentL2 line = none → SameMemBut s t (64 * line) 64))

/-! ## Messages, traps and timers -/

/-- R152, R165, R166, R168, R171, R188: a message reaches the mailbox of its active context, and its sender goes on, a class-0
sender with what that changes of it; with no such
context it returns or is a dead letter; the handler enters at MHVEC + 0x20 × class under the shadow bank; an asynchronous
trap is taken at a boundary; a freed tile queue lets a seal try again.
That the handler is level-triggered, and that what an accepted send changes it changes only then, are readings of the model
(log 41, log 43). -/
def Obligations.MessageEvents : Prop := ∀ (s : State) (n k name : Nat) (m : Msg) (l r : List Msg),
  let c := ctxOf s n
  let accepted (d : Ctx) : Ctx := match d.pledge with
    | none => d.goto (d.pc + 4)
    | some p => { d.goto (d.pc + 4) with
        pledge := none, lastC0 := if p.demoted || !p.c0 then d.lastC0 else some p.gtc, c0Short := (p.demoted || !p.c0) && d.c0Short,
        nxtdl := if p.dl then 0 else d.nxtdl, pts := (match p.rel with | some sc => (d.released sc).pts | none => d.pts) }
  (n = name % 2 ^ 15 → name < 2 ^ 28 → holds s n name = true → fwdEntry s name = none → c.mailbox.length < 8 →
    (∀ j, ∀ e ∈ (clOf s j).spill, e.dest ≠ name) → c.wait = .none →
    exec (.messageDelivery name m none) s = .next (modCtx s n fun d => { d with mailbox := d.mailbox ++ [m] }) ∧
    (k ≠ n → (ctxOf s k).wait = .send name m false → Does (.messageDelivery name m (some k)) s fun t =>
      ctxOf t n = { c with mailbox := c.mailbox ++ [m] } ∧ ctxOf t k = accepted (ctxOf s k) ∧
      (∀ j, j ≠ k → j ≠ n → ctxOf t j = ctxOf s j) ∧ SameMem s t ∧
      (clOf t (slotCl k)).demoted = (match (ctxOf s k).pledge with
        | some p => if p.demoted then min ((clOf s (slotCl k)).demoted + 1) 0xFFFF else (clOf s (slotCl k)).demoted
        | none => (clOf s (slotCl k)).demoted))) ∧
  (name < 2 ^ 28 → holds s (name % 2 ^ 15) name = false → fwdEntry s name = none → savedAs s name = none → msgFromUnit m = false →
    msgIsBounce m = false → msgIsRemote m = false → Does (.messageDelivery name m none) s fun t => ∃ q, t.agenda = s.agenda ++
      [.messageDelivery (msgSource m) q none] ∧ msgSource q = name ∧ msgIsBounce q = true ∧ q.w1 = m.w1 ∧ q.w2 = m.w2 ∧ q.w3 = m.w3) ∧
  (c.active = true → c.wait = .none → handlerDue c = true → asyncDue s n = none → c.mailbox = l ++ m :: r →
    (∀ j ∈ l ++ r, msgCls m ≤ msgCls j) → (∀ j ∈ l, msgCls j ≠ msgCls m) →
    exec (.messageHandlerEntry n) s = .next (modCtx s n fun d => { d with
      mepc := d.pc, mhInh := true, pc := d.mhvec + wd (0x20 * msgCls m), msgdev := if msgIsRemote m then m.dev else s.devid,
      waitSince := none, parked := false })) ∧
  (c.active = true → c.priv = .u → c.tl = 0 → c.tvec ≠ 0 → c.wait = .none → c.loads = [] → c.faultDone = none → c.fencing = false →
    c.ranTrap = true →
    let enter (cause tval : Nat) (d : Ctx) : Ctx := { d with
      wait := .none, waitSince := none, parked := false, fencing := false, pledge := none, tl := 1, tepc1 := d.pc, tval1 := wd tval,
      tcause1 := wd (cause + 256 + 512 * b2n d.mhInh), pc := d.tvec }
    (c.pendMask = true → exec (.asyncTrap n) s = .next (modCtx s n fun d => enter 0x0A 0 { d with pendMask := false })) ∧
    (c.pendMask = false → k < 16 → c.pendView.getLsbD k = true → (∀ j < k, c.pendView.getLsbD j = false) →
      exec (.asyncTrap n) s = .next (modCtx s n fun d => enter 0x0B ((viewOf s k).vid + k * 2 ^ 32)
        { d with pendView := d.pendView &&& ~~~(BitVec.ofNat 16 (2 ^ k)) })) ∧
    (c.pendMask = false → c.pendView = 0 → c.pendDl = true → exec (.asyncTrap n) s = .next (modCtx s n fun d =>
      enter 0x17 ((c.deadline.map DeadlineRec.gtc).getD 0) { d with pendDl := false }))) ∧
  (c.wait = .seal → exec (.sealQueueRoom n) s = .next (modCtx s n fun d => { d with wait := .none }))

/-- R128, R129, R169, R171, R206, R212, R238, R334: what each timer does when it is due: drift raises PTS by 1, a mask held
4,096 cycles is cleared and its trap made pending, a deadline is recorded once and its trap made pending, a wait at its limit
ends in its trap with ABND, a cell seals itself with TIMEOUT and posts to its target, later if the queue is full; one with counted
writes on their way keeps its place until they have come (R214). An AMO whose word fills meanwhile performs when it gets a
place, so the claim on memory is for banks in which none waits for one.
The order of an expiry and counted writes, the SOURCE of the deadline's record, and what an unsent launch leaves are readings
of the model (log 48, log 70, log 43). -/
def Obligations.Timers : Prop := ∀ (s : State) (n va cl i g : Nat) (d : Nat) (m : Msg) (f : Bool) (dl : DeadlineRec) (q : DefSig) (rd w : Nat)
    (pk : Packet) (tgt : Nat × Nat),
  let c := ctxOf s n; let k := cellOf s cl i; let cyc := cycOf s n
  let can : Prop := c.priv = .u ∧ c.tl = 0 ∧ c.tvec ≠ 0
  let trapped (t : State) (cause tval : Nat) : Prop := (ctxOf t n).tl = 1 ∧ (ctxOf t n).tepc1 = c.pc ∧ (ctxOf t n).tval1 = wd tval ∧
    (ctxOf t n).tcause1 = wd (cause + 512 * b2n c.mhInh + 1024) ∧ (ctxOf t n).pc = c.tvec ∧ (ctxOf t n).wait = .none ∧
    (∀ r, (ctxOf t n).getX r = c.getX r) ∧ SameMem s t
  let unsent (t : State) : Prop := (ctxOf t n).pledge = none ∧ (ctxOf t n).lastC0 = c.lastC0 ∧ (ctxOf t n).nxtdl = c.nxtdl
  (c.active = true → 1024 ≤ c.drift → c.pts + 1 < 0xE00000 →
    exec (.driftTick n) s = .next (modCtx s n fun c => { c with drift := c.drift - 1024, pts := c.pts + 1 })) ∧
  (c.active = true → c.mhMask = true → 4096 ≤ c.masked →
    exec (.msgmaskOverrun n) s = .next (modCtx s n fun c => { c with mhMask := false, masked := 0, pendMask := true })) ∧
  (c.active = true → fget s.saved n = none → c.deadline = some dl → dl.done = false → dl.gtc ≤ s.gtc → Does (.deadline n) s fun t =>
    ctxOf t n = { c with deadline := some { dl with done := true }, pendDl := c.pendDl || dl.trap } ∧
    (s.evq.en = false → s.evq.held.length < 256 → s.evq.dropped = 0 → t.evq.held = s.evq.held ++ [record 64
      [(0, 8, s.gtc), (8, 2, c.nameCxa % 32768), (10, 2, s.devid), (12, 1, 0x21), (16, 4, nameOf c), (20, 1, 2 * b2n dl.trap),
       (24, 8, dl.gtc), (32, 8, c.tag.toNat)]])) ∧
  (can → c.waitSince = some g →
    (c.wait = .fe va → g + 2 ^ 20 ≤ cyc → Does (.feTimeout n) s fun t => trapped t 0x07 va ∧
      ∀ e ∈ t.clusters, ∀ r ∈ e.2.fe, r.cxa ≠ n) ∧
    (c.wait = .send d m f → g + 2 ^ 16 ≤ cyc → Does (.sendTimeout n) s fun t => trapped t 0x08 d ∧ unsent t) ∧
    (∀ e r, c.wait = .launch e r f → r.form = .named → g + 2 ^ 16 ≤ cyc → Does (.sendTimeout n) s fun t =>
      trapped t 0x08 r.target ∧ unsent t) ∧
    (c.wait = .combAmo rd w va → g + 2 ^ 20 ≤ cyc → (∀ e ∈ s.clusters, ∀ r ∈ e.2.defer, r.entered = true) → Does (.deferredSignalTimeout n) s fun t => trapped t 0x07 va ∧
      ∀ e ∈ t.clusters, ∀ r ∈ e.2.defer, ∀ x, r.who ≠ .ctx n x)) ∧
  ((clOf s cl).defer = [q] → q.who = .remote pk → q.since + 2 ^ 20 ≤ (clOf s cl).cyc →
    exec (.remoteAmoBankTimeout cl pk.tag) s = .next (nack (modCl s cl fun c => { c with defer := [] }) pk 0x07)) ∧
  (expiryDue k = true → targetOf k.dltgt = .ok tgt →
    (0 < tqRoom s tgt.1 tgt.2 → exec (.cellDeadlineExpiry cl i) s = .next (sealCell s cl i k.cts [tgt] true)) ∧
    (tqRoom s tgt.1 tgt.2 = 0 → Does (.cellDeadlineExpiry cl i) s fun t => cellOf t cl i = { k with
      st := .sealed, zero := cellZero s cl k, sts := k.cts, dlv := false, dlx := false, tout := true, refcnt := k.refcnt + 1,
      tpost := some (s.gtc + 40) } ∧ ∀ av, avOf t av = avOf s av)) ∧
  (expired k = true → k.counted ≠ 0 →
    exec (.cellDeadlineExpiry cl i) s = .next (modCell s cl i fun c => { c with dlx := true })) ∧
  (k.tpost = some g → g ≤ s.gtc → targetOf k.dltgt = .ok tgt →
    (0 < tqRoom s tgt.1 tgt.2 → exec (.timerSealPostRetry cl i) s = .next (modCell (tqPut s tgt.1 tgt.2 (handleOf cl i k.cgen)
      (1 + 2 * b2n k.zero)) cl i fun c => { c with tpost := none })) ∧
    (tqRoom s tgt.1 tgt.2 = 0 → exec (.timerSealPostRetry cl i) s = .next (modCell s cl i fun c => { c with tpost := some (s.gtc + 40) })))

/-- R230, R252 to R255: a rebase moves every timestamp of contexts, homes and cells down by 2^23, none below 0, and drops
no L1 copy whose lease still holds; its completion counts it, and a trigger that arose meanwhile starts the next.
That all agents move at once is a choice of the model (log 13). -/
def Obligations.Rebase : Prop := ∀ (s : State) (n line : Nat) (h : Home),
  let down (x : Nat) : Nat := x - 2 ^ 23
  (s.rebaseActive = true → movedBase s = false →
    Does .rebaseMove s fun t => t.btsN = s.btsN + 1 ∧ t.rebaseAgain = s.rebaseAgain ∧ (ctxOf t n).pts = down (ctxOf s n).pts ∧ (ctxOf t n).mts = down (ctxOf s n).mts ∧
      (ctxOf t n).mrts = down (ctxOf s n).mrts ∧ (∀ r, (ctxOf t n).getX r = (ctxOf s n).getX r) ∧ (ctxOf t n).pc = (ctxOf s n).pc ∧
      (fget s.home line = some h → fget t.home line = some { h with wts := down h.wts, rts := down h.rts }) ∧ t.hts = down s.hts ∧
      (∀ cl i, (cellOf t cl i).cts = down (cellOf s cl i).cts ∧ (cellOf t cl i).sts = down (cellOf s cl i).sts) ∧
      (∀ k, ∀ x ∈ (coreOf s k).l1d, 2 ^ 23 ≤ x.rts → { x with rts := down x.rts, wts := down x.wts } ∈ (coreOf t k).l1d) ∧
      (∀ k, ∀ x ∈ (coreOf t k).l1d, ∃ y ∈ (coreOf s k).l1d, y.line = x.line ∧ 2 ^ 23 ≤ y.rts)) ∧
  (s.rebaseActive = true → movedBase s = true →
    (s.rebaseAgain = false → exec .rebaseComplete s =
      .next { s with rebaseActive := false, rebaseCount := (s.rebaseCount + 1) % 2 ^ 32 }) ∧
    (s.rebaseAgain = true → exec .rebaseComplete s = .next (later { s with
      rebaseAgain := false, rebaseCount := (s.rebaseCount + 1) % 2 ^ 32, epoch := !s.epoch } .rebaseMove)))

/-! ## The anvil: slots (each as a bundle of its own) -/

/-- The bundle of one slot, in place behind three NOPs, breaks no condition of R266, R290, R395 and has the grant it needs
(R26, R194); its context waits for nothing. -/
def Sys2Proof.Safety.Issues (s : State) (i : Instr) : Prop :=
  (icx s).wait = .none ∧ bundleCheck s [(3, { stop := true, unit := fld (encodeWord i) 27 4, gate := 0, op := i })] = .ok ()

/-- The issuing context after a bundle that changes it as `f` says; nothing else of the machine changes. -/
def Sys2Proof.Safety.stepIc (s : State) (f : AvCtx → AvCtx) : State := modIc s fun c => { f c with wait := .none, admitted := false }
def Sys2Proof.Safety.flying (s : State) (lat : Nat) (e : AvEff) (c : AvCtx) : AvCtx :=
  { c with pend := c.pend ++ [{ run := c.run, due := (avOf s s.av).cyc + lat, eff := e }] }
/-- A slot whose effect is one result that is readable after `lat` cycles (R393). -/
def Sys2Proof.Safety.Flies (i : Instr) (s : State) (lat : Nat) (e : AvEff) : Prop := exec i s = .next (stepIc s (flying s lat e))
def Sys2Proof.Safety.Goes1 (i : Instr) (s : State) (f : AvCtx → AvCtx) : Prop := exec i s = .next (stepIc s f)

/-- R280, R396 to R403: what each slot of the sequencer that touches its registers, branches or loops does. -/
def Obligations.AnvilSequencer : Prop := ∀ (s : State) (d a : Fin 16) (x : Fin 16 ⊕ BitVec 10) (i : BitVec 15) (sh : BitVec 6)
    (t : BitVec 14) (l : Fin 8) (k : Fin 4) (e : BitVec 10),
  let c := icx s; let va := c.sr a; let y := match x with | .inl r => c.sr r | .inr j => j.signExtend 32
  let jump (b : Bool) (c : AvCtx) : AvCtx := { c with delay := 3, target := if b then some (4 * t.toNat) else none }
  let body := c.pc + bundleSize s s.av c.pc; let trip := (c.sr a).toNat % 65536
  let fresh (v : Level) : Level := { v with
    active := true, start := body, last := body + 4 * e.toNat, trip := trip, stages := k.val + 1, i := 0,
    order := (c.levels.toList.map (·.order)).foldl Nat.max 0 + 1 }
  (Issues s .nop → Goes1 .nop s id) ∧
  (Issues s (.sli d i) → Flies (.sli d i) s 1 (.s d (i.signExtend 32))) ∧
  (Issues s (.sadd d a x) → Flies (.sadd d a x) s 1 (.s d (va + y))) ∧
  (Issues s (.ssub d a x) → Flies (.ssub d a x) s 1 (.s d (va - y))) ∧
  (Issues s (.sand d a x) → Flies (.sand d a x) s 1 (.s d (va &&& y))) ∧
  (Issues s (.sshl d a sh) → Flies (.sshl d a sh) s 1 (.s d (if 0 ≤ sh.toInt then va <<< sh.toInt.toNat else va >>> (-sh.toInt).toNat))) ∧
  (Issues s (.fpcr d) → Flies (.fpcr d) s 1 (.s d (c.fpc.setWidth 32))) ∧
  (Issues s (.fpcw a) → Flies (.fpcw a) s 1 (.fpc (BitVec.ofNat 12 (va.toNat % 4096 / 128 * 128 + va.toNat / 16 % 2 * 16 +
    (if 4 < va.toNat % 8 then 0 else va.toNat % 8))))) ∧
  (Issues s (.lgate l) → Flies (.lgate l) s 1 (.gate l)) ∧
  (Issues s (.br t) → Goes1 (.br t) s (jump true)) ∧ (Issues s (.brz a t) → Goes1 (.brz a t) s (jump (va == 0))) ∧
  (Issues s (.brnz a t) → Goes1 (.brnz a t) s (jump (va != 0))) ∧
  (Issues s (.lstr l k a e) → Goes1 (.lstr l k a e) s fun c => { c with
    levels := c.levels.set! l.val { c.levels[l.val]! with
      str := (c.levels[l.val]!).str.set! k.val { reg := a.val, str := e.toInt * 16 } } }) ∧
  (Issues s (.lext l a) → Goes1 (.lext l a) s fun c => if (c.levels[l.val]!).active then { c with
    levels := c.levels.set! l.val { c.levels[l.val]! with trip := min ((c.levels[l.val]!).trip + va.toNat) 65535 } } else c) ∧
  (Issues s (.loop l k a e) → (c.levels[l.val]!).active = false →
    (trip ≠ 0 → Goes1 (.loop l k a e) s fun c => { c with
      lc := c.lc.set! l.val 0, levels := c.levels.set! l.val (fresh c.levels[l.val]!) }) ∧
    (trip = 0 → Does (.loop l k a e) s fun u => (icx u).pc = body + 4 * e.toNat + bundleSize s s.av (body + 4 * e.toNat) ∧
      ∀ j : Fin 6, ((icx u).levels[j]).active = (c.levels[j]).active))

/-- R399, R404 to R412, R423, R425: the slots that halt, wait, or act on queues, triggers and cells.
What HALT leaves to finish is a reading of the model (log 56). -/
def Obligations.AnvilQueues : Prop := ∀ (s : State) (d : Option (Fin 16)) (n : Fin 16) (mask : BitVec 8) (h q : Fin 8) (lvl t : Fin 4)
    (arm : Fin 8 × Fin 16 × Fin 16) (e : TqEntry) (m cell : Nat) (cc : Cell) (er : RunErr),
  let c := icx s; let k := ic s; let a := avOf s s.av; let av := s.av; let hv := c.hr h
  let seen : Anvil := if k = 0 then { a with tqSeenA := a.tqclass } else { a with tqSeenB := a.tqclass }
  let v := (c.sr n).toNat; let eu := min v 16384 * (lvl.val + 1); let die := dieOf s (clDie (av / 2))
  let fits : Prop := s.gtcRun = true ∧ 0 ≤ die.level ∧ if c.startCls = 0 then (eu : Int) ≤ die.level
    else (12 * die.b : Int) ≤ 100 * (die.level - eu)
  let flag (f : Option (Fin 16)) (v : BitVec 32) : List AvEff := match f with | some r => [.s r v] | none => []
  let effs (u : State) : List AvEff := ((icx u).pend.drop c.pend.length).map AvPend.eff
  (Does .halt s fun u => (avCtx (avOf u av) k).running = false ∧ SameMem s u ∧ (c.notify = true → (avOf u av).notices = a.notices ++
    [{ c := k, run := c.run, cls := c.startCls, dest := c.starter, pc := c.pc, s0 := none, stopped := false }])) ∧
  (Issues s (.waitq d mask) → c.resv = none →
    (chooseQ seen k mask.toNat = some m → freeEntry (tqOf s av m) = some e → Does (.waitq d mask) s fun u =>
      (icx u).wait = .none ∧ (icx u).resv = some (m, e.num) ∧ effs u = flag d (BitVec.ofNat 32 m) ∧
      (tqOf u av m).es.map TqEntry.handle = (tqOf s av m).es.map TqEntry.handle) ∧
    (chooseQ seen k mask.toNat = none → Does (.waitq d mask) s fun u => (icx u).wait = .waitq mask.toNat ∧ (icx u).pc = c.pc ∧
      effs u = [])) ∧
  (Issues s (.waittrg t) → Does (.waittrg t) s fun u => (icx u).wait = (if (a.trg[t.val]!).fired then .none else .waittrg t.val) ∧
    (icx u).pc = c.pc ∧ effs u = []) ∧
  (Issues s (.anvilAdmit n lvl) → c.grant = none →
    (v = 0 → Does (.anvilAdmit n lvl) s fun u => (icx u).wait = .none ∧ (icx u).grant = none) ∧
    (v ≠ 0 → die.reqs = [] → c.startCls < 4 →
      (fits → Does (.anvilAdmit n lvl) s fun u => (icx u).wait = .none ∧ (icx u).grant = some
        { left := eu, endCyc := (clOf s (av / 2)).cyc + min v 16384 } ∧ (dieOf u (clDie (av / 2))).level = die.level - eu) ∧
      (¬fits → Does (.anvilAdmit n lvl) s fun u => (icx u).wait = .forGrant ∧ (dieOf u (clDie (av / 2))).reqs =
        [{ who := .anvil av k, cls := c.startCls, n := min v 16384, lvl := lvl.val, win := die.win,
           mesh := max (meshCyc s) die.nextMesh, src := unitSrc 0 av }]))) ∧
  (freeEntry (tqOf s av q.val) = some e → (tqOf s av q.val).es.head? = some e →
    ∀ f, Issues s (.popq h (some q) f) → Does (.popq h (some q) f) s fun u => (tqOf u av q.val).es = (tqOf s av q.val).es.tail ∧
      effs u = .h h (BitVec.ofNat 32 (e.handle.toNat / 256 * 256)) :: flag f (BitVec.ofNat 32 e.flags)) ∧
  (∀ f, Issues s (.popq h none f) → m < 8 → c.resv = some (m, e.num) → (tqOf s av m).es = [e] → e.resv = some k →
    Does (.popq h none f) s fun u => (tqOf u av m).es = [] ∧ (icx u).resv = none ∧
      effs u = .h h (BitVec.ofNat 32 (e.handle.toNat / 256 * 256)) :: flag f (BitVec.ofNat 32 e.flags)) ∧
  (Issues s (.pushq h q) → 0 < tqRoom s av q.val → avCell s hv = .ok (cell, cc) → readable cc = true → cc.cgen = handleGen hv.toNat →
    exec (.pushq h q) s = .next (tqPut (stepIc s id) av q.val hv.toNat 0)) ∧
  (Issues s (.anvilDone h) → avCell s hv = .ok (cell, cc) → doneOk cc = true → cc.cgen = handleGen hv.toNat →
    exec (.anvilDone h) s = .next (doneCell (stepIc s id) (av / 2) cell)) ∧
  (Issues s (.trgset t none) → Does (.trgset t none) s fun u => ((avOf u av).trg[t.val]!).armed = false ∧
    ((avOf u av).trg[t.val]!).fired = false) ∧
  (Issues s (.trgset t (some arm)) → Does (.trgset t (some arm)) s fun u => (avOf u av).trg[t.val]! =
    { base := (a.qs[arm.1.val]!).arrv, thresh := (c.sr arm.2.1).toNat % 65536, armed := true, fired := false, ctx := k,
      queue := arm.1.val, sreg := arm.2.2.val, run := c.run }) ∧
  (∀ p ∈ [(Instr.vgwait, c.vgaErr, AvWait.vgwait), (.scanwait, c.scanErr, .scanwait)], Issues s p.1 → a.unit = [] →
    (p.2.1 = none → Does p.1 s fun u => (icx u).wait = .none ∧ effs u = []) ∧
    (p.2.1 = some er → Does p.1 s fun u => (avCtx (avOf u av) k).running = false)) ∧
  (∀ j ∈ a.unit, j.c = k → j.run = c.run →
    (j.op.isLeft = true → Issues s .vgwait → Does .vgwait s fun u => (icx u).wait = .vgwait) ∧
    (j.op.isLeft = false → Issues s .scanwait → Does .scanwait s fun u => (icx u).wait = .scanwait))

/-- Exact products and sums of values (R268, R270, R273). -/
def Sys2Proof.Safety.ValuesRight : Prop := ∀ (fs : List FVal) (x y : FVal) (n : Bool),
  let both : Bool := decide (FVal.inf false ∈ fs) && decide (FVal.inf true ∈ fs)
  ((∀ f ∈ fs, IsNum f) → IsNum (prodV fs).1 ∧ (prodV fs).2 = {} ∧ ratOf (prodV fs).1 = (fs.map ratOf).prod ∧
    IsNum (sumV fs).1 ∧ (sumV fs).2 = {} ∧ ratOf (sumV fs).1 = (fs.map ratOf).sum) ∧
  ((∃ f ∈ fs, f.isNan = true) → prodV fs = (.nan false, {}) ∧ sumV fs = (.nan false, { nv := both })) ∧
  ((∀ f ∈ fs, f.isNan = false) →
    ((∃ f ∈ fs, f.isZero = true) → (∃ f ∈ fs, ¬IsNum f) → (prodV fs).1.isNan = true ∧ (prodV fs).2 = { nv := true }) ∧
    (both = true → sumV fs = (.nan false, { nv := true })) ∧
    (.inf n ∈ fs → .inf (!n) ∉ fs → sumV fs = (.inf n, {}))) ∧
  (IsNum x → IsNum y → IsNum (addV .rne x y).1 ∧ (addV .rne x y).2 = {} ∧ ratOf (addV .rne x y).1 = ratOf x + ratOf y ∧
    IsNum x.neg ∧ ratOf x.neg = -ratOf x ∧ IsNum (mulV x y).1 ∧ (mulV x y).2 = {} ∧ ratOf (mulV x y).1 = ratOf x * ratOf y) ∧
  (IsNum x → ∃ r, Exact .fp36 .rne (ratOf x) x.signBit r ∧ rne36 x = (BitVec.ofNat 36 r.1, { of := r.2.of }) ∧
    fp36Out (x, {}) = (BitVec.ofNat 36 r.1, if r.2.of then 0x200 else 0))

/-- What the products of an MMA leave in a lane (R269 to R271): in FP36 their sum, each cut toward zero at 48 binary places below
the largest, added exactly and rounded once; NaN, infinities and zero products as R270 has them; in INT36 the exact sum, clamped. -/
def Sys2Proof.Safety.CombineRight : Prop := ∀ (acc : BitVec 36) (ps : List (FVal × Fl)) (is : List Int) (n : Bool) (g : Int),
  let vs := ps.map Prod.fst; let nv := ps.any fun p => p.2.nv; let x := fp36 acc
  let both : Bool := decide (FVal.inf false ∈ vs) && decide (FVal.inf true ∈ vs)
  let out (b : Nat) (nv : Bool) : BitVec 36 × Fl := (BitVec.ofNat 36 b, { nv := nv })
  let nan := Fmt.fp36.nanBits; let inf (n : Bool) := Fmt.fp36.signed n Fmt.fp36.infBits
  let q : List ℚ := vs.map ratOf; let u : ℚ := 2 ^ (g - 48)
  let cut (v : ℚ) : ℚ := (if v < 0 then -1 else 1) * (⌊|v| / u⌋ * u)
  ((∃ v ∈ vs, v.isNan = true) → combine36 acc ps = out nan (nv || both)) ∧
  ((∀ v ∈ vs, v.isNan = false) →
    (both = true → combine36 acc ps = out nan true) ∧
    (.inf n ∈ vs → .inf (!n) ∉ vs → combine36 acc ps =
      if x.isNan then out nan nv else if x = .inf (!n) then out nan true else out (inf n) nv)) ∧
  ((∀ v ∈ vs, IsNum v) →
    ((∀ v ∈ q, v = 0) → combine36 acc ps = (acc, { nv := nv })) ∧
    ((∃ v ∈ q, v ≠ 0 ∧ Int.log 2 |v| = g) → (∀ v ∈ q, v ≠ 0 → Int.log 2 |v| ≤ g) →
      (x.isNan = true → combine36 acc ps = out nan nv) ∧ (x = .inf n → combine36 acc ps = out (inf n) nv) ∧
      (IsNum x → ∃ r, Exact .fp36 .rne (ratOf x + (q.map cut).sum) false r ∧
        combine36 acc ps = (BitVec.ofNat 36 r.1, { nv := nv, of := r.2.of })))) ∧
  (let i := int36 acc + is.sum; let k := max (-(2 ^ 35 - 1)) (min (2 ^ 35 - 1) i)
   combineInt acc is = (BitVec.ofInt 36 k, decide (k ≠ i)))

/-- An MMA or MMAH lands (R268, R272, R417): each lane of its range is combined with its unmasked products, the flags are ORed into
FPC, and nothing else of the context changes; a K tail of 0 changes nothing. -/
def Sys2Proof.Safety.MatrixLands : Prop := ∀ (c : AvCtx) (o : MmaOps) (half : Bool) (ha hb : Nat) (tail : Option Nat) (a b : Tile)
    (sa sb : ScaleReg) (q i j : Nat),
  let n := if half then 16 else 32; let full := codeK a.tag / (if half then 2 else 1); let kk := min (tail.getD full) full
  let d := (AvEff.mma o half ha hb tail a b sa sb).apply c
  let elem (t : Tile) (sc : ScaleReg) (row e k : Nat) : List FVal :=
    let w := elemAt t.tag ((fget t.rows row).getD []) k; let z := scaleBytes t.tag
    let s := leNat ((((fget sc.rows row).getD []).drop (k / min (16 * 2 ^ e) full * z)).take z)
    if z = 0 then [elemVal t.tag w]
    else [if (t.tag = 22 ∨ t.tag = 23) ∧ w = 8 then (unpack .e4m3 (s / 256 % 256)).quiet else elemVal t.tag w, scaleVal t.tag s]
  let both (i j : Nat) : Bool := a.valid.getLsbD i && b.valid.getLsbD j
  let prods (i j : Nat) : List (FVal × Fl) := if both i j then (List.range kk).map fun k =>
    prodV (elem a sa i o.ba k ++ elem b sb j o.bb k) else []
  let ints (i j : Nat) : List Int := if both i j then (List.range kk).map fun k =>
    codeInt a.tag (elemAt a.tag ((fget a.rows i).getD []) k) * codeInt b.tag (elemAt b.tag ((fget b.rows j).getD []) k) else []
  let lane (i j : Nat) : BitVec 36 × BitVec 12 :=
    if o.int then ((combineInt (c.accLane o.acc i j) (ints i j)).1, if (combineInt (c.accLane o.acc i j) (ints i j)).2 then 0x800 else 0)
    else ((combine36 (c.accLane o.acc i j) (prods i j)).1, (combine36 (c.accLane o.acc i j) (prods i j)).2.fpc)
  let within (i j : Nat) : Prop := 16 * ha ≤ i ∧ i < 16 * ha + n ∧ 16 * hb ≤ j ∧ j < 16 * hb + n
  (if half then ha < 2 ∧ hb < 2 else ha = 0 ∧ hb = 0) → (o.int = true → a.tag / 8 = 1 ∧ b.tag / 8 = 1) → i < 32 → j < 32 →
  { d with acc := c.acc, fpc := c.fpc } = c ∧ (kk = 0 → d = c) ∧
  (q ≠ o.acc.val ∨ ¬within i j → d.accLane q i j = c.accLane q i j) ∧
  (0 < kk → within i j → d.accLane o.acc i j = (lane i j).1) ∧
  (0 < kk → ∀ k < 12, d.fpc.getLsbD k = true ↔ c.fpc.getLsbD k = true ∨
    ∃ i j, i < 32 ∧ j < 32 ∧ within i j ∧ (lane i j).2.getLsbD k = true)

/-- A row of a VGA (R273, R274): group by group, the activations at its positions summed exactly in runs of 64, rounded after each
run, times the group's value, rounded, added, rounded; only NV and OF are raised. -/
def Sys2Proof.Safety.GroupsRight : Prop := ∀ (code : Nat) (out : BitVec 36) (gs : List VGroup) (g : VGroup) (act : Nat → FVal)
    (l : List Nat),
  let add (x : BitVec 36) (v : FVal) : BitVec 36 := (rne36 (addV .rne (fp36 x) v).1).1
  let runs (l : List Nat) := runs64 (l.length / 64 + 1) l
  let sum := (runs g.2).foldl (fun x run => add x (sumV (run.map act)).1) 0
  let r := vgaRow code out gs act
  ((runs l).flatten = l ∧ (∀ i, i + 1 < (runs l).length → ((runs l).getD i []).length = 64) ∧ ∀ k ∈ runs l, k ≠ [] ∧ k.length ≤ 64) ∧
  vgaRow code out [] act = (out, {}) ∧ (g.2 = [] → vgaRow code out (gs ++ [g]) act = r) ∧
  (g.2 ≠ [] → (vgaRow code out (gs ++ [g]) act).1 = add r.1 (fp36 (rne36 (mulV (fp36 sum) (vgValue code g.1)).1).1)) ∧
  r.2.dz = false ∧ r.2.uf = false ∧ r.2.nx = false

/-- The rows a load slot reads: a readable cell, an offset in place, no word in error (R413, R414). -/
def Sys2Proof.Safety.Loadable (s : State) (h v : BitVec 32) (c : Cell) (n width : Nat) : Prop :=
  (∃ i, avCell s h = .ok (i, c)) ∧ readable c = true ∧ c.cgen = handleGen h.toNat ∧ v.toNat / 2 ^ 21 = 0 ∧ v.toNat % 2 ^ 16 % 16 = 0 ∧
  v.toNat % 2 ^ 16 + width ≤ c.pitch * 16 ∧ ∀ i < n, rowValid c (v.toNat / 2 ^ 16 + i) = true →
    ∀ w ∈ wordsOf (rowOff c (v.toNat / 2 ^ 16 + i) (v.toNat % 2 ^ 16)) width,
      w ∉ (clOf s (s.av / 2)).poison ∧ w ∉ (clOf s (s.av / 2)).latent ∧ w ∉ (clOf s (s.av / 2)).soft

/-- R413 to R421, R424: the load slots put the rows they read in flight and take the load path; MMA and MMAH put their
operands in flight against their grant; VGA and SCAN enter the VGA unit for the cycles R421 and R424 give them.

R268 to R274: what an MMA leaves in the accumulator when it lands, and what a row of a VGA adds to a lane.
The order of the row checks is a reading of the model (log 15). -/
def Obligations.AnvilLoadsAndMatrix : Prop := (ValuesRight ∧ CombineRight ∧ MatrixLands ∧ GroupsRight) ∧ ∀ (s : State) (b : Bool) (n : Fin 4) (h g : Fin 8) (r w d : Fin 16) (half : Fin 2) (o : MmaOps)
    (ha hb : Fin 2) (acc : Fin 4) (c : Cell) (vi : VgaIn) (ci : Nat) (co : Cell),
  let x := icx s; let hv := x.hr h; let v := x.sr r; let a := avOf s s.av; let cl := s.av / 2; let row := v.toNat / 2 ^ 16
  let col := v.toNat % 2 ^ 16
  let rows (k width first : Nat) : FMap (List Byte) := ((List.range k).filter fun i => rowValid c (row + i)).map fun i =>
    (first + i, combBytes s cl (rowOff c (row + i) col) width)
  let vmask (k first : Nat) : BitVec 32 := BitVec.ofNat 32 (((List.range k).filter fun i => rowValid c (row + i)).map fun i =>
    2 ^ (first + i)).sum
  let st := max a.cyc a.ldBusy
  let loads (i : Instr) (k width lat occ : Nat) (e : AvEff) : Prop := Issues s i → Loadable s hv v c k width →
    exec i s = .next (modAv (stepIc s fun y => { y with pend := y.pend ++ [{ run := y.run, due := st + lat, eff := e }] }) s.av
      fun a => { a with ldBusy := st + occ })
  let pays (k : Nat) (y : AvCtx) : AvCtx := { y with grant := y.grant.map fun f => { f with left := f.left - k } }
  let mma (i : Instr) (hf : Bool) (p q lat occ eu : Nat) : Prop := Issues s i →
    (∀ k < 32, fget (x.tile false o.a).poison k = none ∧ fget (x.tile true o.b).poison k = none ∧ fget x.sa.poison k = none ∧
      fget x.sb.poison k = none) →
    exec i s = .next (modAv (stepIc s fun y => flying s lat (.mma o hf p q (if o.te then some (x.sr o.kt).toNat else none)
      (x.tile false o.a) (x.tile true o.b) x.sa x.sb) (pays eu y)) s.av fun a => { a with mmaBusy := a.cyc + occ })
  let elem (bs : List Byte) (k : Nat) : BitVec 36 :=
    if c.fmt < 8 then (rne36 (elemVal c.fmt (elemAt c.fmt bs k))).1 else BitVec.ofInt 36 (codeInt c.fmt (elemAt c.fmt bs k))
  let lanes := match (rows 1 (4 * codeBits c.fmt) 0).head? with
    | none => List.replicate 32 0
    | some p => (List.range 32).map (elem p.2)
  loads (.ldt b n h r) 32 64 8 8 ((if b then AvEff.tileB n else .tileA n)
    { tag := c.fmt, rows := rows 32 64 0, valid := vmask 32 0, poison := [] }) ∧
  loads (.ldth b n h r half) 16 32 4 2 (.halfTile b n (16 * half.val)
    { tag := c.fmt, rows := rows 16 32 (16 * half.val), valid := vmask 16 (16 * half.val), poison := [] }) ∧
  loads (.ldts b h r) 32 32 6 4 (.scale b { rows := rows 32 32 0, poison := [] }) ∧
  (c.fmt < 16 → loads (.ldw w h r) 1 (4 * codeBits c.fmt) 4 2 (.ldw w lanes none)) ∧
  mma (.mma o) false 0 0 12 4 16 ∧ mma (.mmah o ha hb) true ha.val hb.val 6 1 4 ∧
  (Issues s (.vga acc h g r) → vgaCheck s h g r = .ok vi →
    let job : VgaRun := { acc := acc, stream := hv.toNat, act := (x.hr g).toNat, vecs := vi.vecs, col := vi.col }
    exec (.vga acc h g r) s = .next (unitPut (stepIc s (pays ((vgaH s vi * vi.vecs + 63) / 64))) (vgaCycles s vi) (.inl job))) ∧
  (Issues s (.scan d h g) → scanCheck s h g = .ok (c, ci, co) → let k := (c.rows + 1) * (c.pitch * 16 * 8 / codeBits c.fmt)
    exec (.scan d h g) s = .next (unitPut (modCell (stepIc s (pays ((k + 255) / 256))) cl ci fun y => { y with counted := y.counted + 1 })
      (8 + max (2 * (((c.rows + 1) * c.pitch * 16 + 511) / 512)) ((k + 255) / 256))
      (.inr { sreg := d, src := hv.toNat, out := (x.hr g).toNat })))

/-- R259, R260, R276, R278, R280, R426, R427: a VEC slot computes 32 lanes, its results readable after 4 cycles, or 12 for
the special functions, with the flags of the lanes together; the values at a special function's special inputs.
At its other inputs a special function gives specialOut: WEXP's overflow and underflow, else a free value, kept within
the relative error where the result is normal (log 7). -/
def Obligations.AnvilVectorSlots : Prop := ∀ (s : State) (d a b : Fin 16) (int : Bool) (fmt : Fin 32) (mode : Fin 4),
  let c := icx s; let x := c.wr a; let y := c.wr b; let z := c.wr d
  fget c.wp a.val = none → fget c.wp b.val = none → fget c.wp d.val = none →
  let lanes (f : Nat → BitVec 36 × BitVec 12) : AvEff := .w d ((List.range 32).map fun i => (f i).1)
    ((List.range 32).foldl (fun m i => m ||| (f i).2) 0)
  let op (i : Instr) (fi : Int → Int → Int → Int) (ff : FVal → FVal → FVal → FVal × Fl) : Prop := Issues s i →
    Flies i s 4 (lanes fun k => if int then int36Out (fi (int36 (x.getD k 0)) (int36 (y.getD k 0)) (int36 (z.getD k 0)))
      else fp36Out (ff (fp36 (x.getD k 0)) (fp36 (y.getD k 0)) (fp36 (z.getD k 0))))
  let pick (i : Instr) (f : Int → Int → Int) (mx : Bool) : Prop := Issues s i → Flies i s 4 (lanes fun k =>
    if int then int36Out (f (int36 (x.getD k 0)) (int36 (y.getD k 0)))
    else (BitVec.ofNat 36 (fminmax .fp36 mx (x.getD k 0).toNat (y.getD k 0).toNat).1, 0))
  let fn (i : Instr) (n : Nat) (special : FVal → Option (BitVec 36 × BitVec 12)) : Prop := Issues s i →
    ∃ f : Nat → BitVec 36 × BitVec 12, Flies i s 12 (lanes f) ∧ ∀ k < 32,
      if (fp36 (x.getD k 0)).isNan then f k = (fp36Nan, 0)
      else match special (fp36 (x.getD k 0)) with
        | some r => f k = r
        | none => f k = specialOut n (x.getD k 0)
  op (.wadd d a b int) (fun p q _ => p + q) (fun p q _ => addV .rne p q) ∧
  op (.wsub d a b int) (fun p q _ => p - q) (fun p q _ => addV .rne p q.neg) ∧
  op (.wmul d a b int) (fun p q _ => p * q) (fun p q _ => mulV p q) ∧
  op (.wfma d a b int) (fun p q r => r + p * q) (fun p q r => fmaV .rne p q r) ∧
  pick (.wmax d a b int) max true ∧ pick (.wmin d a b int) min false ∧
  (Issues s (.wcvt d a fmt mode) → Flies (.wcvt d a fmt mode) s 4 (lanes fun k =>
    let p := x.getD k 0
    if mode = 0 then (BitVec.ofInt 36 (toInt c.rm (-(2 ^ 35 - 1)) (2 ^ 35 - 1) (fp36 p)).1, (toInt c.rm (-(2 ^ 35 - 1)) (2 ^ 35 - 1) (fp36 p)).2.fpc)
    else if mode = 1 then (BitVec.ofNat 36 (packIeee .fp36 c.rm (ofInt (int36 p))).1, ({ nx := (packIeee .fp36 c.rm (ofInt (int36 p))).2.nx } : Fl).fpc)
    else ((roundTrip fmt c.rm c.sat p).1, (roundTrip fmt c.rm c.sat p).2.fpc))) ∧
  fn (.wexp d a) 0 (fun v => match v with | .inf n => some (if n then 0 else fp36Inf false, 0) | _ => none) ∧
  fn (.wlog d a) 1 (fun v => match v with
    | .inf n => some (if n then (fp36Nan, nvFpc) else (fp36Inf false, 0))
    | .num n m _ => if m = 0 then some (fp36Inf true, 0) else if n then some (fp36Nan, nvFpc) else none
    | .nan _ => none) ∧
  fn (.wrcp d a) 2 (fun v => match v with
    | .inf n => some (fp36Zero n, 0)
    | .num n m _ => if m = 0 then some (fp36Inf n, 0) else none
    | .nan _ => none) ∧
  fn (.wrsq d a) 3 (fun v => match v with
    | .inf n => some (if n then (fp36Nan, nvFpc) else (fp36Zero false, 0))
    | .num n m _ => if m = 0 then some (fp36Inf n, 0) else if n then some (fp36Nan, nvFpc) else none
    | .nan _ => none) ∧
  fn (.wtanh d a) 4 (fun v => match v with
    | .inf n => some (fp36One n, 0)
    | .num n _ _ => if atLeast v 4 then some (fp36One n, 0) else none
    | .nan _ => none) ∧
  fn (.wsig d a) 5 (fun v => match v with
    | .inf n => some (if n then 0 else fp36One false, 0)
    | .num n m e => if !n && atLeast v 5 then some (fp36One false, 0)
      else if n && decide (cmpV (.num false m e) (.num false 104 0) ≠ some .lt) then some (0, 0) else none
    | .nan _ => none)

/-- R428 to R431: reductions into a latch lane, moves, stores of lanes into an OPEN cell and the POST of one.
The order of the row checks is a reading of the model (log 15). -/
def Obligations.AnvilStoresAndMoves : Prop := ∀ (s : State) (pl acc tk : Fin 4) (w r : Fin 16) (h : Fin 8) (int f : Bool) (lane fmt : Fin 32)
    (i tgt : Nat) (k : Cell),
  let c := icx s; let old := (c.plr pl).getD lane 0; let hv := c.hr h; let v := c.sr r; let cl := s.av / 2; let j := v.toNat % 32
  let t : Tgt := if tk = 1 then .fp32 else if tk = 2 then .raw else .code fmt
  let qs := fld v.toNat 21 3; let col := v.toNat % 2 ^ 16; let r0 := fld v.toNat 16 5
  let n := if qs = 0 then 32 else 16; let bi := if qs = 0 then 0 else 16 * ((qs - 4) / 2); let bj := if qs = 0 then 0 else 16 * ((qs - 4) % 2)
  let tile := (List.range n).map fun p => (List.range n).map fun q => c.accLane acc (bi + p) (bj + q)
  let stores (g : Instr) (lanes : List (List (BitVec 36))) : Prop :=
    let conv := lanes.map fun l => l.map fun x => convertLane t c.rm c.sat int x
    let rows := conv.map fun l => packRow t.bits (l.map Prod.fst)
    let width := (lanes.headD []).length * t.bits / 8; let lat := stcCycles (rows.length * width)
    Issues s g → avCell s hv = .ok (i, k) → k.st = .opn → k.cgen = handleGen hv.toNat → col % 16 = 0 → col + width ≤ k.pitch * 16 →
    r0 + lanes.length ≤ k.rows + 1 →
    exec g s = .next (modCell (modAv (stepIc s (flying s lat (.store cl i k.cgen
      ((List.range rows.length).map fun p => (rowOff k (r0 + p) col, rows.getD p [])) (BitVec.ofNat 32 ((2 ^ rows.length - 1) * 2 ^ r0))
      ((conv.flatMap fun l => l.map Prod.snd).foldl Fl.join {}).fpc))) s.av fun a => { a with stcBusy := a.cyc + lat })
      cl i fun y => { y with counted := y.counted + 1 })
  let posts (g : Instr) (dst : Option (Nat × Nat)) (at_ : Option Nat) : Prop := Issues s g → avCell s hv = .ok (i, k) → k.st = .opn →
    k.cgen = handleGen hv.toNat → k.apost = none → expired k = false → k.refcnt < 4095 →
    (∀ q, dst = some q → 0 < tqRoom s q.1 q.2) →
    (k.counted = 0 → Does g s fun u => cellOf u cl i = { k with
        st := .sealed, zero := cellZero s cl k, sts := k.cts, dlv := false, tout := false,
        refcnt := k.refcnt + dst.toList.length } ∧
      (∀ q, dst = some q → ∃ e, (tqOf u q.1 q.2).es = (tqOf s q.1 q.2).es ++ [e] ∧ e.handle = BitVec.ofNat 32 (handleOf cl i k.cgen) ∧
        e.flags = 2 * b2n (cellZero s cl k)) ∧ SameMem s u) ∧
    (k.counted ≠ 0 → Does g s fun u => cellOf u cl i = { k with apost := some { tgt := at_, av := s.av, c := ic s, run := c.run } } ∧
      SameMem s u)
  (fget c.wp w.val = none →
    (Issues s (.red pl w int lane) →
      let o := if int then int36Out (int36 old + ((c.wr w).map int36).sum) else fp36Out (sumV (fp36 old :: (c.wr w).map fp36))
      Flies (.red pl w int lane) s 6 (.pl pl lane o.1 o.2)) ∧
    (Issues s (.redmax pl w int lane) → Flies (.redmax pl w int lane) s 6 (.pl pl lane (if int
      then BitVec.ofInt 36 (((c.wr w).map int36).foldl max (int36 old))
      else (c.wr w).foldl (fp36MinMax true) (fp36MinMax true old old)) 0)) ∧
    (Issues s (.mova true acc w r f) → Flies (.mova true acc w r f) s 1 (.acc acc ((List.range 32).map fun p =>
      (1024 * acc.val + (if f then 32 * p + j else 32 * j + p), (c.wr w).getD p 0)) 0)) ∧
    (v.toNat / 2 ^ 21 = 0 → stores (.stcw w h r fmt tk int) [c.wr w])) ∧
  (Issues s (.mova false acc w r f) → Flies (.mova false acc w r f) s 1 (.w w ((List.range 32).map fun p =>
    if f then c.accLane acc p j else c.accLane acc j p) 0)) ∧
  (Issues s (.redclr pl f) → Flies (.redclr pl f) s 6 (.plAll pl (if f then fp36Inf true else 0))) ∧
  (Issues s (.mov w pl f) → exec (.mov w pl f) s = .next (stepIc s fun y =>
    (if f then flying s 1 (.plAll pl 0) else id) (flying s 1 (.w w (c.plr pl) 0) y))) ∧
  (Issues s (.movs true r h) → Flies (.movs true r h) s 1 (.s r hv)) ∧ (Issues s (.movs false r h) → Flies (.movs false r h) s 1 (.h h v)) ∧
  (Issues s (.zacc acc) → Flies (.zacc acc) s 1 (.zacc acc)) ∧
  (v.toNat / 2 ^ 24 = 0 → qs = 0 ∨ 4 ≤ qs → stores (.stc acc h r fmt tk int) tile) ∧
  posts (.post h none) none none ∧
  (tgt = v.toNat % 4096 → fld tgt 4 8 = cl → clusterOk cl = true →
    posts (.post h (some r)) (some (cl * 2 + fld tgt 3 1, tgt % 8)) (some (tgt % 16)))

/-! ## Events of anvils, transfer engines and the scheduler -/

/-- R177, R178, R280, R291, R380, R393, R421, R424: a result that is due is written and leaves the ones in flight; a halted
context takes the next start request; the issuing context yields at a wait it does not meet, to a lower class, or after 16
passes; the VGA unit's head completes and leaves the unit, VGA with its rows added to the lanes of the accumulator, or with the
error of its stream, SCAN with the number of nonzero elements in S; a copy of AVLOAD stands in instruction memory. With nothing
to do, each leaves the state as it is.
That VGA and SCAN read their data at completion, what a result of an earlier run does, and a late fault of AVLOAD are readings of
the model (log 56, log 57, log 58, log 62). -/
def Obligations.UnitEvents : Prop := ∀ (s t : State) (av k q n : Nat) (p : AvPend) (r : AvStart) (j : UnitJob) (rest : List UnitJob)
    (vr : VgaRun) (sr : ScanRun) (l : AvLoad) (bs : List Byte),
  let a := avOf s av; let c := avCtx a k; let cl := av / 2; let other := avCtx a (1 - a.cur)
  (Does (.anvilResultReadable av) s fun t => (avOf t av).cyc = a.cyc ∧ t.ctxs = s.ctxs ∧
    (avOf t av).a.pend = a.a.pend.filter (fun p => decide (a.cyc < p.due)) ∧
    (avOf t av).b.pend = a.b.pend.filter (fun p => decide (a.cyc < p.due))) ∧
  (k < 2 → c.pend = [p] → (avCtx a (1 - k)).pend = [] → p.due ≤ a.cyc →
    (p.eff.reg ≠ none → exec (.anvilResultReadable av) s = .next (modAvCtx s av k fun y =>
      if p.run = y.run then p.eff.apply { y with pend := [] } else { y with pend := [] })) ∧
    (∀ e i g rows mask fl, p.eff = .store e i g rows mask fl → Does (.anvilResultReadable av) s fun t =>
      t.mem = (rows.foldl (fun q w => combStore q e w.1 w.2) s).mem ∧
      cellOf t e i = (if (cellOf s e i).cgen = g then
        { cellOf s e i with valid := (cellOf s e i).valid ||| mask, counted := (cellOf s e i).counted - 1 } else cellOf s e i) ∧
      (avCtx (avOf t av) k).fpc = if p.run = c.run then c.fpc ||| fl else c.fpc)) ∧
  ((k = 0 ∧ a.a.running = false) ∨ (k = 1 ∧ a.a.running = true ∧ a.b.running = false) → a.loads = [] → c.resv = none →
    nextStart a = some r → Does (.anvilStart av) s fun t =>
      let y := avCtx (avOf t av) k
      y.running = true ∧ y.pc = r.pc ∧ y.startCls = r.cls ∧ y.starter = r.starter ∧ y.notify = r.notify ∧ y.readyAt = a.cyc + 8 ∧
      y.s = ((Vector.replicate 16 (0 : BitVec 32)).set! 0 r.s0).set! 1 r.s1 ∧ y.fpc = 0 ∧ y.acc = [] ∧ y.w = [] ∧ y.ta = [] ∧ y.tb = [] ∧
      (avOf t av).startq = a.startq.filter (·.seq != r.seq) ∧ avCtx (avOf t av) (1 - k) = avCtx a (1 - k) ∧ SameMem s t) ∧
  ((a.a.running = true ∧ a.b.running = true) ∨ a.startq = [] → exec (.anvilStart av) s = .next s) ∧
  (a.cur < 2 → (avCtx a a.cur).running = true → (avCtx a a.cur).wait ≠ .none → otherAble s av = true →
    waitMet s av a.cur = false ∨ 16 ≤ other.passed ∨ (a.urged = false ∧ ∃ m, other.wait = .waitq m ∧
      chooseQ a (1 - a.cur) m = some q ∧ tqSeen a (1 - a.cur) q < (avCtx a a.cur).startCls) →
    Does (.anvilContextSwitch av) s fun t => (avOf t av).cur = 1 - a.cur ∧ (avOf t av).switchEnd = a.cyc + 8 ∧
      (avCtx (avOf t av) (1 - a.cur)) = { other with passed := 0 } ∧ avCtx (avOf t av) a.cur = avCtx a a.cur ∧ SameMem s t) ∧
  (otherAble s av = false ∨ (avCtx a a.cur).wait = .none → exec (.anvilContextSwitch av) s = .next s) ∧
  (a.unit = [] → ∀ k, exec (.vgaComplete av k) s = .next s ∧ exec (.scanComplete av k) s = .next s) ∧
  (a.unit = j :: rest → j.left ≠ 0 → ∀ k, exec (.vgaComplete av k) s = .next s ∧ exec (.scanComplete av k) s = .next s) ∧
  (a.unit = j :: rest → j.left = 0 → j.c < 2 →
    let left (t : State) : Prop := (avOf t av).unit = rest ∧ avCtx (avOf t av) (1 - j.c) = avCtx a (1 - j.c) ∧ t.ctxs = s.ctxs ∧
      ((avCtx a j.c).run ≠ j.run → avCtx (avOf t av) j.c = avCtx a j.c)
    (j.op = .inl vr → exec (.scanComplete av j.c) s = .next s ∧
      exec (.vgaComplete av j.c) s = .next (vgaFinish (modAv s av fun a => { a with unit := rest }) av j vr) ∧
      (Does (.vgaComplete av j.c) s fun t => left t ∧ ((clOf s cl).latent = [] → (clOf s cl).soft = [] → SameMem s t)) ∧
      let cs := cellOf s cl (handleIx vr.stream); let ca := cellOf s cl (handleIx vr.act); let c := avCtx a j.c
      let act (v k : Nat) : FVal := if rowValid ca v then elemVal ca.fmt (elemAt ca.fmt (combBytes s cl (rowOff ca v 0) (ca.pitch * 16)) k)
        else .num false 0 0
      c.run = j.run → (clOf s cl).latent = [] → (clOf s cl).soft = [] → (clOf s cl).poison = [] →
        (∀ rows used, vgStream cs.fmt (rowElems ca) (streamBytes s cl cs) = (.ok rows, used) → c.running = true → rows.length ≤ 32 →
          vr.col + vr.vecs ≤ 32 → Does (.vgaComplete av j.c) s fun t => let y := avCtx (avOf t av) j.c
            { y with acc := c.acc, fpc := c.fpc } = c ∧ ∀ q i p, i < 32 → p < 32 → y.accLane q i p =
              if q = vr.acc ∧ i < rows.length ∧ vr.col ≤ p ∧ p < vr.col + vr.vecs then
                (vgaRow cs.fmt (c.accLane q i p) (rows.getD i []) (act (p - vr.col))).1
              else c.accLane q i p) ∧
        (∀ i used, vgStream cs.fmt (rowElems ca) (streamBytes s cl cs) = (.error i, used) → Does (.vgaComplete av j.c) s fun t =>
          avCtx (avOf t av) j.c = { c with vgaErr := some { cause := 0x12, handle := vr.stream, row := i } })) ∧
    (j.op = .inr sr → exec (.vgaComplete av j.c) s = .next s ∧
      exec (.scanComplete av j.c) s = .next (scanFinish (modAv s av fun a => { a with unit := rest }) av j sr) ∧
      Does (.scanComplete av j.c) s fun t => left t ∧
        let y := cellOf s cl (handleIx sr.src)
        ((avCtx a j.c).run = j.run → (avCtx a j.c).running = true → sr.sreg < 16 →
          (clOf s cl).latent = [] → (clOf s cl).soft = [] → (clOf s cl).poison = [] →
          (avCtx (avOf t av) j.c).s[sr.sreg]! = BitVec.ofNat 32 (((List.range (y.rows + 1)).filter (rowValid y)).map fun i =>
            ((List.range (rowElems y)).filter fun e =>
              !scanZero y.fmt (elemAt y.fmt (combBytes s cl (rowOff y i 0) (y.pitch * 16)) e)).length).sum))) ∧
  (copyOf s n = none → exec (.avloadCopyDone n) s = .next s) ∧
  (copyOf s n = some (av, l) →
    (teRead s cl (avloadCmd l) l.va l.len false = (t, .ok bs) →
      let u := modAv { t with mem := memWrite t.mem (imemKey av l.off) bs } av fun a => { a with loads := a.loads.drop 1 }
      exec (.avloadCopyDone n) s = .next (if (ctxOf t n).wait = .avload av true then nextAt u n else u)) ∧
    (∀ e, teRead s cl (avloadCmd l) l.va l.len false = (t, .error (.inr e)) →
      let u := modAv t av fun a => { a with loads := a.loads.drop 1 }
      exec (.avloadCopyDone n) s = .next (if (ctxOf t n).wait = .avload av true then takeTrapAt u n { e with abnd := true } else u)) ∧
    (∀ x, teRead s cl (avloadCmd l) l.va l.len false = (t, .error (.inl x)) →
      exec (.avloadCopyDone n) s = .next (biWait t x (.avloadCopyDone n))))

/-- R26, R146, R247, R371, R372: a queued transfer command starts and its first chunk is due; a chunk whose bytes are charged
moves one unit and takes the rotation of its class, one that is not charged asks for its grant, one whose port is full waits;
the last makes the command complete; a command whose data has moved, and whose writes are acknowledged where it releases at
SYS, completes as it names, with a message, at a barrier, in a circular buffer, or silently.

R371: after a chunk or row of memory to memory, or to a cell, each piece of the destination holds the bytes of its source, and no
other byte of memory has changed.

R174, R176, R192, R372: what each end of a command leaves: the words of XDONE and of XFAULT, the barrier's count and phase, the
slot of the circular buffer. -/
def Obligations.TransferEvents : Prop := ∀ (s t : State) (cl n : Nat) (m u : TeCmd),
  let d := clOf s cl; let picked := (teClass d).bind (teNextOf d); let after := if m.kind = 0 then min m.len (4096 * (m.done + 1)) else m.len * (m.done + 1)
  let turns (t : State) : State := modCl t cl fun e => { e with teRot := e.teRot.set m.cls m.id, tePassed := tePass d m.cls }
  (d.te = [] → exec (.teCommandStart cl) s = .next s) ∧
  (d.te = [m] → m.cls < 4 → m.running = false → m.fail = 0 → m.compl ≠ 2 →
    (m.done ≠ m.units → Does (.teCommandStart cl) s fun t =>
      (clOf t cl).te = [{ m with running := true }] ∧ .teChunk cl ∈ t.agenda ∧ SameMem s t) ∧
    (m.done = m.units → Does (.teCommandStart cl) s fun t =>
      (clOf t cl).te = [{ m with running := true, moved := true }] ∧ .teCommandComplete cl m.id ∈ t.agenda ∧ SameMem s t)) ∧
  (picked = none → exec (.teChunk cl) s = .next s) ∧
  (picked = some m → m.charged < after → exec (.teChunk cl) s = .next (teGo (askGrant
    (tePut (endGrant s (.te cl m.id)) cl { m with grant := none, waitGrant := true }) (clDie cl) (.te cl m.id) m.cls ((m.segEu + 3) / 4) 3) cl)) ∧
  (picked = some m → after ≤ m.charged →
    (peerFull s m = true → Does (.teChunk cl) s fun t => (clOf t cl).te = d.te ∧ .teChunk cl ∈ t.agenda ∧ SameMem s t) ∧
    (peerFull s m = false →
      (teUnit s cl m = (t, .ok u) →
        (u.done ≠ u.units → exec (.teChunk cl) s = .next (teGo (tePut (turns t) cl u) cl)) ∧
        (u.done = u.units → exec (.teChunk cl) s =
          .next (teGo (later (tePut (turns t) cl { u with moved := true }) (.teCommandComplete cl u.id)) cl))) ∧
      (∀ e, teUnit s cl m = (t, .error (.inr e)) → exec (.teChunk cl) s = .next (teFault t cl m e)) ∧
      (∀ x, teUnit s cl m = (t, .error (.inl x)) → exec (.teChunk cl) s = .next (biWait t x (.teChunk cl))))) ∧
  (picked = some m → after ≤ m.charged → m.dstPeer = none → CleanMem s →
    ∀ x i, (m.kind = 0 ∧ x = s ∧ i = 0) ∨ (m.kind ≠ 0 ∧ ∃ bs, teRead s cl m (m.index + 4 * m.done) 4 true = (x, .ok bs) ∧ i = leNat bs) →
    let packed := m.done * (if m.packpitch = 0 then m.len else m.packpitch)
    let src := if m.kind = 0 then m.src + 4096 * m.done else if m.kind = 1 then m.src + i * m.stride else m.src + packed
    let dst := if m.kind = 0 then m.dst + 4096 * m.done else if m.kind = 1 then m.dst + packed else m.dst + i * m.stride
    let n := if m.kind = 0 then min 4096 (m.len - 4096 * m.done) else m.len
    ∀ y y1 ps bs, teRead x cl m src n m.noalloc = (y, .ok bs) → tePieces x cl m src n .read = (y1, .ok ps) → (∀ p ∈ ps, Plain s p) →
      bs.length = n ∧ bs = ps.flatMap (fun p => memRead s.mem p.pa p.n) ∧
      (m.dstCell = false → ∀ z qs, tePieces y cl m dst n .write = (z, .ok qs) → Writable s z dst qs →
        Does (.teChunk cl) s fun t => Lands s t qs bs) ∧
      (m.dstCell = true → let hc := handleCl m.handle; let k := cellOf s hc (handleIx m.handle)
        let at_ := combKey hc (k.base * 512 + dst)
        (if m.kind = 2 then teCellStop x m dst n else teCellStop x m m.dst
          (if m.kind = 0 then m.len else (m.rows - 1) * (if m.packpitch = 0 then m.len else m.packpitch) + m.len)) = none →
        Does (.teChunk cl) s fun t => memRead t.mem at_ n = bs ∧ SameMemBut s t at_ n)) ∧
  (∀ st, ∃ w d, (teXdone s cl m st).agenda = s.agenda ++
    [.messageDelivery m.issuer ⟨w, m.tag, wd (st + m.done * 2 ^ 32), wd m.written, d⟩ none]) ∧
  (∀ e : Trap, (e.cause ≠ 4 ∨ teRestartPut s cl m false = none → teFault s cl m e = teXdone (teLeave s cl m) cl m e.cause) ∧
    (∀ k u, e.cause = 4 → teRestartPut s cl m false = some (k, u) → ∃ w d, (teFault s cl m e).agenda = (teLeave u cl m).agenda ++
      [.messageDelivery m.issuer ⟨w, wd k, wd (e.tval % 2 ^ 48 + m.asid * 2 ^ 48 + e.tval / 2 ^ 48 % 4 * 2 ^ 60 + e.tval / 2 ^ 50 % 2 * 2 ^ 62),
        wd (m.done % 2 ^ 32 + m.cls * 2 ^ 32), d⟩ none])) ∧
  (∀ o b ts : Nat, let w := barGet s cl o; let w1 := barAddPend (setFld w 72 24 (max (barSts w) ts)) (-(b : Int)); let t := teDone s cl o b ts
    let full := barArrived w1 = barExpect w1 ∧ barPend w1 = 0 ∧ !barOvf w1
    barGet t cl o = (if full then setFld (setFld (setFld w1 0 16 (barPhase w1 + 1)) 31 15 0) 16 15 0 else w1) % 2 ^ 128 ∧
    SameMemBut s t (combKey cl o) 16) ∧
  (∀ ts, let bc := (m.complAddr - 2 ^ 52) / 2 ^ 22; let bo := m.complAddr % 2 ^ 22; let w := cbGet s bc bo
    cbSealf w = false → ∃ t, teFilled s m ts = some (.ok t) ∧ cbGet t bc bo =
      setFld (setFld (setFld w (512 + 2 * m.slot.getD 0) 2 2) 64 9 (cbFillCnt w + 1)) 160 24 (max (cbSts w) ts) % 2 ^ 1024 ∧
      SameMemBut s t (combKey bc bo) 128) ∧
  (teGet s cl n = none → exec (.teCommandComplete cl n) s = .next s) ∧
  (teGet s cl n = some m → m.moved = false ∨ (m.scope = 2 ∧ m.rel = true ∧ m.unacked ≠ 0) → exec (.teCommandComplete cl n) s = .next s) ∧
  (teGet s cl n = some m → m.moved = true → (m.scope = 2 ∧ m.rel = true → m.unacked = 0) →
    let ts := if m.rel then m.wmax else 0; let bc := (m.complAddr - 2 ^ 52) / 2 ^ 22; let bo := m.complAddr % 2 ^ 22
    (m.fail ≠ 0 → exec (.teCommandComplete cl n) s = .next (teXdone (teLeave s cl m) cl m m.fail)) ∧
    (m.fail = 0 →
      (m.compl = 0 → exec (.teCommandComplete cl n) s = .next (teXdone (teLeave s cl m) cl m 0)) ∧
      (m.compl = 1 → bo ∈ (clOf s bc).bars → exec (.teCommandComplete cl n) s = .next (teDone (teLeave s cl m) bc bo m.amount ts)) ∧
      (m.compl = 1 → bo ∉ (clOf s bc).bars → exec (.teCommandComplete cl n) s = .next (teXdone (teLeave s cl m) cl m 0x0D)) ∧
      (m.compl = 2 → teFilled s m ts = some (.ok t) → exec (.teCommandComplete cl n) s = .next (teLeave t cl m)) ∧
      (∀ k, m.compl = 2 → teFilled s m ts = some (.error k) → exec (.teCommandComplete cl n) s = .next (teXdone (teLeave s cl m) cl m k)) ∧
      (m.compl = 2 → teFilled s m ts = none → exec (.teCommandComplete cl n) s = .next s) ∧
      (m.compl = 3 → exec (.teCommandComplete cl n) s = .next (teLeave s cl m) ∧ teGet (teLeave s cl m) cl n = none)))

/-- A record starts the context of a slot: the registers of R118. -/
def Sys2Proof.Safety.Started (s t : State) (n : Nat) (r : LRec) : Prop :=
  let c := ctxOf t n; let pc := if r.pc = 0 ∧ r.form = .group then (groupOf s r.target).entrypc else r.pc
  c.active = true ∧ c.gen = ((ctxOf s n).gen + 1) % 4096 ∧ c.nameCxa = n ∧ c.nameGen = c.gen ∧ c.pc = wd pc ∧ c.cls = r.cls ∧
  c.asid = r.asid ∧ c.priv = .u ∧ c.tl = 0 ∧ (∀ q : XReg, c.getX q = if q = 4 then r.a0 else if q = 5 then r.a1 else 0) ∧
  c.pts = max (ctxOf s n).pts r.ts ∧ c.mts = c.pts ∧ c.mrts = c.pts ∧ c.mailbox = [] ∧ c.sb = [] ∧ c.wait = .none ∧ c.tvec = 0

/-- R110 to R118, R130 to R140, R157, R196: a record of the host is taken in, delivered to a queue and started; a record of a
context is accepted, its issuer going on, or refused; a group's record is forwarded, starts there or returns; a SPAWN goes
round its owners; a victim is saved and the record starts on its slot. Class-0 records of one mesh cycle stand in the order
of their sources.
When a class-0 record pre-empts, where a GROUP record is counted and when a record of an invalid group goes are
readings of the model (log 46, log 59); that a write past the window is malformed as a whole is its choice (log 71). -/
def Obligations.Scheduling : Prop := ∀ (s : State) (bs : List Byte) (off cl n g h : Nat) (r : LRec) (idle : Bool) (k : Nat),
  let lq := (clOf s cl).lq; let taken : LRec := { r with seq := s.seq, passed := 0, hops := 0, at_ := meshCyc s }
  let room := (lq.filter (·.cls == r.cls)).length < 64
  let queued (t : State) : Prop := (clOf t cl).lq = insRec lq taken
  let on (t : State) : Prop := (ctxOf t n).pc = (ctxOf s n).pc + 4 ∧ (ctxOf t n).wait = .none ∧ (ctxOf t n).pledge = none
  let gone (t : State) : Prop := ∀ e ∈ t.clusters, ∀ w ∈ e.2.lq, w.seq ≠ r.seq
  (r.cls ≠ 0 → insRec lq taken = lq ++ [taken]) ∧
  (∀ a ∈ lq, r.cls = 0 → lq = [a] → insRec lq taken =
    if a.cls = 0 ∧ a.at_ = meshCyc s ∧ recSrc taken < recSrc a then [taken, a] else [a, taken]) ∧
  (hostShut s = true → exec (.launchWrite off bs) s = .next s) ∧
  (hostShut s = false →
    (off % 64 ≠ 0 ∨ bs.length % 64 ≠ 0 ∨ bs = [] ∨ 2 ^ 20 < off + bs.length →
      exec (.launchWrite off bs) s = .next { s with launchMalformed := min (s.launchMalformed + 1) 65535 }) ∧
    (off % 64 = 0 → bs.length = 64 → off + 64 ≤ 2 ^ 20 →
      (s.devst ≠ .ready → exec (.launchWrite off bs) s = .next { s with early := min (s.early + 1) 65535 }) ∧
      (s.devst = .ready → s.stopped = false → s.launchBuf.length < 1024 → r = hostRec s bs → launchBad s bs r = none → r.form ≠ .spawn →
        r.cls ≠ 0 → exec (.launchWrite off bs) s = .next (later { s with
          seq := s.seq + 1, launchBuf := s.launchBuf ++ [{ r with seq := s.seq }] } .launchDelivery)))) ∧
  (s.launchBuf = [] → exec .launchDelivery s = .next s) ∧
  (s.launchBuf = [r] → hostCluster s r = some cl → staleNamed s r = false →
    (room → Does .launchDelivery s fun t => t.launchBuf = [] ∧ queued t ∧ t.seq = s.seq + 1) ∧
    (¬room → exec .launchDelivery s = .next s)) ∧
  (launchHolder s r = none → exec (.launchQueueEntry cl r) s = .next s ∧ exec (.spawnPacketArrival cl r) s = .next s) ∧
  (launchHolder s r = some n → staleNamed s r = false →
    (room → Does (.launchQueueEntry cl r) s fun t => queued t ∧ on t) ∧
    (¬room → Does (.launchQueueEntry cl r) s fun t => (clOf t cl).lq = lq ∧ (ctxOf t n).wait = .launch cl r true ∧
      (ctxOf t n).pc = (ctxOf s n).pc ∧ (ctxOf t n).nxtdl = (ctxOf s n).nxtdl ∧ (ctxOf t n).lastC0 = (ctxOf s n).lastC0)) ∧
  (launchHolder s r = some n → (spawnOwners s r.target).all (poolless s) = false →
    (spawnFits s cl r = true ∨ (spawnOwners s r.target).length ≤ r.hops → room → Does (.spawnPacketArrival cl r) s fun t =>
      queued t ∧ on t) ∧
    (spawnFits s cl r = false → spawnOwners s r.target = [g, h, k] → r.hops < 3 → exec (.spawnPacketArrival cl r) s =
      .next (later s (.spawnPacketArrival ([g, h, k].getD ((r.hops + 1) % 3) cl) { r with hops := r.hops + 1, via := cl })))) ∧
  (lq = [] → (clOf s cl).arrived = [] → exec (.schedulerStart cl) s = .next s) ∧
  (lq = [r] → (clOf s cl).arrived = [] → r.form = .named → r.cls < 4 → n = r.target % 2 ^ 15 → Sys2Proof.Machine.idle s n = true →
    staleNamed s r = false → fwdEntry s r.target = none → r.deadline = none → Does (.schedulerStart cl) s fun t =>
      Started s t n r ∧ gone t) ∧
  (clusterOk (groupOf s g).bcluster → Does (.idleNotice g cl idle) s fun t => ∃ w, fget (clOf t (groupOf s g).bcluster).homes g = some w ∧
    (cl ∈ w.marks ↔ idle = true) ∧ SameMem s t) ∧
  ((∃ e ∈ s.clusters, ∃ w ∈ e.2.lq, w.seq = r.seq) → exec (.forwardedRecordArrival cl r) s =
    .next (modCl s cl fun c => { c with arrived := c.arrived ++ [{ r with at_ := meshCyc s }] })) ∧
  ((∀ e ∈ s.clusters, ∀ w ∈ e.2.lq, w.seq ≠ r.seq) → exec (.forwardedRecordArrival cl r) s = .next s) ∧
  (lq = [] → (clOf s cl).arrived = [r] → r.form = .group → r.cls < 4 →
    (pickCtx s cl r = some n → (groupOf s r.target).valid = true → r.deadline = none → Does (.schedulerStart cl) s fun t =>
      Started s t n r ∧ gone t ∧ (clOf t cl).arrived = []) ∧
    (pickCtx s cl r = some n → (groupOf s r.target).valid = false → Does (.schedulerStart cl) s fun t =>
      gone t ∧ (clOf t cl).arrived = [] ∧ t.ctxs = s.ctxs) ∧
    (pickCtx s cl r = none → pickVictim s cl r = none → Does (.schedulerStart cl) s fun t =>
      .returnedRecordArrival { r with via := cl } ∈ t.agenda ∧ (clOf t cl).arrived = [] ∧ t.ctxs = s.ctxs ∧ SameMem s t)) ∧
  (exec (.returnedRecordArrival r) s =
    .next (lqMap s fun w => if w.seq = r.seq then { w with hops := 0, passed := r.passed } else w)) ∧
  (let c := ctxOf s n
   c.preempt = none → c.active = true ∨ fget s.saved n = none → exec (.preemptSaveDone n) s = .next s) ∧
  (let c := ctxOf s n
   c.preempt = some r → c.active = true → c.dying = false → c.wait = .none → c.loads = [] → c.sb = [] → c.grant = none →
     (clOf s (slotCl n)).te = [] → (dieOf s (clDie (slotCl n))).reqs = [] → imagePend s n = none → c.offAfter = false → r.deadline = none →
     (r.form = .group → (groupOf s r.target).valid = true) → Does (.preemptSaveDone n) s fun t =>
     Started s t n r ∧ (∃ v, fget t.saved n = some v ∧ v.cxa = c.nameCxa ∧ v.gen = c.nameGen ∧ v.tag = c.tag ∧ v.unacked = c.unacked) ∧
     (clOf t (slotCl n)).preempts = min ((clOf s (slotCl n)).preempts + 1) 65535)

/-! ## Power, heat and migration -/

/-- R14, R20, R22, R23, R26, R30 to R32, R122, R154, R155: a window refills a die's level, the end of a grant returns what
it left, a clock step takes effect, the ranking table holds the coolest clusters, heat takes a barrel slot away and gives it
back, boosts come and go with the steps of R154, an owed interrupt is signalled, and a bridge error is reported.

R151 and R201: the marker of a class leaves the classes still out; after the last the image sets out, and a context
that stands still takes an idle slot of the cluster chosen with its registers, clocks and name, while the old slot is empty and disabled and its
origin forwards.
The base step, what becomes of a slot heat takes, and the details of a migration are choices of the model (log 33, log
34, log 35). -/
def Obligations.PowerHeatAndMigration : Prop :=
  (∀ (s : State) (d n k cl off core temp q : Nat) (temps : List (Nat × Nat)) (g : Grant)
     (o : BridgeOutcome),
   let e := dieOf s d; let b := s.watts * 500; let c := clOf s cl; let y := coreOf s core; let h := if q = 0 then s.evq else s.fsq
   let boosted (t : State) : Prop := ∀ j < 256, clusterOk j = true → (clOf t j).boost =
     (allBoosts t).foldl (fun m p => max m (boostSteps t (clDie j) p.1 p.2 j)) 0
   let quiet : Prop := ∀ j, (dieOf s j).reqs = []
   (d < 4 → s.gtcRun = true → quiet → Does (.windowBoundary d) s fun t => SameMem s t ∧ t.ctxs = s.ctxs ∧
     (dieOf t d).level = min e.level ((b / 2 : Nat) : Int) + b - ((dieEnergy t d - e.mark - Config.admitted s.fresh : Nat) : Int) ∧
     (dieOf t d).b = b ∧ (dieOf t d).mark = dieEnergy t d ∧ (dieOf t d).win = e.win + 1 ∧ ∀ j, j ≠ d → dieOf t j = dieOf s j) ∧
   (4 ≤ d ∨ s.gtcRun = false → exec (.windowBoundary d) s = .next s) ∧
   (quiet → (ctxOf s n).grant = some g → g.endCyc ≤ cycOf s n → exec (.grantEnd (.ctx n)) s =
     .next (modDie (modCtx s n fun c => { c with grant := none }) (clDie (slotCl n)) fun e => { e with level := e.level + g.left })) ∧
   (quiet → k < 2 → (avCtx (avOf s n) k).grant = some g → g.endCyc ≤ (clOf s (n / 2)).cyc → exec (.grantEnd (.anvil n k)) s =
     .next (modDie (modAvCtx s n k fun c => { c with grant := none }) (clDie (n / 2)) fun e => { e with level := e.level + g.left })) ∧
   (c.order = some k → exec (.clockStepChangeDone cl) s = .next (modCl s cl fun c => { c with cur := k, order := none })) ∧
   (d < 4 → (∀ p ∈ temps, p.2 < 256) → Does (.thermalTableRefresh d temps) s fun t =>
     let own := temps.filter fun p => clusterOk p.1 && clDie p.1 == d
     (dieOf t d).ranks.length = min 16 own.length ∧ (dieOf t d).ranks.Pairwise (fun x y => x.temp ≤ y.temp) ∧
     (∀ r ∈ (dieOf t d).ranks, (r.cluster, r.temp) ∈ own ∧ r.free = min 31 (idleSlots s r.cluster).length) ∧
     (∀ p ∈ own, (∀ r ∈ (dieOf t d).ranks, r.cluster ≠ p.1) → ∀ r ∈ (dieOf t d).ranks, r.temp ≤ p.2) ∧ SameMem s t) ∧
   (clusterOk (core / 8) = true → (dieOf s (clDie (core / 8))).hot < temp → (∀ u, y.lastOff = some u → u + 100000 ≤ s.gtc) → cl = core / 8 →
     (offCount y < 12 → givingUp s core = false → hotSlot s core = some n →
       ((ctxOf s n).active = false → Does (.thermalSlotDisable core temp) s fun t => SameMem s t ∧
         (coreOf t core).off = y.off ||| BitVec.ofNat 16 (2 ^ (n % 16)) ∧ (coreOf t core).lastOff = some s.gtc) ∧
       ((ctxOf s n).active = true → (ctxOf s n).preempt = none → fwdEntry s (nameOf (ctxOf s n)) ≠ none →
         (dieOf s (clDie cl)).ranks.find? (fun r => decide (1 ≤ r.free) && r.cluster != slotCl n) = some ⟨k, d, q⟩ →
         Does (.thermalSlotDisable core temp) s fun t => SameMem s t ∧ (ctxOf t n).moving = some ([0, 1, 2, 3], k) ∧
           (coreOf t core).off = y.off ∧ ∀ j < 4, .flushMarker (nameOf (ctxOf s n)) j ∈ t.agenda)) ∧
     (offCount y < 12 → givingUp s core = true → Does (.thermalSlotDisable core temp) s fun t => SameMem s t ∧ t.ctxs = s.ctxs ∧
       (coreOf t core).off = y.off ∧ (coreOf t core).lastOff = y.lastOff) ∧
     (12 ≤ offCount y → Does (.thermalSlotDisable core temp) s fun t => SameMem s t ∧ (clOf t cl).base = min c.base c.cap - 1 ∧
       (coreOf t core).off = y.off)) ∧
   (clusterOk (core / 8) = true → temp + 5 < (dieOf s (clDie (core / 8))).hot → cl = core / 8 →
     (k < 16 → y.off.getLsbD k = true → (∀ j < k, y.off.getLsbD j = false) → (∀ u, y.lastOn = some u → u + 1000000 ≤ s.gtc) →
       Does (.thermalSlotEnable core temp) s fun t => SameMem s t ∧ (coreOf t core).lastOn = some s.gtc ∧
         (coreOf t core).off = y.off &&& ~~~(BitVec.ofNat 16 (2 ^ k))) ∧
     ((∀ u, y.lastRegain = some u → u + 1000000 ≤ s.gtc) → c.base < c.cap → Does (.thermalSlotEnable core temp) s fun t =>
       SameMem s t ∧ (clOf t cl).base = c.base + 1)) ∧
   (boostOn s cl off = true → (∀ p ∈ c.boosts, p.off ≠ off) → Does (.boost cl off) s fun t => boosted t ∧ SameMem s t ∧
     t.ctxs = s.ctxs ∧ (clOf t cl).boosts.map (fun p => (p.off, p.group)) = c.boosts.map (fun p => (p.off, p.group)) ++ [(off, fld (barGet s cl off) 64 8)]) ∧
   (boostOn s cl off = false → Does (.release cl off) s fun t => boosted t ∧ SameMem s t ∧ t.ctxs = s.ctxs ∧
     (clOf t cl).boosts.map (·.off) = (c.boosts.filter (·.off != off)).map (·.off)) ∧
   (q < 2 → h.owedIrq = true → (∀ u, h.lastIrq = some u → u + h.moderate * 1000 ≤ s.gtc) → (h.lastIrq = none → h.moderate = 0) →
     Does (.moderationIntervalExpiry q) s fun t => t.irqs = fset s.irqs h.vector ((fget s.irqs h.vector).getD 0 + 1) ∧
       (if q = 0 then t.evq else t.fsq) = { h with owedIrq := false, lastIrq := some s.gtc } ∧ SameMem s t ∧ t.ctxs = s.ctxs) ∧
   (d < 4 → Does (.bridgeReplay d o) s fun t => (t.stopped = true ↔ s.stopped = true ∨ o = .uncontained) ∧ t.ctxs = s.ctxs ∧
     (s.evq.en = false → s.evq.held.length < 256 → s.evq.dropped = 0 → t.evq.held = s.evq.held ++ [record 64 [(0, 8, s.gtc),
       (8, 2, unitSrc 10 d), (10, 2, s.devid), (12, 1, 4), (13, 1, if o = .replayed then 0 else 2), (14, 2, 1), (40, 4, d),
       (44, 4, (Config.syndrome s.fresh).toNat)]]))) ∧
  (∀ (s : State) (n o k dst : Nat) (l : List Nat) (f : Fwd),
   let c := ctxOf s n; let cl := slotCl n
   whereIs s o = some n → c.moving = some (l, dst) →
   (k ∈ l → l.filter (· != k) ≠ [] →
     exec (.flushMarker o k) s = .next (modCtx s n fun c => { c with moving := some (l.filter (· != k), dst) })) ∧
   (l = [k] → exec (.flushMarker o k) s =
     .next (later (modCtx s n fun c => { c with moving := some ([], dst) }) (.imageInstall o))) ∧
   (l = [] → c.active = true → c.dying = false → c.wait = .none → c.loads = [] → c.sb = [] → c.preempt = none → c.grant = none →
     (clOf s cl).te = [] → (clOf s cl).restarts = [] → (∀ j, (clOf s j).spill = []) → idleSlots s dst ≠ [] → o < 2 ^ 28 →
     fwdEntry s o = some f → Does (.imageInstall o) s fun t => ∃ m ∈ idleSlots s dst, SameMem s t ∧
       let e := ctxOf t m
       e.active = true ∧ nameOf e = nameOf c ∧ e.pc = c.pc ∧ (∀ r, e.getX r = c.getX r) ∧ e.v = c.v ∧ e.m = c.m ∧ e.priv = c.priv ∧
       e.tl = c.tl ∧ e.asid = c.asid ∧ e.cls = c.cls ∧ e.pts = c.pts ∧ e.mts = c.mts ∧ e.mrts = c.mrts ∧ e.mailbox = c.mailbox ∧
       (ctxOf t n).active = false ∧ (coreOf t (slotCore n)).off.getLsbD (n % 16) = true ∧ fwdEntry t o = some { f with here := m, moving := false }))

/-! ## Bring-up, registers of the host port -/

/-- R23, R43 to R46, R101, R102: a reset leaves the reset state but for what the device does not hold; the state machine of
bring-up goes from RESET through AUTH, HBM_TRAIN and CONFIG to READY or to BOOT_FAIL or FAILED; a firmware load starts the check again; a
report over the nonce as it stands becomes readable when it is done. That host memory and the interrupts signalled outlive a
device reset, and that ATTCMD while BUSY has no effect, are choices of the model (log 36, log 77). -/
def Obligations.BringUp : Prop := ∀ (s : State) (r : BootResult) (src : Nat) (val : Word),
  (exec .deviceReset s = .next { State.reset with
      fresh := s.fresh, seq := s.seq, resets := s.resets + 1, keys := [(0, .boot (s.resets + 1))], irqs := s.irqs,
      mem := s.mem.filter fun c => decide (2 ^ 48 ≤ c.1 ∧ c.1 < 2 ^ 52) }) ∧
  (s.devst = .reset → Does .resetRelease s fun t => t.devst = .auth ∧ (∃ o, t.agenda = s.agenda ++ [.bootAuth o]) ∧
    t.linkRate ∈ [4, 5, 6] ∧ t.linkWidth ∈ [4, 8, 16] ∧ SameMem s t ∧ t.ctxs = s.ctxs) ∧
  (s.devst = .auth →
    ((∀ d, (dieOf s d).reqs = []) → Does (.bootAuth .accepted) s fun t => t.devst = .hbmTrain ∧ t.gtcRun = true ∧ t.gtc = s.gtc ∧
      t.fwBusy = false ∧ t.fwResult = 0 ∧ (∃ f, t.agenda = s.agenda ++ [.hbmTrainDone f]) ∧
      ∀ d < 4, (dieOf t d).level = ((s.watts * 500 : Nat) : Int) ∧ (dieOf t d).b = s.watts * 500) ∧
    (r ≠ .accepted → exec (.bootAuth r) s = .next { s with
      devst := .bootFail, fwBusy := false, fwResult := if r = .badSignature then 1 else if r = .rollback then 2 else 3 })) ∧
  (s.devst = .hbmTrain →
    (src < 8 → exec (.hbmTrainDone (some src)) s = .next { s with devst := .failed, failsrc := unitSrc 3 src }) ∧
    (8 ≤ src → src < 12 → exec (.hbmTrainDone (some src)) s = .next { s with devst := .failed, failsrc := unitSrc 10 (src - 8) }) ∧
    Does (.hbmTrainDone none) s fun t => t.devst = .config ∧ t.poison = [] ∧ t.lineKey = [] ∧
      (∀ a, a < 2 ^ 40 → memGet t.mem a = 0) ∧ ∀ a, 2 ^ 40 ≤ a → memGet t.mem a = memGet s.mem a) ∧
  (s.devst = .config → exec .devstatGo s = .next { s with devst := .ready, early := 0 }) ∧
  (s.devst ≠ .config → exec .devstatGo s = .next s) ∧
  (s.devst ≠ .bootFail → exec (.fwcmd val) s = .next { s with badacc := min (s.badacc + 1) 65535 }) ∧
  (s.devst = .bootFail → val.getLsbD 0 = true → Does (.fwcmd val) s fun t => t.devst = .auth ∧ t.fwBusy = true ∧
    (∃ o, t.agenda = s.agenda ++ [.bootAuth o]) ∧ t.fwDigest = sha256 (memRead s.mem (2 ^ 48 + s.fwaddr) s.fwlen) ∧ SameMem s t) ∧
  (hostShut s = false → val.getLsbD 0 = true → s.attBusy = false → Does (.attcmd val) s fun t => t.attBusy = true ∧ t.nonce = s.nonce ∧
    t.agenda = s.agenda ++ [.attestationReportDone] ∧ SameMem s t ∧ ∃ a : AttReport, t.report = (Config.report s.fresh a).take 1024 ∧
      a.nonce.take s.nonce.length = s.nonce ∧ a.firmware = s.fwDigest ∧ a.avCode = sha256 (Config.microcode 0) ∧
      a.swCode = sha256 (Config.microcode 1) ∧ a.hbmLocal = s.hbmLocal ∧ a.watts = s.watts ∧ a.rollback = Config.rollback) ∧
  (hostShut s = true ∨ val.getLsbD 0 = false → exec (.attcmd val) s = .next s) ∧
  (s.attBusy = true → exec (.attcmd val) s = .next s ∧
    exec .attestationReportDone s = .next { s with attBusy := false, attLen := s.report.length })

/-- R57, R98 to R102, R119, R120, R122, R154: the function reports its device id and class code; a register access that is not 4 or 8 bytes at its alignment is an Unsupported
Request and counted; a read gives the register's value in little-endian order; a write stores what the field map allows.
INCARNATION, the group table and CONS take a write under the conditions of their rules, and none in BOOT_FAIL.
Partial writes, a write to a VALID group entry, the AER bit and the offsets that name the configuration header are readings
and choices of the model (log 38, log 39, log 69, log 80). -/
def Obligations.HostRegisters : Prop := ∀ (s : State) (off size e q c k : Nat) (val : Word),
  let v := val.toNat; let w := v % 2 ^ 32
  let reads (off size x : Nat) : Prop := exec (.bar0Read off size) s = .next { s with hostUr := false, hostRd := leBytes size x }
  let up : Prop := s.devst = .ready
  (off < 0x4000000 → (size ≠ 4 ∧ size ≠ 8) ∨ off % size ≠ 0 →
    exec (.bar0Read off size) s = .next { s with
      badacc := min (s.badacc + 1) 65535, aer := s.aer ||| 2 ^ 20, hostUr := true, hostRd := [] } ∧
    exec (.registerWrite off size val) s = .next { s with badacc := min (s.badacc + 1) 65535 }) ∧
  Does (.bar0Read 0x4200000 4) s (fun t => t.hostUr = false ∧ leNat t.hostRd / 2 ^ 16 = 0x4384 ∧ SameMem s t) ∧
  Does (.bar0Read 0x4200008 4) s (fun t => t.hostUr = false ∧ leNat t.hostRd / 2 ^ 8 = 0x120000 ∧ SameMem s t) ∧
  (off < 0x4000000 → size = 4 ∨ size = 8 → off % size = 0 →
    Does (.bar0Read off size) s (fun t => t.hostUr = false ∧ t.hostRd.length = size ∧ SameMem s t ∧ t.ctxs = s.ctxs) ∧
    Does (.registerWrite off size val) s fun t => t = if size = 4 then write4 s off w else write8 s off v) ∧
  (up → s.devid < 2 ^ 32 → s.incarnation < 2 ^ 32 → s.watts < 2 ^ 32 → s.gtc < 2 ^ 64 → s.badacc < 2 ^ 32 → s.asidroot < 2 ^ 64 →
    reads 0x08 4 s.devid ∧ reads 0x0C 4 s.incarnation ∧ reads 0x14 4 s.watts ∧ reads 0x20 4 s.badacc ∧ reads 0x30 8 s.asidroot ∧
    reads 0x20000 8 s.gtc ∧ reads 0x20004 4 (s.gtc / 2 ^ 32)) ∧
  (up →
    exec (.registerWrite 0x08 4 val) s = .next s ∧
    exec (.registerWrite 0x14 4 val) s = .next { s with watts := max 600 (min 1800 (w % 2 ^ 12)) } ∧
    exec (.registerWrite 0x20 4 val) s = .next { s with badacc := w % 2 ^ 16 } ∧
    exec (.registerWrite 0x30 8 val) s = .next { s with asidroot := v / 2 ^ 15 % 2 ^ 37 * 2 ^ 15 } ∧
    exec (.registerWrite 0x200100 4 val) s = .next { s with deadTimeout := max 3 (w % 2 ^ 16) } ∧
    exec (.registerWrite 0x200104 4 val) s = .next { s with inboundEn := val.getLsbD 31, inboundAsid := w % 2 ^ 12 } ∧
    (c < 256 → clusterOk c = true → Does (.registerWrite (0x100000 + 4 * c) 4 val) s fun t => (clOf t c).cap = min 14 (w % 16)) ∧
    (c < 512 → clusterOk (c / 2) = true → exec (.registerWrite (0x1000190 + c / 2 * 0x10000 + c % 2 * 4) 4 val) s =
      .next (modAv s c fun a => { a with tqclass := BitVec.ofNat 16 w })) ∧
    (c < 16 → exec (.registerWrite (0x300010 + 0x10000 * c) 4 val) s = .next (modView s c fun x => { x with vdiscard := w })) ∧
    (c < 12 → exec (.registerWrite (0x200008 + 16 * c) 4 val) s =
      .next (modPort s c fun q => { q with badpkt := w % 2 ^ 16, noroute := w / 2 ^ 16 }))) ∧
  (hostShut s = true → exec (.incarnationWrite val) s = .next s ∧ exec (.groupTableWrite e off size val) s = .next s ∧
    exec (.qconsWrite q val) s = .next s) ∧
  (hostShut s = false → s.devst ≠ .ready ∨ (∀ n < 16, (viewOf s n).st = .free ∨ (viewOf s n).st = .excluded) →
    exec (.incarnationWrite val) s = .next { s with incarnation := w }) ∧
  (up → k < 16 → (viewOf s k).st = .active →
    exec (.incarnationWrite val) s = .next { s with badacc := min (s.badacc + 1) 65535 }) ∧
  (hostShut s = false → e < 256 → off < 32 → size = 4 ∨ size = 8 → off % size = 0 →
    let g := groupOf s e; let n := groupFrom (setFld (groupVal g) (8 * off) (8 * size) v)
    (g.valid = false → exec (.groupTableWrite e off size val) s = .next (boostGroup { s with groups := fset s.groups e n } e)) ∧
    (g.valid = true → off ≤ 4 → 8 ≤ off + size → { n with valid := true } = g →
      exec (.groupTableWrite e off size val) s = .next (boostGroup { s with groups := fset s.groups e { g with valid := n.valid } } e)) ∧
    (g.valid = true → 4 < off ∨ off + size < 8 ∨ { n with valid := true } ≠ g →
      exec (.groupTableWrite e off size val) s = .next { s with badacc := min (s.badacc + 1) 65535 })) ∧
  (hostShut s = false → q < 2 → let h := if q = 0 then s.evq else s.fsq;
    (2 ^ h.logsize < (h.prod + 2 ^ 32 - w) % 2 ^ 32 → exec (.qconsWrite q val) s = .next s) ∧
    ((h.prod + 2 ^ 32 - w) % 2 ^ 32 ≤ 2 ^ h.logsize → s.evq.held = [] → s.evq.dropped = 0 → s.fsq.held = [] →
      exec (.qconsWrite q val) s = .next (if q = 0 then { s with evq := { h with cons := w } } else { s with fsq := { h with cons := w } })))

/-! ## Links -/

/-- A port enters a state: the time is noted and an event record says so (R53, R124). -/
def Sys2Proof.Safety.LinkGoes (s t : State) (port : Nat) (st : PortSt) (peer : Nat) : Prop :=
  (portOf t port).st = st ∧ (portOf t port).since = s.gtc ∧ (∀ q, q ≠ port → (portOf t q).st = (portOf s q).st) ∧
  (s.evq.en = false → s.evq.held.length < 256 → s.evq.dropped = 0 →
    s.evq.held ++ [record 64 [(0, 8, s.gtc), (8, 2, unitSrc 5 port), (10, 2, s.devid), (12, 1, 0x10), (16, 1, port),
      (17, 1, (portOf s port).st.code), (18, 1, st.code), (20, 2, peer)]] <+: t.evq.held)

/-- R48 to R52, R58, R59: a packet's header and data stand as R51 lays them out; a flit that fails its check is dropped and
asked for, and so is one that comes too early; a flit in order is taken with its credits and ACKSEQ, its packets go to the
unit they are for, on towards another device with one hop more, or are counted as bad; an idle flit carries credits alone; a
replay request makes the flits from its SEQ go out again; sixteen without an advance, or one for a flit no longer held,
retrain the link. The polynomial, one class of packets a flit, and replay requests outside the sequence, are choices of the
model (log 9, log 50). -/
def Obligations.Flits : Prop := ∀ (s : State) (p seq : Nat) (bytes : List Byte) (k : Packet) (x : Nat),
  let q := portOf s p; let w := flitCtl bytes; let sq := fld w 52 12; let ack := fld w 40 12
  let sound : Prop := bytes.length = 256 ∧ w % 256 ≤ 2 ∧ leNat (bytes.drop 248) = (Config.crc64 (bytes.take 248)).toNat
  let adv : Prop := (ack + 4096 - q.ackSeq) % 4096 ≠ 0 ∧ (ack + 4096 - q.ackSeq) % 4096 < 2048
  (k.kind < 256 → k.cls < 4 → k.hops < 8 → k.dest < 4096 → k.source < 4096 → k.tag < 65536 → k.data.length ≤ 224 →
    k.data.length % 16 = 0 → k.resv = false → k.ce = none → packetAt (packetBytes k) = k ∧ (packetBytes k).length = 16 + k.data.length ∧
      leNat ((packetBytes k).drop 8 |>.take 8) = k.tag + k.data.length / 16 * 2 ^ 16 + k.source * 2 ^ 24 + k.dest * 2 ^ 36 +
        k.hops * 2 ^ 51 + k.cls * 2 ^ 54 + k.kind * 2 ^ 56) ∧
  (12 ≤ p ∨ q.st ≠ .up → exec (.flitReceive p bytes) s = .next s ∧ exec (.replayRequest p seq) s = .next s) ∧
  (p < 12 → q.st = .up →
    (¬sound → exec (.flitReceive p bytes) s = .next (modPort s p fun q => { q with rxGap := true, ask := true })) ∧
    (sound → w % 256 ≠ 2 → sq = (q.rxSeq + 1) % 4096 →
      let taken (t : State) : Prop := (portOf t p).rxSeq = sq ∧ (portOf t p).rxGap = false ∧
        (adv → (portOf t p).ackSeq = ack ∧ (portOf t p).reqRun = 0) ∧ (¬adv → (portOf t p).ackSeq = q.ackSeq) ∧
        (portOf t p).credits = (List.range 4).map (fun c => min 64 (q.credits.getD c 0 + fld w (8 + 8 * c) 8)) ∧ SameMem s t ∧ t.ctxs = s.ctxs
      (w % 256 = 1 → Does (.flitReceive p bytes) s fun t => taken t ∧ t.agenda = s.agenda ∧ (portOf t p).owed = q.owed) ∧
      (w % 256 = 0 → flitPackets bytes = [k] →
        (k.resv = false → 1 ≤ k.kind → k.kind ≤ 8 → k.dest = s.devid → Does (.flitReceive p bytes) s fun t => taken t ∧
          (portOf t p).owed = q.owed.set k.cls (q.owed.getD k.cls 0 + 1) ∧
          t.agenda = s.agenda ++ [[.inWrite p k, .inCput p k, .inAmoAdd p k, .inAmoSwap p k, .inAmoReply p k, .inAck p k, .inNack p k,
            .inMsg p k].getD (k.kind - 1) (.inMsg p k)]) ∧
        (k.resv = true → Does (.flitReceive p bytes) s fun t => taken t ∧ t.agenda = s.agenda ∧
          (portOf t p).badpkt = min (q.badpkt + 1) 65535) ∧
        (k.resv = false → 1 ≤ k.kind → k.kind ≤ 8 → k.dest ≠ s.devid → k.hops < 4 → routeOf s k.dest = some (some x) → x ≠ p →
          Does (.flitReceive p bytes) s fun t => taken t ∧ (portOf t x).txq = (portOf s x).txq ++ [{ k with hops := k.hops + 1 }]) ∧
        (k.resv = false → 1 ≤ k.kind → k.kind ≤ 8 → k.kind ≠ 7 → k.dest ≠ s.devid → k.hops = 4 → k.source ≠ s.devid →
          routeOf s k.source = some (some x) → x ≠ p → Does (.flitReceive p bytes) s fun t => taken t ∧
            ∃ e, (portOf t x).txq = (portOf s x).txq ++ [e] ∧ e.kind = 7 ∧ e.dest = k.source ∧ e.tag = k.tag ∧
              leNat (e.data.take 1) = 0x16))) ∧
    (sound → w % 256 ≠ 2 → sq ≠ (q.rxSeq + 1) % 4096 → exec (.flitReceive p bytes) s =
      .next (if (sq + 4096 - q.rxSeq) % 4096 < 2048 ∧ q.rxGap = false then modPort s p fun q => { q with rxGap := true, ask := true }
        else s)) ∧
    (sound → w % 256 = 2 → exec (.flitReceive p bytes) s = exec (.replayRequest p sq) (modPort s p fun q => q.acked ack)) ∧
    (q.reqRun + 1 < 16 → seq % 4096 = q.txSeq ∨ (∃ r ∈ q.replay, r.1 = seq % 4096) →
      exec (.replayRequest p seq) s = .next (modPort s p fun q => { q with
        reqRun := q.reqRun + 1, resend := if seq % 4096 = q.txSeq then none else some (seq % 4096), ask := q.ask || q.rxGap })) ∧
    (16 ≤ q.reqRun + 1 ∨ (seq % 4096 ≠ q.txSeq ∧ ∀ r ∈ q.replay, r.1 ≠ seq % 4096) → Does (.replayRequest p seq) s fun t =>
      LinkGoes s t p .retrain q.peer))

/-! ## Packets that arrive -/

/-- A packet is answered: the answer is queued at the port of the route to its source (R51, R52). -/
def Sys2Proof.Safety.answerOf (s : State) (p : Packet) (kind : Nat) (data : List Byte) : Packet :=
  { kind := kind, cls := p.cls, hops := 0, dest := p.source, source := s.devid, tag := p.tag, addr := p.addr, data := data,
    resv := false, ce := none }

/-- R63 to R69: inbound writes, CPUTs and AMOs perform at home or in comb and are answered, and are refused with the cause
of R67 where inbound traffic is off or a CPUT reaches into the spill area; one whose walk meets a line the host answers for
waits, and so does a write behind an earlier one to its units that waits; acknowledgements and replies reach their issuer, a
NACK makes a message or a trap; a message carries the largest FITS. An access through the tables is said of the state after
its walks have read their lines.
Packets of the own device and refused atomics are readings of the model (log 29). -/
def Obligations.InboundPackets : Prop := ∀ (s : State) (port x n cl i : Nat) (p : Packet) (q : Part) (h : Home) (r : TagRec) (op : AmoOp)
    (again : Instr),
  let va := p.addr.toNat % 2 ^ 48; let w := leNat ((p.data.drop 8).take 1); let c := ctxOf s n
  let sends (t : State) (kind : Nat) (data : List Byte) : Prop := (portOf t x).txq = (portOf s x).txq ++ [answerOf s p kind data]
  let refused (y t : State) (cause : Nat) : Prop := sends t 7 (leBytes 16 cause) ∧ SameMem y t ∧ t.ctxs = s.ctxs
  let raised (t : State) : Prop := (dieOf t (homeDie s q.line)).fits = max (dieOf s (homeDie s q.line)).fits (h.rts + 1)
  let hn := fld p.addr.toNat 32 32; let off := p.addr.toNat % 2 ^ 16; let k := cellOf s cl i; let len := p.data.length
  (p.source ≠ s.devid → routeOf s p.source = some (some x) →
    (s.inboundEn = false → ∀ j ∈ [Instr.inWrite port p, .inCput port p, .inAmoAdd port p, .inAmoSwap port p], Does j s fun t => refused s t 0x05) ∧
    (s.inboundEn = true →
      (∀ line, ((inPend s va len).orElse fun _ => waitsAhead s p) = some line →
        exec (.inWrite port p) s = .next (biWait s line (.inWrite port p))) ∧
      (inPend s va len = none → waitsAhead s p = none → let y := inWalk s va len
        (inPieces s va len .write = .ok [q] → q.n = len → q.at_ = 0 →
          (q.isComb = true → combStoreOk y va q.combCl q.combOff q.n = .ok () → Does (.inWrite port p) s fun t =>
            memRead t.mem q.pa len = p.data ∧ SameMemBut y t q.pa len ∧ sends t 6 [] ∧ t.ctxs = s.ctxs) ∧
          (q.isComb = false → HeldLine y q h → biBlocks y q.line = false → Does (.inWrite port p) s fun t =>
            memRead t.mem q.pa len = p.data ∧ SameMemBut y t q.pa len ∧ sends t 6 [] ∧ t.ctxs = s.ctxs ∧ raised t)) ∧
        (∀ e, inPieces s va len .write = .error e → Does (.inWrite port p) s fun t => refused y t e.cause)) ∧
      (fld hn 0 8 ≠ 0 ∨ clusterOk (handleCl hn) = false → Does (.inCput port p) s fun t => refused s t 0x16) ∧
      (fld hn 0 8 = 0 → clusterOk (handleCl hn) = true → cl = handleCl hn → i = handleIx hn →
        let live : Prop := k.st = .opn ∧ k.dlx = false ∧ k.cgen = handleGen hn
        let clear : Prop := k.base * 512 + off + len ≤ spillBase s cl
        (¬live → Does (.inCput port p) s fun t => refused s t 0x09) ∧
        (live → k.extent < off + len → Does (.inCput port p) s fun t => refused s t 0x18) ∧
        (live → off + len ≤ k.extent → ¬clear → Does (.inCput port p) s fun t => refused s t 0x05) ∧
        (live → off + len ≤ k.extent → clear → len = 0 → Does (.inCput port p) s fun t =>
          sends t 6 [] ∧ SameMem s t ∧ t.ctxs = s.ctxs ∧ cellOf t cl i = k) ∧
        (live → off + len ≤ k.extent → clear → 0 < len →
          let a := combKey cl (k.base * 512 + off)
          Does (.inCput port p) s fun t => memRead t.mem a len = p.data ∧ SameMemBut s t a len ∧ sends t 6 [] ∧ t.ctxs = s.ctxs ∧
            (cellOf t cl i).cts = max k.cts (dieOf s (clDie cl)).fits ∧
            ∀ j < 32, (cellOf t cl i).valid.getLsbD j = (k.valid.getLsbD j ||
              (off / (k.pitch * 16) ≤ j && decide (j ≤ (off + len - 1) / (k.pitch * 16)))))) ∧
      ((op = .add ∧ again = .inAmoAdd port p) ∨ (op = .swap ∧ again = .inAmoSwap port p) →
        ((w ≠ 4 ∧ w ≠ 8) ∨ va % w ≠ 0 → Does again s fun t => refused s t 0x03) ∧
        (w = 4 ∨ w = 8 → va % w = 0 → ∀ line, inPend s va w = some line → exec again s = .next (biWait s line again)) ∧
        (w = 4 ∨ w = 8 → va % w = 0 → inPend s va w = none → inPieces s va w .amo = .ok [q] → q.n = w → let y := inWalk s va w
          HeldLine y q h → q.isComb = false → biBlocks y q.line = false → Does again s fun t =>
            let o := leNat (memRead y.mem q.pa w)
            memRead t.mem q.pa w = leBytes w (amoVal op w o (wd (leNat (p.data.take 8))).toNat 0) ∧ SameMemBut y t q.pa w ∧
            sends t 5 (leBytes 16 o) ∧ raised t ∧ t.ctxs = s.ctxs)))) ∧
  (fget s.tags p.tag = some r → whereIs s r.issuer = some n →
    let freed := tagDone s p.tag r
    (r.kind = .write ∨ r.kind = .rsd → c.wait = .none →
      (Does (.inAck port p) s fun t => t.tags = freed.tags ∧ SameMem s t ∧ ctxOf t n = { c with unacked := c.unacked - 1 }) ∧
      (port < 12 → Does (.inNack port p) s fun t => t.tags = freed.tags ∧ SameMem s t ∧ ctxOf t n = { c with unacked := c.unacked - 1 } ∧
        ∃ m, Instr.messageDelivery r.issuer m none ∈ t.agenda ∧ (r.cls < 4 → msgCls m = r.cls) ∧ m.w1 = r.addr ∧
          m.w2 = wd (leNat (p.data.take 1) + r.dest * 2 ^ 16) ∧ m.w3 = wd s.gtc)) ∧
    (∀ d wd', r.kind = .amo d wd' → c.wait = .remoteAmo p.tag d wd' →
      exec (.inAmoReply port p) s = .next (modCtx freed n fun c =>
        (c.setX (Fin.ofNat 32 d) (amoRd wd' (leNat (p.data.take wd')))).goto (c.pc + 4)) ∧
      (c.priv = .u → c.tl = 0 → c.tvec ≠ 0 → Does (.inNack port p) s fun t => t.tags = freed.tags ∧ (ctxOf t n).tl = 1 ∧
        (ctxOf t n).pc = c.tvec ∧ (ctxOf t n).tepc1 = c.pc ∧ fld (ctxOf t n).tcause1.toNat 0 8 = leNat (p.data.take 1) ∧
        (leNat (p.data.take 1) = 3 ∨ leNat (p.data.take 1) = 7 → (ctxOf t n).tval1 = wd (r.addr.toNat % 2 ^ 48)) ∧
        (ctxOf t n).wait = .none ∧ SameMem s t))) ∧
  (fget s.tags p.tag = none → ∀ j ∈ [Instr.inAck port p, .inNack port p, .inAmoReply port p], exec j s = .next s) ∧
  (let d (k : Nat) : Nat := leNat ((p.data.drop (8 * k)).take 8)
   let fits := max (max (dieOf s 0).fits (dieOf s 1).fits) (max (dieOf s 2).fits (dieOf s 3).fits)
   let m : Msg := ⟨wd (setFld (setFld (setFld (d 0) 34 2 p.cls) 27 2 3) 0 24 fits), wd (d 1), wd (d 2), wd (d 3), p.source⟩
   let name := p.addr.toNat % 2 ^ 28
   exec (.inMsg port p) s = exec (.messageDelivery name m none) s ∧
   (n = name % 2 ^ 15 → holds s n name = true → fwdEntry s name = none → c.mailbox.length < 8 →
     (∀ j, ∀ e ∈ (clOf s j).spill, e.dest ≠ name) → c.wait = .none →
     exec (.inMsg port p) s = .next (modCtx s n fun d => { d with mailbox := d.mailbox ++ [m] })))

/-- R53 to R57, R62: the link states: what enables, disables and resets a port, what its training and retraining lead to, and
when it fails; a port that leaves service empties its queues; the loss of the parent clears SYNCED.

R61 and R62: an exchange sends a stamp to the parent; its answer steps the GTC forward or sets a rate, never back.
What a port keeps after DOWN, exchanges after a change of parent, LINKCTL.RESET outside FAILED, and the place of the stamp in a
packet, are choices of the model (log 49, log 50, log 66, log 9). -/
def Obligations.LinksAndTime : Prop :=
  (∀ (s : State) (p peer : Nat),
   let q := portOf s p; let drained (t : State) : Prop := (portOf t p).txq = [] ∧ (portOf t p).replay = []
   p < 12 →
   (hostShut s = true → exec (.linkctlEnable p) s = .next s ∧ exec (.linkctlDisable p) s = .next s ∧ exec (.linkctlReset p) s = .next s) ∧
   (hostShut s = false → s.devid ≠ 0xFFF → q.st = .down → Does (.linkctlEnable p) s fun t => LinkGoes s t p .training q.peer ∧ (portOf t p).enable = true) ∧
   (hostShut s = false → s.devid = 0xFFF ∨ q.st ≠ .down → exec (.linkctlEnable p) s = .next (modPort s p fun q => { q with enable := true })) ∧
   (hostShut s = false → q.st = .training ∨ q.st = .up ∨ q.st = .retrain → Does (.linkctlDisable p) s fun t => LinkGoes s t p .down q.peer ∧
     (portOf t p).enable = false ∧ (q.st ≠ .training → drained t)) ∧
   (hostShut s = false → q.st = .down ∨ q.st = .failed → exec (.linkctlDisable p) s = .next (modPort s p fun q => { q with enable := false })) ∧
   (hostShut s = false → q.st = .failed → Does (.linkctlReset p) s fun t => LinkGoes s t p .down q.peer ∧ (portOf t p).retrains = 0) ∧
   (q.st ≠ .failed → exec (.linkctlReset p) s = .next s) ∧
   (q.st = .up → Does (.laneLockLoss p) s fun t => LinkGoes s t p .retrain q.peer ∧ (portOf t p).retrains = min (q.retrains + 1) 255 ∧
     (portOf t p).replay = q.replay ∧ (portOf t p).txq = q.txq ∧
     (s.gtcEn = true → s.gtcParent = p → t.gtcLost = true ∧ t.gtcSynced = false ∧ t.slew = 0)) ∧
   (q.st = .training → Does (.trainingComplete p peer) s fun t => LinkGoes s t p .up (peer % 4096) ∧ (portOf t p).peer = peer % 4096 ∧
     (portOf t p).credits = [64, 64, 64, 64] ∧ (portOf t p).txSeq = 0 ∧ (portOf t p).replay = [] ∧ (portOf t p).txq = q.txq) ∧
   (q.st = .training → q.since + 100000000 ≤ s.gtc → Does (.trainingTimeout p) s fun t => LinkGoes s t p .failed q.peer ∧ drained t) ∧
   (q.st = .retrain → Does (.retrainComplete p) s fun t => LinkGoes s t p .up q.peer ∧ (portOf t p).replay = q.replay ∧
     (portOf t p).txq = q.txq ∧
     (portOf t p).resend = (q.replay.find? fun f => decide ((f.1 + 4096 - q.ackSeq - 1) % 4096 < 2048)).map Prod.fst) ∧
   (q.st = .retrain → q.since + s.deadTimeout * 100000 ≤ s.gtc → Does (.linkDeadTimeout p) s fun t => LinkGoes s t p .failed q.peer ∧ drained t)) ∧
  (∀ (s : State) (stamp trip : Nat),
   let q := portOf s s.gtcParent; let e := (stamp + trip / 2) % 2 ^ 64
   s.gtcEn = true → s.gtcParent < 12 → q.st = .up →
   (Does .gtcSyncExchange s fun t => SameMem s t ∧ t.ctxs = s.ctxs ∧ ∃ k, (portOf t s.gtcParent).txq = q.txq ++ [k] ∧ k.kind = 0x12 ∧
     k.dest = q.peer ∧ k.source = s.devid ∧ k.addr = wd s.gtc) ∧
   (s.gtcRun = true → Does (.gtcSync stamp trip) s fun t => SameMem s t ∧ t.ctxs = s.ctxs ∧ s.gtc ≤ t.gtc ∧
     t.gtcExchanges = s.gtcExchanges + 1 ∧ (s.gtc + 20 < e → t.gtc = e) ∧ (e ≤ s.gtc + 20 → t.gtc = s.gtc ∧ t.slew = (e : Int) - s.gtc) ∧
     (t.gtcSynced = true ↔ s.gtcSynced = true ∨ (16 ≤ s.gtcExchanges + 1 ∧ s.gtc ≤ e))))

/-! ## Views -/

/-- A view slot goes out of service: its state, its event record's code, and its collectives end (R81, R82). -/
def Sys2Proof.Safety.Leaves (t : State) (n : Nat) (st : VSt) : Prop :=
  (viewOf t n).st = st ∧ (viewOf t n).agree = .idle ∧ ∀ o ∈ t.ceOps, o.slot ≠ n

/-- R74, R75, R77, R78, R84, R94: forming, heartbeats, suspicion and closing. FORM sends HELLO to every other member and the
slot is ACTIVE once each has agreed; a heartbeat is sent to the ring neighbours; a silent neighbour is suspected and the
election starts; JOIN asks the first member that can be reached.
The corners of forming and joining, the bytes under the digest of the list, and joins that come during a change or to a slot
without a view, are readings and choices of the model (log 51, log 65, log 67). -/
def Obligations.ViewFormation : Prop := ∀ (s t : State) (n vid k : Nat) (h : CeHdr) (w : Word) (rs : List Nat) (m : Member) (j inc g : Nat),
  let v := viewOf s n; let u := viewOf t n; let l := writtenList v
  let tells (t : State) (ds : List Nat) (b : CeBody) : State := ds.foldl (fun a d => ceCtl a n d b) t
  (hostShut s = true → exec (.form n vid) s = .next s ∧ exec (.close n) s = .next s ∧ exec (.join n vid) s = .next s) ∧
  (hostShut s = false → n < 16 → v.st = .free →
    (others s l ≠ [] ∨ inView l s.devid = false → exec (.form n vid) s =
      .next (tells (modView s n fun v => { v with
        st := .forming, vid := vid % 2 ^ 32, view := [], hellos := [], formSince := s.gtc, suspects := [], agree := .idle,
        joining := false, holdColl := false, fetching := [], joins := [], hist := [] })
        (others s l) (.hello (Sys2Proof.Machine.listDigest l)))) ∧
    (others s l = [] → inView l s.devid = true → (∀ o ∈ s.ceOps, o.slot ≠ n) → (∀ o ∈ s.cePast, o.slot ≠ n) → Does (.form n vid) s fun e =>
      (viewOf e n).st = .active ∧ (viewOf e n).vid = vid % 2 ^ 32 ∧ (viewOf e n).view = l)) ∧
  (n < 16 → v.st ≠ .free → exec (.form n vid) s = .next s) ∧
  (ceGate s h = (t, some n) → u.st = .forming → w = Sys2Proof.Machine.listDigest (writtenList u) → h.src ∉ u.hellos →
    let b := ceCtl (modView t n fun v => { v with hellos := nins v.hellos h.src }) n h.src (.hello w)
    ((∃ q ∈ writtenList u, q.dev ≠ t.devid ∧ q.dev ∉ nins u.hellos h.src) → exec (.hello h w) s = .next b) ∧
    ((∀ q ∈ writtenList u, q.dev = t.devid ∨ q.dev ∈ nins u.hellos h.src) → inView (writtenList u) t.devid = true →
      (∀ o ∈ t.ceOps, o.slot ≠ n) → (∀ o ∈ t.cePast, o.slot ≠ n) → Does (.hello h w) s fun e => (viewOf e n).st = .active ∧ (viewOf e n).view = writtenList u ∧
        (viewOf e n).vid = u.vid ∧ (viewOf e n).suspects = [] ∧ SameMem t e)) ∧
  (∀ m : List Member, Sys2Proof.Machine.listDigest m =
    wd (leNat ((sha256 (m.flatMap fun e => leBytes 8 (e.dev * 2 ^ 32 + e.inc))).take 8)) ∨ ∃ e ∈ m, 2 ^ 64 ≤ e.dev * 2 ^ 32 + e.inc) ∧
  (v.st ≠ .forming ∨ s.gtc < v.formSince + 100000000 → exec (.formTimeout n) s = .next s) ∧
  (v.st = .forming → v.formSince + 100000000 ≤ s.gtc → Does (.formTimeout n) s fun t => (viewOf t n).st = .free ∧
    ∀ o ∈ t.ceOps, o.slot ≠ n) ∧
  (hostShut s = false → n < 16 → Does (.close n) s fun t => Leaves t n .free ∧ (viewOf t n).view = []) ∧
  ((∀ i < 16, i ≠ n → (viewOf s i).st ≠ .active) → n < 16 → v.st = .active → v.lastBeat + 50000 ≤ s.gtc → exec .heartbeatTimer s =
    .next (tells (modView s n fun v => { v with lastBeat := s.gtc }) (neighbours s v) (.heartbeat (rankOf v s.devid) s.gtc))) ∧
  (ceGate s h = (t, some n) → exec (.heartbeat h k j) s = .next (modView t n fun v => { v with beats := fset v.beats h.src t.gtc })) ∧
  (v.view[k]? = some m → v.st = .active → m.dev ∈ neighbours s v → m.dev ∉ v.suspects → m.dev ≠ s.devid →
    (fget v.beats m.dev).getD 0 + 400000 ≤ s.gtc ∨ routeOf s m.dev = some none →
    exec (.suspicionTimeout n k) s = .next (elect (suspectOwn s n m.dev) n) ∧
    (viewOf (suspectOwn s n m.dev) n).suspects = nins v.suspects m.dev) ∧
  (ceGate s h = (t, some n) → let ds := rs.filterMap fun r => u.view[r]?.map Member.dev; let r := { ranks := rs, gtc := g }
    (u.st = .active → u.vid % 2 ^ 16 ≠ 0xFFFF → exec (.suspect h r) s =
      .next (proposeTo (suspectAll t n ds) n 0 (survivors (viewOf (suspectAll t n ds) n)))) ∧
    (u.st = .changing → exec (.suspect h r) s = .next (suspectAll t n ds))) ∧
  (hostShut s = false → n < 16 → v.st = .excluded → (others s v.view).find? (fun d => match routeOf s d with | some (some _) => true | _ => false) = some k →
    exec (.join n vid) s = .next (ceCtl (modView s n fun v => { v with
      joining := true, vid := vid % 2 ^ 32, agree := .idle, suspects := [] }) n k (.joinReq s.devid s.incarnation))) ∧
  (ceSlotOf s h.vid = none → exec (.joinReq h j inc) s = .next (ceSend s j 0x10 0 h.vid .joinNak)) ∧
  (ceSlotOf s h.vid = some n → (h.src = j ∧ h.inc ≠ inc) ∨ (h.src ≠ j ∧ v.joining = false ∧ incOf v h.src ≠ some h.inc) →
    exec (.joinReq h j inc) s = .next (modView s n fun v => { v with vdiscard := min (v.vdiscard + 1) (2 ^ 32 - 1) })) ∧
  (ceSlotOf s h.vid = some n → (h.src = j → h.inc = inc) → (h.src ≠ j → incOf v h.src = some h.inc) → v.joining = false →
    (v.st ≠ .active → v.st ≠ .changing → exec (.joinReq h j inc) s = .next (ceSend s j 0x10 0 h.vid .joinNak)) ∧
    (v.st = .active ∨ v.st = .changing →
      (candidate v ≠ s.devid → exec (.joinReq h j inc) s = .next (ceCtl s n (candidate v) (.joinReq j inc))) ∧
      (candidate v = s.devid → (∃ i, recordedInc v j = some i ∧ inc ≤ i) → exec (.joinReq h j inc) s = .next (ceSend s j 0x10 0 h.vid .joinNak)) ∧
      (candidate v = s.devid → (∀ i, recordedInc v j = some i → i < inc) →
        (v.st = .changing → exec (.joinReq h j inc) s = .next (modView s n fun v => { v with joins := v.joins ++ [⟨j, inc⟩] })) ∧
        (v.st = .active → v.vid % 2 ^ 16 ≠ 0xFFFF → exec (.joinReq h j inc) s =
          .next (proposeTo (modView s n fun v => { v with holdColl := true }) n 0
            (ranked (v.view.filter (fun m => m.dev != j) ++ [⟨j, inc⟩]))))))) ∧
  (ceGateAs s h true = (t, some n) → exec (.joinNak h) s = .next (modView t n fun v => { v with joining := false })) ∧
  (ceGateAs s h true = (t, none) → exec (.joinNak h) s = .next t)

/-- R79, R80, R81, R94: the agreement table: what a slot that is idle, CHANGING, PROPOSING or BOUND makes of each packet and
timer. A candidate proposes the survivors; a member acknowledges and is bound, or waits with its collectives in flight where
the list adds a member; one that a candidate of higher rank leaves out proposes itself; a lower coordinator prevails;
acknowledgement by every listed member decides, by a majority where QUORUM is set, and not before the coordinator's own
collectives where the list adds a member; a bound member installs what its coordinator commits; a coordinator silent for 2 ms
is suspected.

R80, R89, R93: an install makes the list the view, ranks it by device id, clears the suspicions and the holds, keeps the
slot ACTIVE under the new id, and makes VIEW_CHANGE pending in every active context whose mask names the slot; a list
without the device excludes it.
That a COMMIT which answers a FETCH is accepted, and whom a member waits for after ABANDON and after the 2 ms of BOUND, are
readings and choices of the model (log 51, log 67). -/
def Obligations.ViewAgreement : Prop :=
  (∀ (s t : State) (n x r nv since c inc : Nat) (h : CeHdr) (l ml : List Member) (acks ans : List Nat),
   let v := viewOf s n; let u := viewOf t n
   let tells (t : State) (ds : List Nat) (b : CeBody) : State := ds.foldl (fun a d => ceCtl a n d b) t
   let bind (e : State) (r : Nat) (adds : Bool) : State := modView (ceCtl e n h.src (.ack r e.incarnation)) n fun v =>
     { v with st := .changing, agree := .bound h.src e.gtc, holdColl := v.holdColl || adds }
   let idle : Prop := u.agree = .idle ∨ u.agree = .changing c since
   let waits : Prop := (∃ m ∈ l, m ∉ u.view) ∧ ceFlying t n = true
   let yields : State := modView (tells t acks .abandon) n fun v => { v with agree := .changing h.src t.gtc }
   (v.st = .changing → v.agree = .changing c since → since + 2000000 ≤ s.gtc → c ≠ s.devid → exec (.suspectTimer n) s =
     .next (elect (modView s n fun v => { v with suspects := nins v.suspects c }) n)) ∧
   (ceGate s h = (t, some n) → u.joining = false → u.st = .active ∨ u.st = .changing →
     (inView l t.devid = false → rankOf u h.src < rankOf u t.devid → Does (.propose h r nv l) s fun e => Leaves e n .excluded) ∧
     (inView l t.devid = false → rankOf u t.devid ≤ rankOf u h.src →
       (idle → exec (.propose h r nv l) s = .next (proposeTo t n 0 (ranked (l ++ u.view.filter fun m => m.dev == t.devid)))) ∧
       (u.agree = .bound h.src since → exec (.propose h r nv l) s = .next t)) ∧
     (inView l t.devid = true ∨ rankOf u t.devid ≤ rankOf u h.src →
       (u.agree = .bound c since → c ≠ h.src → exec (.propose h r nv l) s = .next (ceCtl t n h.src (.busy c))) ∧
       (u.agree = .proposing x ml acks ans since inc → rankOf u t.devid ≤ rankOf u h.src →
         exec (.propose h r nv l) s = .next (ceCtl t n h.src (.busy t.devid)))) ∧
     (inView l t.devid = true →
       (¬waits → let adds := l.any fun m => !u.view.contains m
         (idle ∨ u.agree = .bound h.src since → exec (.propose h r nv l) s = .next (bind t r adds)) ∧
         (u.agree = .proposing x ml acks ans since inc → rankOf u h.src < rankOf u t.devid →
           exec (.propose h r nv l) s = .next (bind yields r adds))) ∧
       (waits →
         (idle → Does (.propose h r nv l) s fun e => (viewOf e n).holdColl = true ∧ (viewOf e n).st = u.st ∧
           (u.agree = .idle → (viewOf e n).agree = .idle) ∧
           (u.agree = .changing c since → (viewOf e n).agree = .changing c (if c = h.src then t.gtc else since)) ∧ SameMem t e) ∧
         (u.agree = .proposing x ml acks ans since inc → rankOf u h.src < rankOf u t.devid → Does (.propose h r nv l) s fun e =>
           (viewOf e n).holdColl = true ∧ (viewOf e n).agree = .changing h.src t.gtc ∧ SameMem t e))) ∧
     (u.agree = .proposing r l acks ans since nv →
       ((∃ m ∈ l, m.dev = h.src ∧ m.inc = inc) → exec (.ceAck h r inc) s =
         .next (tryDecide (modView t n fun v => { v with agree := .proposing r l (nins acks h.src) ans since nv }) n)) ∧
       (rankOf u c < rankOf u t.devid → exec (.busy h c) s =
         .next (modView (tells t acks .abandon) n fun v => { v with agree := .changing c t.gtc })) ∧
       (rankOf u t.devid ≤ rankOf u c → Does (.busy h c) s fun e =>
         (viewOf e n).agree = .proposing r l acks (nins ans h.src) since nv ∧ SameMem t e) ∧
       Does (.joinWait h r) s (fun e => (viewOf e n).agree = .proposing r l acks (nins ans h.src) since nv ∧ SameMem t e)) ∧
     (u.agree = .bound h.src since → exec (.abandon h) s = .next (changeTo t n)) ∧
     Does (.exclude h nv) s (fun e => Leaves e n .excluded) ∧
     (u.agree = .bound h.src since ∨ ((u.agree = .idle ∨ u.agree = .changing c since) ∧ candidate u = h.src) →
       Does (.stall h r) s fun e => Leaves e n .stalled) ∧
     exec (.fetch h) s = .next (ceCtl t n h.src (.commit u.vid u.view)) ∧
     (h.src ∉ v.fetching → ceSlotOf s h.vid = some n → inView l t.devid = true → u.agree = .bound h.src since → exec (.commit h nv l) s = .next (installView t n nv l)) ∧
     (h.src ∉ v.fetching → ceSlotOf s h.vid = some n → inView l t.devid = false → Does (.commit h nv l) s fun e => Leaves e n .excluded)) ∧
   (ceSlotOf s h.vid = some n → h.src ∈ v.fetching → nv = h.vid → incOf v h.src = some h.inc → exec (.commit h nv l) s = .next (installView s n nv l)) ∧
   (v.agree = .proposing r l acks ans since nv →
     (since + 1000000 ≤ s.gtc → exec (.roundExpiry n) s = .next (proposeTo s n (r + 1) (l.filter fun m => m.dev == s.devid ||
       ((acks.contains m.dev || ans.contains m.dev) && !v.suspects.contains m.dev)))) ∧
     ((∃ m ∈ l, m.dev ≠ s.devid ∧ m.dev ∉ acks) ∨ ((∃ m ∈ l, m ∉ v.view) ∧ ceFlying s n = true) → tryDecide s n = s) ∧
     ((∀ m ∈ l, m.dev = s.devid ∨ m.dev ∈ acks) → (∀ m ∈ l, m ∈ v.view) ∨ ceFlying s n = false →
       let kept := (v.view.filter fun m => inView l m.dev).length
       let left := (v.view.filter fun m => !inView l m.dev).map Member.dev
       (v.quorum = false ∨ v.view.length < 2 * kept →
         tryDecide s n = installView (tells (tells s (others s l) (.commit nv l)) left (.exclude nv)) n nv l) ∧
       (v.quorum = true → 2 * kept ≤ v.view.length → Leaves (tryDecide s n) n .stalled))) ∧
   (v.agree = .bound c since → v.joining = false → since + 2000000 ≤ s.gtc → exec (.boundTimeout n) s =
     .next (changeTo (modView s n fun v => { v with suspects := nins v.suspects c }) n))) ∧
  (∀ (s : State) (n vid k : Nat) (l : List Member),
   let t := installView s n vid l; let v := viewOf t n
   (∀ o ∈ s.ceOps, o.slot ≠ n) → (∀ o ∈ s.cePast, o.slot ≠ n) → n < 16 →
   (inView l s.devid = true → s.saved = [] →
     v.st = .active ∧ v.vid = vid ∧ v.view = ranked l ∧ v.view.Pairwise (fun a b => a.dev ≤ b.dev) ∧ (∀ m, m ∈ v.view ↔ m ∈ l) ∧
     v.suspects = [] ∧ v.agree = .idle ∧ v.joining = false ∧ v.holdColl = false ∧
     (∀ m ∈ l, fget v.beats m.dev = some s.gtc) ∧
     ((ctxOf s k).active = true → (ctxOf s k).mtrapm.getLsbD n = true → fget s.ctxs k = some (ctxOf s k) →
       ctxOf t k = { ctxOf s k with pendView := (ctxOf s k).pendView ||| BitVec.ofNat 16 (2 ^ n) })) ∧
   (inView l s.devid = false → Leaves t n .excluded))

/-- R75, R76, R95: what a slot makes of the header of a CE packet: a packet of no held family is counted at a slot of the
device's choice, one of an unknown incarnation or of another view at its own, and neither has an effect; a later epoch of a member is fetched, and its data kept until the install.

R85, R87: the data of a collective goes to the operation of its tag at the slot, ends it as a MISMATCH where its operation
differs, and is kept where none has started; what comes late for one that ended so has no effect.
The contents of data packets, and which data a slot keeps, are the model's (log 9, log 68). -/
def Obligations.CollectivePackets : Prop :=
  (∀ (s t : State) (h : CeHdr) (n r g inc x : Nat) (w : Word) (rs : List Nat) (ms : List Member)
     (d : CeData),
   let v := viewOf s n
   let control : List Instr := [.hello h w, .heartbeat h r g, .suspect h { ranks := rs, gtc := g }, .propose h r g ms, .ceAck h r inc, .busy h x, .abandon h,
     .exclude h g, .stall h r, .fetch h, .joinWait h r]
   (ceGate s h = (t, none) → (∀ m, ceSlotOf s h.vid = some m → (viewOf s m).joining = false) →
     (∀ i ∈ control, exec i s = .next t) ∧ (ceAhead s h = none → exec (.ceData h d) s = .next t)) ∧
   (ceSlotOf s h.vid = none → ∃ k < 16, ∀ i ∈ Instr.ceData h d :: control, exec i s =
     .next (modView { s with fresh := s.fresh + 1 } k fun v => { v with vdiscard := min (v.vdiscard + 1) (2 ^ 32 - 1) })) ∧
   (ceSlotOf s h.vid = some n → v.joining = false →
     (incOf v h.src ≠ some h.inc ∨ h.vid < v.vid ∨ (h.vid ≠ v.vid ∧ inView v.view h.src = false) →
       ∀ i ∈ Instr.ceData h d :: control, exec i s = .next (modView s n fun v => { v with vdiscard := min (v.vdiscard + 1) (2 ^ 32 - 1) })) ∧
     (incOf v h.src = some h.inc → v.vid % 2 ^ 16 < h.vid % 2 ^ 16 → inView v.view h.src = true →
       let asked := modView (ceSend s h.src 0x10 0 h.vid .fetch) n fun v => { v with fetching := nins v.fetching h.src }
       (∀ i ∈ control, exec i s = .next asked) ∧
       exec (.ceData h d) s = .next { asked with ceEarly := s.ceEarly ++ [(n, h.src, h.vid, d)] })) ∧
   (ceSlotOf s h.vid = some n → v.joining = true → incOf v h.src = none →
     exec (.ceData h d) s = .next { s with ceEarly := s.ceEarly ++ [(n, h.src, h.vid, d)] })) ∧
  (∀ (s t : State) (h : CeHdr) (d : CeData) (n : Nat) (o : CeOp),
   ceGate s h = (t, some n) →
   (t.ceOps.find? (fun o => o.slot == n && o.tag == d.tag && !o.held) = some o →
     exec (.ceData h d) s = .next (ceTake t o h.src d) ∧
     (d.op = o.op → d.redop = o.redop → d.ety = o.ety → d.count = o.count → d.vid0 = o.vid0 → d.kind = .part → o.reweight = false →
       (d.whole ≤ d.elems.length → ceTake t o h.src d = ceRun (cePut t { o with parts := o.parts ++ [d] }) o.id) ∧
       (o.pieces = [] → d.elems.length < d.whole →
         ceTake t o h.src d = cePut t { o with pieces := [(rankIn o.start h.src, d)] })) ∧
     (o.past = false → d.kind = .mismatch ∨ d.op ≠ o.op ∨ d.ety ≠ o.ety ∨ d.count ≠ o.count →
       Does (.ceData h d) s fun e => AbortSent e o 5 t.gtc)) ∧
   (t.ceOps.find? (fun o => o.slot == n && o.tag == d.tag && !o.held) = none →
     ((n, d.tag, h.src) ∈ t.ceDead → exec (.ceData h d) s =
       .next (if d.kind = .mismatch then { t with ceDead := t.ceDead.erase (n, d.tag, h.src) } else t)) ∧
     ((n, d.tag, h.src) ∉ t.ceDead → d.vid0 = (viewOf t n).vid ∨ (∀ p ∈ t.cePast, p.slot ≠ n) →
       exec (.ceData h d) s = .next { t with ceEarly := t.ceEarly ++ [(n, h.src, (viewOf t n).vid, d)] })))

/-! ## Reset, decoding, the step, and what every step keeps -/

/-- R9, R20, R22, R31, R43, R46, R54, R74, R101, R122 to R127, R134, R202: what reset leaves of what the manual gives a reset
value. That buffers, queues and tables are empty is the model's choice (log 3). -/
def Obligations.ResetValues : Prop :=
  let s := State.reset
  s.devst = .reset ∧ s.gtc = 0 ∧ s.gtcRun = false ∧ s.stopped = false ∧ (∀ n, (ctxOf s n).active = false) ∧
  (∀ n, (viewOf s n).st = .free ∧ (viewOf s n).quorum = true) ∧ (∀ p, (portOf s p).st = .down ∧ (portOf s p).enable = false) ∧
  s.launchBuf = [] ∧ s.saved = [] ∧ s.faults = [] ∧ s.tags = [] ∧ s.evq.en = false ∧ s.fsq.en = false ∧ s.due = [] ∧
  (∀ c, (clOf s c).te = [] ∧ (clOf s c).lq = [] ∧ (clOf s c).empty = [] ∧ (clOf s c).cur = 10 ∧ (clOf s c).cap = 14) ∧
  (∀ a, (avOf s a).a.running = false ∧ (avOf s a).startq = []) ∧ s.keys = [(0, .boot 0)]

/-- The invariant of memory holds at reset. -/
def Obligations.InvAtReset : Prop := Inv State.reset

/-- Every step keeps memory in its canonical form: addresses strictly rise and no listed byte is what an unlisted one reads
as. So equal memories are equal data, whatever stores, transfers, images and host writes made them. -/
def Obligations.StepKeepsMemoryCanonical : Prop := ∀ (s t : State), Inv s → step s = .next t → Inv t

/-- No instruction and no event stops the machine: each answers a next state in every state, and so does the step. Every
trap, fault of an anvil, wait and refused access of the manual is a next state of the model. -/
def Obligations.NothingStops : Prop := (∀ (i : Instr) (s : State), ∃ t, exec i s = .next t) ∧ ∀ s : State, Goes s

/-- The word of a swarm instruction. -/
def Sys2Proof.Safety.swarmWord (i : Instr) : Option Nat :=
  encodeInt i <|> encodeFp i <|> encodeImm i <|> encodeMem i <|> encodeOrd i <|> encodeCtl i <|> encodeVec i <|> encodeMsk i <|>
  encodeCell i <|> encodeMsg i <|> encodeSys i

/-- The word of an anvil slot, its STOP and GATE fields zero. -/
def Sys2Proof.Safety.slotWord (i : Instr) : Option Nat := encodeSeq i <|> encodeUnit i <|> encodeRow i <|> encodeOut i

/-- R281, R283, R301 to R307: a 32-bit word decodes to a swarm instruction exactly if it is that instruction's word and the
instruction is well formed: no operand bit is dropped, and a word with a set bit in an unused field, or a field at a
value its row does not allow, decodes to nothing. -/
def Obligations.SwarmWordsAreExact : Prop := ∀ (i : Instr) (w : Nat),
  (i.wellFormed = true → swarmWord i = some w → w < 2 ^ 32 ∧ decodeSwarm w = some i) ∧
  (w < 2 ^ 32 → decodeSwarm w = some i → swarmWord i = some w ∧ i.wellFormed = true)

/-- R287, R288, R308: the word of a well-formed slot, with any STOP bit and gate, decodes to that slot with every operand.
Fields a slot does not use read as nothing (log 31). -/
def Obligations.SlotWordsDecode : Prop := ∀ (i : Instr) (w : Nat) (stop : Bool) (gate : Fin 8),
  i.wellFormed = true → slotWord i = some w →
  decodeSlot (w + b2n stop * 2 ^ 31 + gate.val * 2 ^ 24) = some { stop := stop, unit := w / 2 ^ 27, gate := gate.val, op := i }

/-- Words that the manual writes out, decoded: of every major opcode family, and of the anvil's units; and words it calls
illegal. -/
def Obligations.DecodedWords : Prop :=
  (decodeSwarm 0x04A63800 = some (.add 5 6 7 false) ∧ decodeSwarm 0x04A63900 = some (.add 5 6 7 true) ∧
   decodeSwarm 0x04A63A00 = none ∧ decodeSwarm 0x04A63817 = none ∧ decodeSwarm 0 = none ∧ decodeSwarm 0xFFFFFFFF = none ∧
   decodeSwarm 0x08642A00 = some (.fadd .f32 3 4 5) ∧ decodeSwarm 0x08641414 = some (.fcvt .e4m3 .f32 3 4) ∧
   decodeSwarm 0x0CA60210 = some (.extu 5 6 8 16) ∧ decodeSwarm 0x2CE70183 = some (.srai 7 7 true 3) ∧
   decodeSwarm 0x19204000 = some (.ori 9 0 0x4000) ∧ decodeSwarm 0x31291000 = some (.shori 9 9 0x1000) ∧
   decodeSwarm 0x21CC0004 = some (.slti 14 12 4)) ∧
  (decodeSwarm 0x59020010 = some (.ld 8 2 16) ∧ decodeSwarm 0x6DA40008 = some (.sd 13 4 8) ∧
   decodeSwarm 0x74000111 = some (.fenceRel .dev) ∧ decodeSwarm 0x754B0101 = some (.lda 10 11 .dev true) ∧
   decodeSwarm 0x78A73100 = some (.amoadd 5 7 6 true) ∧ decodeSwarm 0x7D640000 = some (.ldfe 11 4) ∧
   decodeSwarm 0x7C046002 = some (.stef 4 12) ∧ decodeSwarm 0x8405FFFD = some (.bne 5 0 0xFFFD) ∧
   decodeSwarm 0x98200002 = some (.bmany 1 2) ∧ decodeSwarm 0x9C200040 = some (.jal 1 64) ∧
   decodeSwarm 0xA0010000 = some (.jalr 0 1 0)) ∧
  (decodeSwarm 0xA8611550 = some (.vadd .f32 3 1 2 (some 1)) ∧ decodeSwarm 0xAC221882 = some (.vcmplt .i16 1 2 3 none) ∧
   decodeSwarm 0xB0C00101 = some (.vdot .i32 .i8 6 0 none) ∧ decodeSwarm 0xB0851084 = some (.vnzc .i16 4 5 2)) ∧
  (decodeSwarm 0xC0081901 = some (.cputQ 8 3) ∧ decodeSwarm 0xC0075903 = some (.seal 7 11 .dev) ∧
   decodeSwarm 0xC004281A = some (.bwait 4 5) ∧ decodeSwarm 0xC40C0000 = some (.xfer 12) ∧
   decodeSwarm 0xC8495003 = some (.sendRel 2 9 10 (some 0) .sys) ∧ decodeSwarm 0xC8800011 = some (.recvAcq 2) ∧
   decodeSwarm 0xC8000115 = some .msgmaskSet ∧ decodeSwarm 0xC8000017 = some .exit ∧
   decodeSwarm 0xD0000005 = some (.trap 5) ∧ decodeSwarm 0xD9200008 = some (.gsr 9 8) ∧
   decodeSwarm 0xE4063803 = some (.admitS 6 7)) ∧
  decodeSlotOp 0x8028580C = some (.loop 0 1 6 12) ∧ decodeSlotOp 0x95080000 = some (.mmah ⟨0, 0, 0, false, 0, 0, 0, false, false⟩ 0 0) ∧
  decodeSlotOp 0xB0006020 = some (.stc 0 1 8 1 0 false) ∧ decodeSlotOp 0x00588980 = some (.popq 0 none (some 9)) ∧
  decodeSlotOp 0x00780000 = some (.anvilDone 0)

/-- The step: with nothing due and nothing on the agenda, the core whose turn it is issues the word at the pc of the context
its barrel picks, and the step is exec of the instruction decoded, in the state after the fetch and the barrel's count; a
divide holds the divider and its result (R310); a word that decodes to nothing traps with ILLEGAL (R143, R186, R281, R283,
R328). An instruction that an interlock holds, or that waits for a line of the host, an L1 on the move or a cell about to
seal, does nothing and leaves the issue to another context (R107, R142, R214, R253, R310); the issue is taken back, the model's
choice (log 22). A timer that is due runs first, then what the agenda chooses (log 1). A bundle of one slot does on its anvil what exec says of the slot, and
the pc moves on (R392). -/
def Obligations.StepRunsTheDecoded : Prop := ∀ (s t u : State) (k i n w av p size : Nat) (b : IssueBy) (l : List Agent) (ins : Instr)
    (q : List Instr) (ss : List Slot) (sl : Slot),
  let s1 := beginCycle { s with turns := l } k; let at_ := issued t k i b
  (s.due = [] → s.agenda = [] → s.turns = .core k [] :: l → barrelPick s1 k [] = some (i, b) → n = 16 * k + i →
    asyncDue s1 n = none → handlerDue (ctxOf s1 n) = false → boundaryHeld s1 n = false → (ctxOf s1 n).pc ≠ 0 →
    fetchWord s1 n = .word w t →
    (decodeSwarm w = some ins → (coreOf t k).divWait = [] →
      (interlocked at_ n ins = false → stalled at_ ins = false → exec ins at_ = .next u → heldUp u n = false →
        (trapped at_ u n = true → (ctxOf t n).loads = [] → step s = .next (unpause u n)) ∧
        (trapped at_ u n = false → divCycles (ctxOf at_ n) ins = none → step s = .next (unpause (wrote at_ u n ins) n) ∧
          ((ctxOf t n).loads = [] → step s = .next (unpause u n))) ∧
        (trapped at_ u n = false → ∀ c, divCycles (ctxOf at_ n) ins = some c → ∃ v, step s = .next v ∧
          (coreOf v k).divFree = (coreOf u k).cyc + c ∧ (∀ r ∈ writes ins, (fget (ctxOf v n).busy ((ctxOf u n).reg r)).isSome = true) ∧
          (ctxOf v n).x = (ctxOf u n).x ∧ (ctxOf v n).v = (ctxOf u n).v ∧ (ctxOf v n).pc = (ctxOf u n).pc ∧ v.mem = u.mem)) ∧
      (interlocked at_ n ins = true ∨ stalled at_ ins = true → ∃ v, step s = .next v ∧ v.turns = .core k [i] :: t.turns ∧
        (ctxOf v n).pc = (ctxOf t n).pc ∧ (ctxOf v n).x = (ctxOf t n).x ∧ (ctxOf v n).v = (ctxOf t n).v ∧ v.mem = t.mem ∧
        (coreOf v k).p0 = (coreOf s1 k).p0 ∧ (coreOf v k).p1 = (coreOf s1 k).p1 ∧ (coreOf v k).aged = (coreOf s1 k).aged)) ∧
    (decodeSwarm w = none → (ctxOf t n).loads = [] →
      step s = settle s1 k i [] (.next (takeTrap at_ { cause := 0x01, tval := w })))) ∧
  (s.due = ins :: q → step s = exec ins { s with due := q }) ∧
  (s.due = [] → s.agenda ≠ [] → agendaPick s = some k → s.agenda[k]? = some ins → step s = exec ins (takeOff s k)) ∧
  (let v := { s with av := av }; let a := avOf s av; let c := icx v
   c.running = true → a.switchEnd ≤ a.cyc → c.readyAt ≤ a.cyc → fetchBundle v av c.pc = .ok ss →
   ((List.range ss.length).zip ss).filter (fun i => i.2.op != .nop && c.gateOk i.2.gate) = [(p, sl)] → isWait sl.op = false →
   bundleHeld v [(p, sl)] = false → sl.op ≠ .halt → (∀ h e f g, sl.op ≠ .loop h e f g) → bundleCheck v [(p, sl)] = .ok () → Issues v sl.op → exec sl.op v = .next t →
   (avCtx (avOf t av) a.cur).running = true → size = 4 * ss.length →
   avIssue s av = modAvCtx (modAvCtx t av a.cur fun c => { c with pc := c.pc + size }) av a.cur fun x => x.advance c.pc)
end

