-- ==== Sys2Proof/Laws/State.lean ====
section
/-!
SUPPORT. What an update of one unit leaves of every other field of the state: one rewrite rule for each field.
-/

namespace Sys2Proof.Machine

/-- `modCtx` writes the table `ctxs` alone. -/
@[simp] theorem modCtx_other (s : State) (n : Nat) (f : Ctx → Ctx) :
    (modCtx s n f).cx = s.cx ∧ (modCtx s n f).av = s.av ∧ (modCtx s n f).due = s.due ∧
    (modCtx s n f).agenda = s.agenda ∧ (modCtx s n f).held = s.held ∧ (modCtx s n f).turns = s.turns ∧
    (modCtx s n f).fresh = s.fresh ∧ (modCtx s n f).seq = s.seq ∧ (modCtx s n f).mem = s.mem ∧
    (modCtx s n f).saved = s.saved ∧ (modCtx s n f).cores = s.cores ∧ (modCtx s n f).clusters = s.clusters ∧
    (modCtx s n f).anvils = s.anvils ∧ (modCtx s n f).dies = s.dies ∧ (modCtx s n f).home = s.home ∧
    (modCtx s n f).sliceTs = s.sliceTs ∧ (modCtx s n f).hostDir = s.hostDir ∧ (modCtx s n f).backInv = s.backInv ∧
    (modCtx s n f).poison = s.poison ∧ (modCtx s n f).latent = s.latent ∧ (modCtx s n f).latentL2 = s.latentL2 ∧
    (modCtx s n f).lineKey = s.lineKey ∧ (modCtx s n f).keys = s.keys ∧ (modCtx s n f).keyReqs = s.keyReqs ∧
    (modCtx s n f).resets = s.resets ∧ (modCtx s n f).eccLast = s.eccLast ∧ (modCtx s n f).scrub = s.scrub ∧
    (modCtx s n f).btsN = s.btsN ∧ (modCtx s n f).epoch = s.epoch ∧ (modCtx s n f).rebaseActive = s.rebaseActive ∧
    (modCtx s n f).rebaseCount = s.rebaseCount ∧ (modCtx s n f).rebaseAgain = s.rebaseAgain ∧
    (modCtx s n f).hts = s.hts ∧ (modCtx s n f).gtc = s.gtc ∧ (modCtx s n f).gtcRun = s.gtcRun ∧
    (modCtx s n f).ticks = s.ticks ∧ (modCtx s n f).slew = s.slew ∧ (modCtx s n f).gtcParent = s.gtcParent ∧
    (modCtx s n f).gtcEn = s.gtcEn ∧ (modCtx s n f).gtcLost = s.gtcLost ∧ (modCtx s n f).gtcSynced = s.gtcSynced ∧
    (modCtx s n f).gtcExchanges = s.gtcExchanges ∧ (modCtx s n f).syncSince = s.syncSince ∧
    (modCtx s n f).devst = s.devst ∧ (modCtx s n f).failsrc = s.failsrc ∧ (modCtx s n f).early = s.early ∧
    (modCtx s n f).stopped = s.stopped ∧ (modCtx s n f).devid = s.devid ∧ (modCtx s n f).incarnation = s.incarnation ∧
    (modCtx s n f).hbmLocal = s.hbmLocal ∧ (modCtx s n f).watts = s.watts ∧ (modCtx s n f).linkRate = s.linkRate ∧
    (modCtx s n f).linkWidth = s.linkWidth ∧ (modCtx s n f).atomics = s.atomics ∧ (modCtx s n f).badacc = s.badacc ∧
    (modCtx s n f).ctxsaveBase = s.ctxsaveBase ∧ (modCtx s n f).ctxsaveEn = s.ctxsaveEn ∧
    (modCtx s n f).asidroot = s.asidroot ∧ (modCtx s n f).tlbBusy = s.tlbBusy ∧ (modCtx s n f).tlbReq = s.tlbReq ∧
    (modCtx s n f).quota = s.quota ∧ (modCtx s n f).lease = s.lease ∧ (modCtx s n f).fwaddr = s.fwaddr ∧
    (modCtx s n f).fwlen = s.fwlen ∧ (modCtx s n f).fwBusy = s.fwBusy ∧ (modCtx s n f).fwResult = s.fwResult ∧
    (modCtx s n f).fwDigest = s.fwDigest ∧ (modCtx s n f).nonce = s.nonce ∧ (modCtx s n f).attBusy = s.attBusy ∧
    (modCtx s n f).attLen = s.attLen ∧ (modCtx s n f).report = s.report ∧ (modCtx s n f).evq = s.evq ∧
    (modCtx s n f).fsq = s.fsq ∧ (modCtx s n f).badreply = s.badreply ∧ (modCtx s n f).irqs = s.irqs ∧
    (modCtx s n f).hostRd = s.hostRd ∧ (modCtx s n f).hostUr = s.hostUr ∧ (modCtx s n f).aer = s.aer ∧
    (modCtx s n f).ras = s.ras ∧ (modCtx s n f).hdm = s.hdm ∧ (modCtx s n f).launchBuf = s.launchBuf ∧
    (modCtx s n f).launchDropped = s.launchDropped ∧ (modCtx s n f).launchMalformed = s.launchMalformed ∧
    (modCtx s n f).launchDemoted = s.launchDemoted ∧ (modCtx s n f).lastC0Launch = s.lastC0Launch ∧
    (modCtx s n f).groups = s.groups ∧ (modCtx s n f).faults = s.faults ∧ (modCtx s n f).ports = s.ports ∧
    (modCtx s n f).deadTimeout = s.deadTimeout ∧ (modCtx s n f).inboundEn = s.inboundEn ∧
    (modCtx s n f).inboundAsid = s.inboundAsid ∧ (modCtx s n f).routes = s.routes ∧ (modCtx s n f).tags = s.tags ∧
    (modCtx s n f).views = s.views ∧ (modCtx s n f).ceOps = s.ceOps ∧ (modCtx s n f).ceEarly = s.ceEarly ∧
    (modCtx s n f).cePast = s.cePast ∧ (modCtx s n f).ceDead = s.ceDead := by
  and_intros <;> rfl

/-- `modCore` writes the table `cores` alone. -/
@[simp] theorem modCore_other (s : State) (k : Nat) (f : Core → Core) :
    (modCore s k f).cx = s.cx ∧ (modCore s k f).av = s.av ∧ (modCore s k f).due = s.due ∧
    (modCore s k f).agenda = s.agenda ∧ (modCore s k f).held = s.held ∧ (modCore s k f).turns = s.turns ∧
    (modCore s k f).fresh = s.fresh ∧ (modCore s k f).seq = s.seq ∧ (modCore s k f).mem = s.mem ∧
    (modCore s k f).ctxs = s.ctxs ∧ (modCore s k f).saved = s.saved ∧ (modCore s k f).clusters = s.clusters ∧
    (modCore s k f).anvils = s.anvils ∧ (modCore s k f).dies = s.dies ∧ (modCore s k f).home = s.home ∧
    (modCore s k f).sliceTs = s.sliceTs ∧ (modCore s k f).hostDir = s.hostDir ∧ (modCore s k f).backInv = s.backInv ∧
    (modCore s k f).poison = s.poison ∧ (modCore s k f).latent = s.latent ∧ (modCore s k f).latentL2 = s.latentL2 ∧
    (modCore s k f).lineKey = s.lineKey ∧ (modCore s k f).keys = s.keys ∧ (modCore s k f).keyReqs = s.keyReqs ∧
    (modCore s k f).resets = s.resets ∧ (modCore s k f).eccLast = s.eccLast ∧ (modCore s k f).scrub = s.scrub ∧
    (modCore s k f).btsN = s.btsN ∧ (modCore s k f).epoch = s.epoch ∧ (modCore s k f).rebaseActive = s.rebaseActive ∧
    (modCore s k f).rebaseCount = s.rebaseCount ∧ (modCore s k f).rebaseAgain = s.rebaseAgain ∧
    (modCore s k f).hts = s.hts ∧ (modCore s k f).gtc = s.gtc ∧ (modCore s k f).gtcRun = s.gtcRun ∧
    (modCore s k f).ticks = s.ticks ∧ (modCore s k f).slew = s.slew ∧ (modCore s k f).gtcParent = s.gtcParent ∧
    (modCore s k f).gtcEn = s.gtcEn ∧ (modCore s k f).gtcLost = s.gtcLost ∧ (modCore s k f).gtcSynced = s.gtcSynced ∧
    (modCore s k f).gtcExchanges = s.gtcExchanges ∧ (modCore s k f).syncSince = s.syncSince ∧
    (modCore s k f).devst = s.devst ∧ (modCore s k f).failsrc = s.failsrc ∧ (modCore s k f).early = s.early ∧
    (modCore s k f).stopped = s.stopped ∧ (modCore s k f).devid = s.devid ∧
    (modCore s k f).incarnation = s.incarnation ∧ (modCore s k f).hbmLocal = s.hbmLocal ∧
    (modCore s k f).watts = s.watts ∧ (modCore s k f).linkRate = s.linkRate ∧ (modCore s k f).linkWidth = s.linkWidth ∧
    (modCore s k f).atomics = s.atomics ∧ (modCore s k f).badacc = s.badacc ∧
    (modCore s k f).ctxsaveBase = s.ctxsaveBase ∧ (modCore s k f).ctxsaveEn = s.ctxsaveEn ∧
    (modCore s k f).asidroot = s.asidroot ∧ (modCore s k f).tlbBusy = s.tlbBusy ∧ (modCore s k f).tlbReq = s.tlbReq ∧
    (modCore s k f).quota = s.quota ∧ (modCore s k f).lease = s.lease ∧ (modCore s k f).fwaddr = s.fwaddr ∧
    (modCore s k f).fwlen = s.fwlen ∧ (modCore s k f).fwBusy = s.fwBusy ∧ (modCore s k f).fwResult = s.fwResult ∧
    (modCore s k f).fwDigest = s.fwDigest ∧ (modCore s k f).nonce = s.nonce ∧ (modCore s k f).attBusy = s.attBusy ∧
    (modCore s k f).attLen = s.attLen ∧ (modCore s k f).report = s.report ∧ (modCore s k f).evq = s.evq ∧
    (modCore s k f).fsq = s.fsq ∧ (modCore s k f).badreply = s.badreply ∧ (modCore s k f).irqs = s.irqs ∧
    (modCore s k f).hostRd = s.hostRd ∧ (modCore s k f).hostUr = s.hostUr ∧ (modCore s k f).aer = s.aer ∧
    (modCore s k f).ras = s.ras ∧ (modCore s k f).hdm = s.hdm ∧ (modCore s k f).launchBuf = s.launchBuf ∧
    (modCore s k f).launchDropped = s.launchDropped ∧ (modCore s k f).launchMalformed = s.launchMalformed ∧
    (modCore s k f).launchDemoted = s.launchDemoted ∧ (modCore s k f).lastC0Launch = s.lastC0Launch ∧
    (modCore s k f).groups = s.groups ∧ (modCore s k f).faults = s.faults ∧ (modCore s k f).ports = s.ports ∧
    (modCore s k f).deadTimeout = s.deadTimeout ∧ (modCore s k f).inboundEn = s.inboundEn ∧
    (modCore s k f).inboundAsid = s.inboundAsid ∧ (modCore s k f).routes = s.routes ∧ (modCore s k f).tags = s.tags ∧
    (modCore s k f).views = s.views ∧ (modCore s k f).ceOps = s.ceOps ∧ (modCore s k f).ceEarly = s.ceEarly ∧
    (modCore s k f).cePast = s.cePast ∧ (modCore s k f).ceDead = s.ceDead := by
  and_intros <;> rfl

/-- `modCl` writes the table `clusters` alone. -/
@[simp] theorem modCl_other (s : State) (c : Nat) (f : Cluster → Cluster) :
    (modCl s c f).cx = s.cx ∧ (modCl s c f).av = s.av ∧ (modCl s c f).due = s.due ∧ (modCl s c f).agenda = s.agenda ∧
    (modCl s c f).held = s.held ∧ (modCl s c f).turns = s.turns ∧ (modCl s c f).fresh = s.fresh ∧
    (modCl s c f).seq = s.seq ∧ (modCl s c f).mem = s.mem ∧ (modCl s c f).ctxs = s.ctxs ∧
    (modCl s c f).saved = s.saved ∧ (modCl s c f).cores = s.cores ∧ (modCl s c f).anvils = s.anvils ∧
    (modCl s c f).dies = s.dies ∧ (modCl s c f).home = s.home ∧ (modCl s c f).sliceTs = s.sliceTs ∧
    (modCl s c f).hostDir = s.hostDir ∧ (modCl s c f).backInv = s.backInv ∧ (modCl s c f).poison = s.poison ∧
    (modCl s c f).latent = s.latent ∧ (modCl s c f).latentL2 = s.latentL2 ∧ (modCl s c f).lineKey = s.lineKey ∧
    (modCl s c f).keys = s.keys ∧ (modCl s c f).keyReqs = s.keyReqs ∧ (modCl s c f).resets = s.resets ∧
    (modCl s c f).eccLast = s.eccLast ∧ (modCl s c f).scrub = s.scrub ∧ (modCl s c f).btsN = s.btsN ∧
    (modCl s c f).epoch = s.epoch ∧ (modCl s c f).rebaseActive = s.rebaseActive ∧
    (modCl s c f).rebaseCount = s.rebaseCount ∧ (modCl s c f).rebaseAgain = s.rebaseAgain ∧ (modCl s c f).hts = s.hts ∧
    (modCl s c f).gtc = s.gtc ∧ (modCl s c f).gtcRun = s.gtcRun ∧ (modCl s c f).ticks = s.ticks ∧
    (modCl s c f).slew = s.slew ∧ (modCl s c f).gtcParent = s.gtcParent ∧ (modCl s c f).gtcEn = s.gtcEn ∧
    (modCl s c f).gtcLost = s.gtcLost ∧ (modCl s c f).gtcSynced = s.gtcSynced ∧
    (modCl s c f).gtcExchanges = s.gtcExchanges ∧ (modCl s c f).syncSince = s.syncSince ∧
    (modCl s c f).devst = s.devst ∧ (modCl s c f).failsrc = s.failsrc ∧ (modCl s c f).early = s.early ∧
    (modCl s c f).stopped = s.stopped ∧ (modCl s c f).devid = s.devid ∧ (modCl s c f).incarnation = s.incarnation ∧
    (modCl s c f).hbmLocal = s.hbmLocal ∧ (modCl s c f).watts = s.watts ∧ (modCl s c f).linkRate = s.linkRate ∧
    (modCl s c f).linkWidth = s.linkWidth ∧ (modCl s c f).atomics = s.atomics ∧ (modCl s c f).badacc = s.badacc ∧
    (modCl s c f).ctxsaveBase = s.ctxsaveBase ∧ (modCl s c f).ctxsaveEn = s.ctxsaveEn ∧
    (modCl s c f).asidroot = s.asidroot ∧ (modCl s c f).tlbBusy = s.tlbBusy ∧ (modCl s c f).tlbReq = s.tlbReq ∧
    (modCl s c f).quota = s.quota ∧ (modCl s c f).lease = s.lease ∧ (modCl s c f).fwaddr = s.fwaddr ∧
    (modCl s c f).fwlen = s.fwlen ∧ (modCl s c f).fwBusy = s.fwBusy ∧ (modCl s c f).fwResult = s.fwResult ∧
    (modCl s c f).fwDigest = s.fwDigest ∧ (modCl s c f).nonce = s.nonce ∧ (modCl s c f).attBusy = s.attBusy ∧
    (modCl s c f).attLen = s.attLen ∧ (modCl s c f).report = s.report ∧ (modCl s c f).evq = s.evq ∧
    (modCl s c f).fsq = s.fsq ∧ (modCl s c f).badreply = s.badreply ∧ (modCl s c f).irqs = s.irqs ∧
    (modCl s c f).hostRd = s.hostRd ∧ (modCl s c f).hostUr = s.hostUr ∧ (modCl s c f).aer = s.aer ∧
    (modCl s c f).ras = s.ras ∧ (modCl s c f).hdm = s.hdm ∧ (modCl s c f).launchBuf = s.launchBuf ∧
    (modCl s c f).launchDropped = s.launchDropped ∧ (modCl s c f).launchMalformed = s.launchMalformed ∧
    (modCl s c f).launchDemoted = s.launchDemoted ∧ (modCl s c f).lastC0Launch = s.lastC0Launch ∧
    (modCl s c f).groups = s.groups ∧ (modCl s c f).faults = s.faults ∧ (modCl s c f).ports = s.ports ∧
    (modCl s c f).deadTimeout = s.deadTimeout ∧ (modCl s c f).inboundEn = s.inboundEn ∧
    (modCl s c f).inboundAsid = s.inboundAsid ∧ (modCl s c f).routes = s.routes ∧ (modCl s c f).tags = s.tags ∧
    (modCl s c f).views = s.views ∧ (modCl s c f).ceOps = s.ceOps ∧ (modCl s c f).ceEarly = s.ceEarly ∧
    (modCl s c f).cePast = s.cePast ∧ (modCl s c f).ceDead = s.ceDead := by
  and_intros <;> rfl

/-- `modAv` writes the table `anvils` alone. -/
@[simp] theorem modAv_other (s : State) (a : Nat) (f : Anvil → Anvil) :
    (modAv s a f).cx = s.cx ∧ (modAv s a f).av = s.av ∧ (modAv s a f).due = s.due ∧ (modAv s a f).agenda = s.agenda ∧
    (modAv s a f).held = s.held ∧ (modAv s a f).turns = s.turns ∧ (modAv s a f).fresh = s.fresh ∧
    (modAv s a f).seq = s.seq ∧ (modAv s a f).mem = s.mem ∧ (modAv s a f).ctxs = s.ctxs ∧
    (modAv s a f).saved = s.saved ∧ (modAv s a f).cores = s.cores ∧ (modAv s a f).clusters = s.clusters ∧
    (modAv s a f).dies = s.dies ∧ (modAv s a f).home = s.home ∧ (modAv s a f).sliceTs = s.sliceTs ∧
    (modAv s a f).hostDir = s.hostDir ∧ (modAv s a f).backInv = s.backInv ∧ (modAv s a f).poison = s.poison ∧
    (modAv s a f).latent = s.latent ∧ (modAv s a f).latentL2 = s.latentL2 ∧ (modAv s a f).lineKey = s.lineKey ∧
    (modAv s a f).keys = s.keys ∧ (modAv s a f).keyReqs = s.keyReqs ∧ (modAv s a f).resets = s.resets ∧
    (modAv s a f).eccLast = s.eccLast ∧ (modAv s a f).scrub = s.scrub ∧ (modAv s a f).btsN = s.btsN ∧
    (modAv s a f).epoch = s.epoch ∧ (modAv s a f).rebaseActive = s.rebaseActive ∧
    (modAv s a f).rebaseCount = s.rebaseCount ∧ (modAv s a f).rebaseAgain = s.rebaseAgain ∧ (modAv s a f).hts = s.hts ∧
    (modAv s a f).gtc = s.gtc ∧ (modAv s a f).gtcRun = s.gtcRun ∧ (modAv s a f).ticks = s.ticks ∧
    (modAv s a f).slew = s.slew ∧ (modAv s a f).gtcParent = s.gtcParent ∧ (modAv s a f).gtcEn = s.gtcEn ∧
    (modAv s a f).gtcLost = s.gtcLost ∧ (modAv s a f).gtcSynced = s.gtcSynced ∧
    (modAv s a f).gtcExchanges = s.gtcExchanges ∧ (modAv s a f).syncSince = s.syncSince ∧
    (modAv s a f).devst = s.devst ∧ (modAv s a f).failsrc = s.failsrc ∧ (modAv s a f).early = s.early ∧
    (modAv s a f).stopped = s.stopped ∧ (modAv s a f).devid = s.devid ∧ (modAv s a f).incarnation = s.incarnation ∧
    (modAv s a f).hbmLocal = s.hbmLocal ∧ (modAv s a f).watts = s.watts ∧ (modAv s a f).linkRate = s.linkRate ∧
    (modAv s a f).linkWidth = s.linkWidth ∧ (modAv s a f).atomics = s.atomics ∧ (modAv s a f).badacc = s.badacc ∧
    (modAv s a f).ctxsaveBase = s.ctxsaveBase ∧ (modAv s a f).ctxsaveEn = s.ctxsaveEn ∧
    (modAv s a f).asidroot = s.asidroot ∧ (modAv s a f).tlbBusy = s.tlbBusy ∧ (modAv s a f).tlbReq = s.tlbReq ∧
    (modAv s a f).quota = s.quota ∧ (modAv s a f).lease = s.lease ∧ (modAv s a f).fwaddr = s.fwaddr ∧
    (modAv s a f).fwlen = s.fwlen ∧ (modAv s a f).fwBusy = s.fwBusy ∧ (modAv s a f).fwResult = s.fwResult ∧
    (modAv s a f).fwDigest = s.fwDigest ∧ (modAv s a f).nonce = s.nonce ∧ (modAv s a f).attBusy = s.attBusy ∧
    (modAv s a f).attLen = s.attLen ∧ (modAv s a f).report = s.report ∧ (modAv s a f).evq = s.evq ∧
    (modAv s a f).fsq = s.fsq ∧ (modAv s a f).badreply = s.badreply ∧ (modAv s a f).irqs = s.irqs ∧
    (modAv s a f).hostRd = s.hostRd ∧ (modAv s a f).hostUr = s.hostUr ∧ (modAv s a f).aer = s.aer ∧
    (modAv s a f).ras = s.ras ∧ (modAv s a f).hdm = s.hdm ∧ (modAv s a f).launchBuf = s.launchBuf ∧
    (modAv s a f).launchDropped = s.launchDropped ∧ (modAv s a f).launchMalformed = s.launchMalformed ∧
    (modAv s a f).launchDemoted = s.launchDemoted ∧ (modAv s a f).lastC0Launch = s.lastC0Launch ∧
    (modAv s a f).groups = s.groups ∧ (modAv s a f).faults = s.faults ∧ (modAv s a f).ports = s.ports ∧
    (modAv s a f).deadTimeout = s.deadTimeout ∧ (modAv s a f).inboundEn = s.inboundEn ∧
    (modAv s a f).inboundAsid = s.inboundAsid ∧ (modAv s a f).routes = s.routes ∧ (modAv s a f).tags = s.tags ∧
    (modAv s a f).views = s.views ∧ (modAv s a f).ceOps = s.ceOps ∧ (modAv s a f).ceEarly = s.ceEarly ∧
    (modAv s a f).cePast = s.cePast ∧ (modAv s a f).ceDead = s.ceDead := by
  and_intros <;> rfl

/-- `modDie` writes the table `dies` alone. -/
@[simp] theorem modDie_other (s : State) (d : Nat) (f : Die → Die) :
    (modDie s d f).cx = s.cx ∧ (modDie s d f).av = s.av ∧ (modDie s d f).due = s.due ∧
    (modDie s d f).agenda = s.agenda ∧ (modDie s d f).held = s.held ∧ (modDie s d f).turns = s.turns ∧
    (modDie s d f).fresh = s.fresh ∧ (modDie s d f).seq = s.seq ∧ (modDie s d f).mem = s.mem ∧
    (modDie s d f).ctxs = s.ctxs ∧ (modDie s d f).saved = s.saved ∧ (modDie s d f).cores = s.cores ∧
    (modDie s d f).clusters = s.clusters ∧ (modDie s d f).anvils = s.anvils ∧ (modDie s d f).home = s.home ∧
    (modDie s d f).sliceTs = s.sliceTs ∧ (modDie s d f).hostDir = s.hostDir ∧ (modDie s d f).backInv = s.backInv ∧
    (modDie s d f).poison = s.poison ∧ (modDie s d f).latent = s.latent ∧ (modDie s d f).latentL2 = s.latentL2 ∧
    (modDie s d f).lineKey = s.lineKey ∧ (modDie s d f).keys = s.keys ∧ (modDie s d f).keyReqs = s.keyReqs ∧
    (modDie s d f).resets = s.resets ∧ (modDie s d f).eccLast = s.eccLast ∧ (modDie s d f).scrub = s.scrub ∧
    (modDie s d f).btsN = s.btsN ∧ (modDie s d f).epoch = s.epoch ∧ (modDie s d f).rebaseActive = s.rebaseActive ∧
    (modDie s d f).rebaseCount = s.rebaseCount ∧ (modDie s d f).rebaseAgain = s.rebaseAgain ∧
    (modDie s d f).hts = s.hts ∧ (modDie s d f).gtc = s.gtc ∧ (modDie s d f).gtcRun = s.gtcRun ∧
    (modDie s d f).ticks = s.ticks ∧ (modDie s d f).slew = s.slew ∧ (modDie s d f).gtcParent = s.gtcParent ∧
    (modDie s d f).gtcEn = s.gtcEn ∧ (modDie s d f).gtcLost = s.gtcLost ∧ (modDie s d f).gtcSynced = s.gtcSynced ∧
    (modDie s d f).gtcExchanges = s.gtcExchanges ∧ (modDie s d f).syncSince = s.syncSince ∧
    (modDie s d f).devst = s.devst ∧ (modDie s d f).failsrc = s.failsrc ∧ (modDie s d f).early = s.early ∧
    (modDie s d f).stopped = s.stopped ∧ (modDie s d f).devid = s.devid ∧ (modDie s d f).incarnation = s.incarnation ∧
    (modDie s d f).hbmLocal = s.hbmLocal ∧ (modDie s d f).watts = s.watts ∧ (modDie s d f).linkRate = s.linkRate ∧
    (modDie s d f).linkWidth = s.linkWidth ∧ (modDie s d f).atomics = s.atomics ∧ (modDie s d f).badacc = s.badacc ∧
    (modDie s d f).ctxsaveBase = s.ctxsaveBase ∧ (modDie s d f).ctxsaveEn = s.ctxsaveEn ∧
    (modDie s d f).asidroot = s.asidroot ∧ (modDie s d f).tlbBusy = s.tlbBusy ∧ (modDie s d f).tlbReq = s.tlbReq ∧
    (modDie s d f).quota = s.quota ∧ (modDie s d f).lease = s.lease ∧ (modDie s d f).fwaddr = s.fwaddr ∧
    (modDie s d f).fwlen = s.fwlen ∧ (modDie s d f).fwBusy = s.fwBusy ∧ (modDie s d f).fwResult = s.fwResult ∧
    (modDie s d f).fwDigest = s.fwDigest ∧ (modDie s d f).nonce = s.nonce ∧ (modDie s d f).attBusy = s.attBusy ∧
    (modDie s d f).attLen = s.attLen ∧ (modDie s d f).report = s.report ∧ (modDie s d f).evq = s.evq ∧
    (modDie s d f).fsq = s.fsq ∧ (modDie s d f).badreply = s.badreply ∧ (modDie s d f).irqs = s.irqs ∧
    (modDie s d f).hostRd = s.hostRd ∧ (modDie s d f).hostUr = s.hostUr ∧ (modDie s d f).aer = s.aer ∧
    (modDie s d f).ras = s.ras ∧ (modDie s d f).hdm = s.hdm ∧ (modDie s d f).launchBuf = s.launchBuf ∧
    (modDie s d f).launchDropped = s.launchDropped ∧ (modDie s d f).launchMalformed = s.launchMalformed ∧
    (modDie s d f).launchDemoted = s.launchDemoted ∧ (modDie s d f).lastC0Launch = s.lastC0Launch ∧
    (modDie s d f).groups = s.groups ∧ (modDie s d f).faults = s.faults ∧ (modDie s d f).ports = s.ports ∧
    (modDie s d f).deadTimeout = s.deadTimeout ∧ (modDie s d f).inboundEn = s.inboundEn ∧
    (modDie s d f).inboundAsid = s.inboundAsid ∧ (modDie s d f).routes = s.routes ∧ (modDie s d f).tags = s.tags ∧
    (modDie s d f).views = s.views ∧ (modDie s d f).ceOps = s.ceOps ∧ (modDie s d f).ceEarly = s.ceEarly ∧
    (modDie s d f).cePast = s.cePast ∧ (modDie s d f).ceDead = s.ceDead := by
  and_intros <;> rfl

/-- `modPort` writes the table `ports` alone. -/
@[simp] theorem modPort_other (s : State) (p : Nat) (f : Port → Port) :
    (modPort s p f).cx = s.cx ∧ (modPort s p f).av = s.av ∧ (modPort s p f).due = s.due ∧
    (modPort s p f).agenda = s.agenda ∧ (modPort s p f).held = s.held ∧ (modPort s p f).turns = s.turns ∧
    (modPort s p f).fresh = s.fresh ∧ (modPort s p f).seq = s.seq ∧ (modPort s p f).mem = s.mem ∧
    (modPort s p f).ctxs = s.ctxs ∧ (modPort s p f).saved = s.saved ∧ (modPort s p f).cores = s.cores ∧
    (modPort s p f).clusters = s.clusters ∧ (modPort s p f).anvils = s.anvils ∧ (modPort s p f).dies = s.dies ∧
    (modPort s p f).home = s.home ∧ (modPort s p f).sliceTs = s.sliceTs ∧ (modPort s p f).hostDir = s.hostDir ∧
    (modPort s p f).backInv = s.backInv ∧ (modPort s p f).poison = s.poison ∧ (modPort s p f).latent = s.latent ∧
    (modPort s p f).latentL2 = s.latentL2 ∧ (modPort s p f).lineKey = s.lineKey ∧ (modPort s p f).keys = s.keys ∧
    (modPort s p f).keyReqs = s.keyReqs ∧ (modPort s p f).resets = s.resets ∧ (modPort s p f).eccLast = s.eccLast ∧
    (modPort s p f).scrub = s.scrub ∧ (modPort s p f).btsN = s.btsN ∧ (modPort s p f).epoch = s.epoch ∧
    (modPort s p f).rebaseActive = s.rebaseActive ∧ (modPort s p f).rebaseCount = s.rebaseCount ∧
    (modPort s p f).rebaseAgain = s.rebaseAgain ∧ (modPort s p f).hts = s.hts ∧ (modPort s p f).gtc = s.gtc ∧
    (modPort s p f).gtcRun = s.gtcRun ∧ (modPort s p f).ticks = s.ticks ∧ (modPort s p f).slew = s.slew ∧
    (modPort s p f).gtcParent = s.gtcParent ∧ (modPort s p f).gtcEn = s.gtcEn ∧ (modPort s p f).gtcLost = s.gtcLost ∧
    (modPort s p f).gtcSynced = s.gtcSynced ∧ (modPort s p f).gtcExchanges = s.gtcExchanges ∧
    (modPort s p f).syncSince = s.syncSince ∧ (modPort s p f).devst = s.devst ∧ (modPort s p f).failsrc = s.failsrc ∧
    (modPort s p f).early = s.early ∧ (modPort s p f).stopped = s.stopped ∧ (modPort s p f).devid = s.devid ∧
    (modPort s p f).incarnation = s.incarnation ∧ (modPort s p f).hbmLocal = s.hbmLocal ∧
    (modPort s p f).watts = s.watts ∧ (modPort s p f).linkRate = s.linkRate ∧ (modPort s p f).linkWidth = s.linkWidth ∧
    (modPort s p f).atomics = s.atomics ∧ (modPort s p f).badacc = s.badacc ∧
    (modPort s p f).ctxsaveBase = s.ctxsaveBase ∧ (modPort s p f).ctxsaveEn = s.ctxsaveEn ∧
    (modPort s p f).asidroot = s.asidroot ∧ (modPort s p f).tlbBusy = s.tlbBusy ∧ (modPort s p f).tlbReq = s.tlbReq ∧
    (modPort s p f).quota = s.quota ∧ (modPort s p f).lease = s.lease ∧ (modPort s p f).fwaddr = s.fwaddr ∧
    (modPort s p f).fwlen = s.fwlen ∧ (modPort s p f).fwBusy = s.fwBusy ∧ (modPort s p f).fwResult = s.fwResult ∧
    (modPort s p f).fwDigest = s.fwDigest ∧ (modPort s p f).nonce = s.nonce ∧ (modPort s p f).attBusy = s.attBusy ∧
    (modPort s p f).attLen = s.attLen ∧ (modPort s p f).report = s.report ∧ (modPort s p f).evq = s.evq ∧
    (modPort s p f).fsq = s.fsq ∧ (modPort s p f).badreply = s.badreply ∧ (modPort s p f).irqs = s.irqs ∧
    (modPort s p f).hostRd = s.hostRd ∧ (modPort s p f).hostUr = s.hostUr ∧ (modPort s p f).aer = s.aer ∧
    (modPort s p f).ras = s.ras ∧ (modPort s p f).hdm = s.hdm ∧ (modPort s p f).launchBuf = s.launchBuf ∧
    (modPort s p f).launchDropped = s.launchDropped ∧ (modPort s p f).launchMalformed = s.launchMalformed ∧
    (modPort s p f).launchDemoted = s.launchDemoted ∧ (modPort s p f).lastC0Launch = s.lastC0Launch ∧
    (modPort s p f).groups = s.groups ∧ (modPort s p f).faults = s.faults ∧
    (modPort s p f).deadTimeout = s.deadTimeout ∧ (modPort s p f).inboundEn = s.inboundEn ∧
    (modPort s p f).inboundAsid = s.inboundAsid ∧ (modPort s p f).routes = s.routes ∧ (modPort s p f).tags = s.tags ∧
    (modPort s p f).views = s.views ∧ (modPort s p f).ceOps = s.ceOps ∧ (modPort s p f).ceEarly = s.ceEarly ∧
    (modPort s p f).cePast = s.cePast ∧ (modPort s p f).ceDead = s.ceDead := by
  and_intros <;> rfl

/-- `modView` writes the table `views` alone. -/
@[simp] theorem modView_other (s : State) (n : Nat) (f : ViewSlot → ViewSlot) :
    (modView s n f).cx = s.cx ∧ (modView s n f).av = s.av ∧ (modView s n f).due = s.due ∧
    (modView s n f).agenda = s.agenda ∧ (modView s n f).held = s.held ∧ (modView s n f).turns = s.turns ∧
    (modView s n f).fresh = s.fresh ∧ (modView s n f).seq = s.seq ∧ (modView s n f).mem = s.mem ∧
    (modView s n f).ctxs = s.ctxs ∧ (modView s n f).saved = s.saved ∧ (modView s n f).cores = s.cores ∧
    (modView s n f).clusters = s.clusters ∧ (modView s n f).anvils = s.anvils ∧ (modView s n f).dies = s.dies ∧
    (modView s n f).home = s.home ∧ (modView s n f).sliceTs = s.sliceTs ∧ (modView s n f).hostDir = s.hostDir ∧
    (modView s n f).backInv = s.backInv ∧ (modView s n f).poison = s.poison ∧ (modView s n f).latent = s.latent ∧
    (modView s n f).latentL2 = s.latentL2 ∧ (modView s n f).lineKey = s.lineKey ∧ (modView s n f).keys = s.keys ∧
    (modView s n f).keyReqs = s.keyReqs ∧ (modView s n f).resets = s.resets ∧ (modView s n f).eccLast = s.eccLast ∧
    (modView s n f).scrub = s.scrub ∧ (modView s n f).btsN = s.btsN ∧ (modView s n f).epoch = s.epoch ∧
    (modView s n f).rebaseActive = s.rebaseActive ∧ (modView s n f).rebaseCount = s.rebaseCount ∧
    (modView s n f).rebaseAgain = s.rebaseAgain ∧ (modView s n f).hts = s.hts ∧ (modView s n f).gtc = s.gtc ∧
    (modView s n f).gtcRun = s.gtcRun ∧ (modView s n f).ticks = s.ticks ∧ (modView s n f).slew = s.slew ∧
    (modView s n f).gtcParent = s.gtcParent ∧ (modView s n f).gtcEn = s.gtcEn ∧ (modView s n f).gtcLost = s.gtcLost ∧
    (modView s n f).gtcSynced = s.gtcSynced ∧ (modView s n f).gtcExchanges = s.gtcExchanges ∧
    (modView s n f).syncSince = s.syncSince ∧ (modView s n f).devst = s.devst ∧ (modView s n f).failsrc = s.failsrc ∧
    (modView s n f).early = s.early ∧ (modView s n f).stopped = s.stopped ∧ (modView s n f).devid = s.devid ∧
    (modView s n f).incarnation = s.incarnation ∧ (modView s n f).hbmLocal = s.hbmLocal ∧
    (modView s n f).watts = s.watts ∧ (modView s n f).linkRate = s.linkRate ∧ (modView s n f).linkWidth = s.linkWidth ∧
    (modView s n f).atomics = s.atomics ∧ (modView s n f).badacc = s.badacc ∧
    (modView s n f).ctxsaveBase = s.ctxsaveBase ∧ (modView s n f).ctxsaveEn = s.ctxsaveEn ∧
    (modView s n f).asidroot = s.asidroot ∧ (modView s n f).tlbBusy = s.tlbBusy ∧ (modView s n f).tlbReq = s.tlbReq ∧
    (modView s n f).quota = s.quota ∧ (modView s n f).lease = s.lease ∧ (modView s n f).fwaddr = s.fwaddr ∧
    (modView s n f).fwlen = s.fwlen ∧ (modView s n f).fwBusy = s.fwBusy ∧ (modView s n f).fwResult = s.fwResult ∧
    (modView s n f).fwDigest = s.fwDigest ∧ (modView s n f).nonce = s.nonce ∧ (modView s n f).attBusy = s.attBusy ∧
    (modView s n f).attLen = s.attLen ∧ (modView s n f).report = s.report ∧ (modView s n f).evq = s.evq ∧
    (modView s n f).fsq = s.fsq ∧ (modView s n f).badreply = s.badreply ∧ (modView s n f).irqs = s.irqs ∧
    (modView s n f).hostRd = s.hostRd ∧ (modView s n f).hostUr = s.hostUr ∧ (modView s n f).aer = s.aer ∧
    (modView s n f).ras = s.ras ∧ (modView s n f).hdm = s.hdm ∧ (modView s n f).launchBuf = s.launchBuf ∧
    (modView s n f).launchDropped = s.launchDropped ∧ (modView s n f).launchMalformed = s.launchMalformed ∧
    (modView s n f).launchDemoted = s.launchDemoted ∧ (modView s n f).lastC0Launch = s.lastC0Launch ∧
    (modView s n f).groups = s.groups ∧ (modView s n f).faults = s.faults ∧ (modView s n f).ports = s.ports ∧
    (modView s n f).deadTimeout = s.deadTimeout ∧ (modView s n f).inboundEn = s.inboundEn ∧
    (modView s n f).inboundAsid = s.inboundAsid ∧ (modView s n f).routes = s.routes ∧ (modView s n f).tags = s.tags ∧
    (modView s n f).ceOps = s.ceOps ∧ (modView s n f).ceEarly = s.ceEarly ∧ (modView s n f).cePast = s.cePast ∧
    (modView s n f).ceDead = s.ceDead := by
  and_intros <;> rfl

end Sys2Proof.Machine
end

