-- ==== Sys2Proof/Laws/Table.lean ====
section
/-!
SUPPORT. Sparse tables: reading after writing, and the sorted form that writing keeps.
-/

namespace Sys2Proof.Machine

variable {α : Type}

/-- Keys of a table strictly rise. -/
def Rising (m : FMap α) : Prop := m.Pairwise fun p q => p.1 < q.1

@[simp] theorem fget_nil (k : Nat) : fget ([] : FMap α) k = none := rfl

@[simp] theorem fget_fset_self (m : FMap α) (k : Nat) (v : α) : fget (fset m k v) k = some v := by
  induction m with
  | nil => simp [fset, fget]
  | cons p t ih =>
    obtain ⟨a, w⟩ := p
    simp only [fset]
    split
    · simp only [fget, if_neg (Nat.ne_of_lt ‹a < k›), ih]
    · split <;> simp [fget]

theorem fget_fset_ne (m : FMap α) (k j : Nat) (v : α) (h : j ≠ k) : fget (fset m k v) j = fget m j := by
  induction m with
  | nil => simp [fset, fget, h.symm]
  | cons p t ih =>
    obtain ⟨a, w⟩ := p
    simp only [fset]
    split
    · simp only [fget, ih]
    · split
      · rename_i h2; subst h2; simp [fget, h.symm]
      · simp [fget, h.symm]

theorem fget_filter_ne (m : FMap α) (p : Nat × α → Bool) (k : Nat) (h : ∀ v, p (k, v) = true) :
    fget (m.filter p) k = fget m k := by
  induction m with
  | nil => rfl
  | cons q t ih =>
    obtain ⟨a, w⟩ := q
    by_cases ha : a = k
    · subst ha; simp [h, fget]
    · by_cases hp : p (a, w) = true <;> simp [hp, fget, ha, ih]

theorem fget_fdel_ne (m : FMap α) (k j : Nat) (h : j ≠ k) : fget (fdel m k) j = fget m j :=
  fget_filter_ne m _ j fun _ => by simpa using h

@[simp] theorem fget_fdel_self (m : FMap α) (k : Nat) : fget (fdel m k) k = none := by
  unfold fdel
  induction m with
  | nil => rfl
  | cons q t ih =>
    obtain ⟨a, w⟩ := q
    by_cases ha : a = k <;> simp [ha, fget, ih]

theorem mem_fset {m : FMap α} {k : Nat} {v : α} {p : Nat × α} (h : p ∈ fset m k v) : p = (k, v) ∨ p ∈ m := by
  induction m with
  | nil => simpa [fset] using h
  | cons q t ih =>
    obtain ⟨a, w⟩ := q
    simp only [fset] at h
    split at h
    · rcases List.mem_cons.1 h with h | h
      · exact .inr (h ▸ List.mem_cons_self)
      · exact (ih h).imp id (List.mem_cons_of_mem _)
    · split at h <;> rcases List.mem_cons.1 h with h | h
      · exact .inl h
      · exact .inr (List.mem_cons_of_mem _ h)
      · exact .inl h
      · exact .inr h

theorem rising_fset {m : FMap α} (hm : Rising m) (k : Nat) (v : α) : Rising (fset m k v) := by
  induction m with
  | nil => simp [fset, Rising]
  | cons q t ih =>
    obtain ⟨a, w⟩ := q
    obtain ⟨h1, h2⟩ := List.pairwise_cons.1 hm
    simp only [fset]
    split
    · refine List.pairwise_cons.2 ⟨fun p hp => ?_, ih h2⟩
      rcases mem_fset hp with rfl | hp
      · assumption
      · exact h1 p hp
    · split
      · rename_i h; subst h; exact List.pairwise_cons.2 ⟨h1, h2⟩
      · refine List.pairwise_cons.2 ⟨fun p hp => ?_, hm⟩
        rcases List.mem_cons.1 hp with rfl | hp
        · simp only; omega
        · have := h1 p hp; simp only at *; omega

theorem rising_filter {m : FMap α} (hm : Rising m) (p : Nat × α → Bool) : Rising (m.filter p) := hm.filter p

end Sys2Proof.Machine
end

