-- ==== Sys2Proof/Laws/Memory.lean ====
section
/-!
SUPPORT. Memory: every operation keeps the canonical form, and reading after writing.
-/

namespace Sys2Proof.Machine

/-! ## The canonical form -/

theorem wf_nil : Memory.wf [] := by simp [Memory.wf]

theorem wf_filter {m : Mem} (h : Memory.wf m) (p : Host.Cell → Bool) : Memory.wf (m.filter p) :=
  ⟨h.1.filter p, fun q hq => h.2 q (List.mem_filter.1 hq).1⟩

theorem wf_memSet {m : Mem} (h : Memory.wf m) (a : Nat) (b : Byte) : Memory.wf (memSet m a b) := by
  unfold memSet
  split
  · exact wf_filter h _
  · refine ⟨rising_fset h.1 a b, fun p hp => ?_⟩
    rcases mem_fset hp with rfl | hp
    · assumption
    · exact h.2 p hp

theorem wf_memWrite {m : Mem} (h : Memory.wf m) (a : Nat) (bs : List Byte) : Memory.wf (memWrite m a bs) := by
  induction bs generalizing m a with
  | nil => exact h
  | cons b t ih => exact ih (wf_memSet h a b) (a + 1)

theorem wf_combPut {s : State} (h : Memory.wf s.mem) (cl off : Nat) (bs : List Byte) :
    Memory.wf (combPut s cl off bs).mem := wf_memWrite h _ _

theorem wf_combPutNat {s : State} (h : Memory.wf s.mem) (cl off n v : Nat) :
    Memory.wf (combPutNat s cl off n v).mem := wf_memWrite h _ _

/-! ## Reading after writing -/

@[simp] theorem memGet_memSet_self (m : Mem) (a : Nat) (b : Byte) : memGet (memSet m a b) a = b := by
  unfold memGet memSet
  split <;> simp_all

theorem memGet_memSet_ne (m : Mem) (a c : Nat) (b : Byte) (h : c ≠ a) : memGet (memSet m a b) c = memGet m c := by
  unfold memGet memSet
  split
  · rw [fget_fdel_ne m a c h]
  · rw [fget_fset_ne m a c b h]

/-- A write leaves every byte outside it alone. -/
theorem memGet_memWrite_out (m : Mem) (a c : Nat) (bs : List Byte) (h : c < a ∨ a + bs.length ≤ c) :
    memGet (memWrite m a bs) c = memGet m c := by
  induction bs generalizing m a with
  | nil => rfl
  | cons b t ih =>
    simp only [List.length_cons] at h
    rw [memWrite, ih _ _ (by omega), memGet_memSet_ne _ _ _ _ (by omega)]

/-- A byte of a write reads as written. -/
theorem memGet_memWrite_in (m : Mem) (a i : Nat) (bs : List Byte) (h : i < bs.length) :
    memGet (memWrite m a bs) (a + i) = bs[i] := by
  induction bs generalizing m a i with
  | nil => simp at h
  | cons b t ih =>
    cases i with
    | zero =>
      rw [memWrite, memGet_memWrite_out _ _ _ _ (.inl (by omega))]
      exact memGet_memSet_self m a b
    | succ j =>
      have h' : j < t.length := by simpa using h
      have e : a + (j + 1) = a + 1 + j := by omega
      rw [memWrite, e, ih _ _ _ h']
      rfl

theorem memRead_length (m : Mem) (a n : Nat) : (memRead m a n).length = n := by
  induction n generalizing a with
  | zero => rfl
  | succ k ih => simp [memRead, ih]

/-- What was written is read back. -/
theorem memRead_memWrite (m : Mem) (a : Nat) (bs : List Byte) : memRead (memWrite m a bs) a bs.length = bs := by
  induction bs generalizing m a with
  | nil => rfl
  | cons b t ih =>
    simp only [List.length_cons, memRead, memWrite, ih]
    rw [memGet_memWrite_out _ _ _ _ (.inl (by omega)), memGet_memSet_self]

/-- A read outside a write gives what was there. -/
theorem memRead_memWrite_out (m : Mem) (a c n : Nat) (bs : List Byte) (h : c + n ≤ a ∨ a + bs.length ≤ c) :
    memRead (memWrite m a bs) c n = memRead m c n := by
  induction n generalizing c with
  | zero => rfl
  | succ k ih => rw [memRead, memRead, ih _ (by omega), memGet_memWrite_out _ _ _ _ (by omega)]

@[simp] theorem leBytes_length (n w : Nat) : (leBytes n w).length = n := by
  induction n generalizing w with
  | zero => rfl
  | succ k ih => simp [leBytes, ih]

/-- Bytes put together are the number they came from. -/
theorem leNat_leBytes (n w : Nat) : leNat (leBytes n w) = w % 256 ^ n := by
  induction n generalizing w with
  | zero => simp [leNat, leBytes, Nat.mod_one]
  | succ k ih =>
    have h : w % (256 * 256 ^ k) = w % 256 + 256 * (w / 256 % 256 ^ k) := Nat.mod_mul
    simp only [leBytes, leNat, ih, BitVec.toNat_ofNat, Nat.pow_succ, Nat.mul_comm (256 ^ k) 256, h]

/-- A number put into comb is read back. -/
theorem combNat_combPutNat (s : State) (cl off n v : Nat) :
    combNat (combPutNat s cl off n v) cl off n = v % 256 ^ n := by
  have h := memRead_memWrite s.mem (combKey cl off) (leBytes n v)
  rw [leBytes_length] at h
  simp only [combNat, combBytes, combPutNat, combPut, h, leNat_leBytes]

end Sys2Proof.Machine
end

