-- ==== Sys2Proof/Laws/Ops.lean ====
section
/-!
SUPPORT. What the shared operations do, said once: units after an update, registers after a write, the completion of an
instruction, a park, an interlock, a trap.
-/

namespace Sys2Proof.Machine

/-! ## Units -/

@[simp] theorem ctxOf_modCtx (s : State) (n : Nat) (f : Ctx → Ctx) : ctxOf (modCtx s n f) n = f (ctxOf s n) := by
  simp [ctxOf, modCtx]

theorem ctxOf_modCtx_ne (s : State) (n k : Nat) (f : Ctx → Ctx) (h : k ≠ n) : ctxOf (modCtx s n f) k = ctxOf s k := by
  simp [ctxOf, modCtx, fget_fset_ne _ _ _ _ h]

@[simp] theorem coreOf_modCore (s : State) (n : Nat) (f : Core → Core) : coreOf (modCore s n f) n = f (coreOf s n) := by
  simp [coreOf, modCore]

theorem coreOf_modCore_ne (s : State) (n k : Nat) (f : Core → Core) (h : k ≠ n) : coreOf (modCore s n f) k = coreOf s k := by
  simp [coreOf, modCore, fget_fset_ne _ _ _ _ h]

@[simp] theorem clOf_modCl (s : State) (n : Nat) (f : Cluster → Cluster) : clOf (modCl s n f) n = f (clOf s n) := by
  simp [clOf, modCl]

theorem clOf_modCl_ne (s : State) (n k : Nat) (f : Cluster → Cluster) (h : k ≠ n) : clOf (modCl s n f) k = clOf s k := by
  simp [clOf, modCl, fget_fset_ne _ _ _ _ h]

@[simp] theorem avOf_modAv (s : State) (n : Nat) (f : Anvil → Anvil) : avOf (modAv s n f) n = f (avOf s n) := by
  simp [avOf, modAv]

theorem avOf_modAv_ne (s : State) (n k : Nat) (f : Anvil → Anvil) (h : k ≠ n) : avOf (modAv s n f) k = avOf s k := by
  simp [avOf, modAv, fget_fset_ne _ _ _ _ h]

@[simp] theorem dieOf_modDie (s : State) (n : Nat) (f : Die → Die) : dieOf (modDie s n f) n = f (dieOf s n) := by
  simp [dieOf, modDie]

@[simp] theorem portOf_modPort (s : State) (n : Nat) (f : Port → Port) : portOf (modPort s n f) n = f (portOf s n) := by
  simp [portOf, modPort]

@[simp] theorem viewOf_modView (s : State) (n : Nat) (f : ViewSlot → ViewSlot) : viewOf (modView s n f) n = f (viewOf s n) := by
  simp [viewOf, modView]

@[simp] theorem cellOf_modCell (s : State) (c i : Nat) (f : Cell → Cell) : cellOf (modCell s c i f) c i = f (cellOf s c i) := by
  simp [cellOf, modCell]

/-- A change to a core leaves every context as it stands. -/
@[simp] theorem ctxOf_modCore (s : State) (k n : Nat) (f : Core → Core) : ctxOf (modCore s k f) n = ctxOf s n := rfl
@[simp] theorem ctxOf_modCl (s : State) (k n : Nat) (f : Cluster → Cluster) : ctxOf (modCl s k f) n = ctxOf s n := rfl
@[simp] theorem ctxOf_modAv (s : State) (k n : Nat) (f : Anvil → Anvil) : ctxOf (modAv s k f) n = ctxOf s n := rfl
@[simp] theorem clOf_modCtx (s : State) (k n : Nat) (f : Ctx → Ctx) : clOf (modCtx s k f) n = clOf s n := rfl
@[simp] theorem clOf_modAv (s : State) (k n : Nat) (f : Anvil → Anvil) : clOf (modAv s k f) n = clOf s n := rfl
@[simp] theorem avOf_modCtx (s : State) (k n : Nat) (f : Ctx → Ctx) : avOf (modCtx s k f) n = avOf s n := rfl
@[simp] theorem coreOf_modCtx (s : State) (k n : Nat) (f : Ctx → Ctx) : coreOf (modCtx s k f) n = coreOf s n := rfl

/-! ## The context in hand -/

@[simp] theorem modCur_cx (s : State) (f : Ctx → Ctx) : (modCur s f).cx = s.cx := rfl
@[simp] theorem cur_modCur (s : State) (f : Ctx → Ctx) : cur (modCur s f) = f (cur s) := by simp [cur, modCur]

/-- Only what a change makes of the context in hand matters. -/
theorem modCur_congr (s : State) (f g : Ctx → Ctx) (h : f (cur s) = g (cur s)) : modCur s f = modCur s g := by
  have h' : f (ctxOf s s.cx) = g (ctxOf s s.cx) := h
  simp only [modCur, modCtx, h']

theorem modCur_modCur (s : State) (f g : Ctx → Ctx) : modCur (modCur s f) g = modCur s (fun c => g (f c)) := by
  have h (m : FMap Ctx) (k : Nat) (a b : Ctx) : fset (fset m k a) k b = fset m k b := by
    induction m with
    | nil => simp [fset]
    | cons p t ih =>
      obtain ⟨j, w⟩ := p
      simp only [fset]
      split
      · simp only [fset, if_pos ‹j < k›, ih]
      · split <;> simp [fset]
  simp [modCur, modCtx, ctxOf, h]

/-! ## Registers (R168, R284) -/

theorem vec_get_set {α : Type} [Inhabited α] {n : Nat} (v : Vector α n) (i j : Nat) (a : α) (h : i < n) :
    (v.set! i a)[j]! = if j = i then a else v[j]! := by
  by_cases hj : j < n
  · have e : (v.set! i a)[j] = if i = j then a else v[j] := by
      simp only [Vector.set!_eq_setIfInBounds]
      exact Vector.getElem_setIfInBounds hj
    simp only [getElem!_pos, hj, e, eq_comm]
  · have : j ≠ i := by omega
    simp [getElem!_neg, hj, this]

/-- x0 reads as zero in every state (R284). -/
@[simp] theorem getX_zero (c : Ctx) : c.getX 0 = 0 := rfl

/-- A write to x0 is discarded (R284). -/
@[simp] theorem setX_zero (c : Ctx) (v : Word) : c.setX 0 v = c := rfl

/-- A register write changes that register, as the context sees it, and no other (R284, R168). -/
theorem getX_setX (c : Ctx) (d r : XReg) (v : Word) :
    (c.setX d v).getX r = if r = d ∧ r ≠ 0 then v else c.getX r := by
  have hd := d.isLt
  have hr := r.isLt
  unfold Ctx.setX Ctx.getX
  by_cases h0 : r.val = 0
  · have : r = 0 := Fin.ext h0
    simp [this]
  have hr0 : r ≠ 0 := fun h => h0 (by simp [h])
  by_cases hd0 : d.val = 0
  · have : r ≠ d := fun h => h0 (h ▸ hd0)
    simp [hd0, h0, this]
  by_cases hrd : r = d
  · subst hrd
    by_cases h1 : c.mhInh = true
    · by_cases h2 : 24 ≤ r.val
      · simp [h0, hr0, h1, h2, vec_get_set _ _ _ _ (show r.val - 24 < 8 by omega)]
      · simp [h0, hr0, h1, h2]
    · simp [h0, hr0, h1]
  · have hne : r.val ≠ d.val := fun h => hrd (Fin.ext h)
    by_cases h1 : c.mhInh = true
    · by_cases h2 : 24 ≤ d.val <;> by_cases h3 : 24 ≤ r.val
      · have : r.val - 24 ≠ d.val - 24 := by omega
        simp [h0, hd0, hrd, h1, h2, h3, vec_get_set _ _ _ _ (show d.val - 24 < 8 by omega), this]
      · simp [h0, hd0, hrd, h1, h2, h3]
      · simp [h0, hd0, hrd, h1, h2, h3]
      · simp [h0, hd0, hrd, h1, h2, h3, Vector.set!_eq_setIfInBounds, hne.symm]
    · simp [h0, hd0, hrd, h1, Vector.set!_eq_setIfInBounds, hne.symm]

@[simp] theorem setX_v (c : Ctx) (r : XReg) (v : Word) : (c.setX r v).v = c.v := by unfold Ctx.setX; split <;> (try split) <;> rfl
@[simp] theorem setX_m (c : Ctx) (r : XReg) (v : Word) : (c.setX r v).m = c.m := by unfold Ctx.setX; split <;> (try split) <;> rfl
@[simp] theorem setX_pc (c : Ctx) (r : XReg) (v : Word) : (c.setX r v).pc = c.pc := by unfold Ctx.setX; split <;> (try split) <;> rfl
@[simp] theorem setX_fcsr (c : Ctx) (r : XReg) (v : Word) : (c.setX r v).fcsr = c.fcsr := by
  unfold Ctx.setX; split <;> (try split) <;> rfl

theorem getV_setV (c : Ctx) (d r : VReg) (v : VWord) : (c.setV d v).getV r = if r = d then v else c.getV r := by
  have h : (r.val = d.val) = (r = d) := by simp [Fin.ext_iff]
  simp only [Ctx.setV, Ctx.getV, vec_get_set _ _ _ _ d.isLt, h]

theorem getM_setM (c : Ctx) (d r : MReg) (v : BitVec 16) : (c.setM d v).getM r = if r = d then v else c.getM r := by
  have h : (r.val = d.val) = (r = d) := by simp [Fin.ext_iff]
  simp only [Ctx.setM, Ctx.getM, vec_get_set _ _ _ _ d.isLt, h]

/-! ## Completion, parks, interlocks -/

/-- An instruction that completes moves the pc on and leaves no wait. -/
@[simp] theorem cur_next (s : State) : cur (next s) = (cur s).goto ((cur s).pc + 4) := by simp [next]
@[simp] theorem cur_goto (s : State) (pc : Word) : cur (goto s pc) = (cur s).goto pc := by simp [goto]

/-- A result write changes the context in hand alone. -/
theorem wbX_eq (s : State) (r : XReg) (v : Word) : wbX s r v = modCur s fun c => (c.setX r v).goto (c.pc + 4) := rfl

/-- A park leaves every other context and all of memory alone. -/
theorem park_other (s : State) (w : Wait) : (park s w).mem = s.mem ∧ ∀ n, n ≠ s.cx → ctxOf (park s w) n = ctxOf s n :=
  ⟨rfl, fun _ h => ctxOf_modCtx_ne _ _ _ _ h⟩

/-- An interlock changes nothing but the note of when the instruction first issued. -/
theorem cur_hold (s : State) : cur (hold s) = { cur s with waitSince := some ((cur s).waitSince.getD (cycOf s s.cx)) } := by
  simp [hold]

/-! ## Traps (R182) -/

/-- A trap taken at TL0 (R182). -/
theorem takeTrapAt_tl0 (s : State) (n : Nat) (t : Trap) (hp : (ctxOf s n).priv = .u) (hl : (ctxOf s n).tl = 0)
    (hv : (ctxOf s n).tvec ≠ 0) :
    ctxOf (takeTrapAt s n t) n = { ctxOf s n with
      wait := .none, waitSince := none, parked := false, fencing := false, pledge := none, tl := 1,
      tepc1 := if t.next then (ctxOf s n).pc + 4 else (ctxOf s n).pc, tval1 := wd t.tval,
      tcause1 := wd (t.cause % 256 + b2n t.async * 256 + b2n (ctxOf s n).mhInh * 512 + b2n t.abnd * 1024),
      pc := (ctxOf s n).tvec } := by
  have hc : ¬((ctxOf s n).priv = .s ∨ (ctxOf s n).tl = 2 ∨ ((ctxOf s n).tl = 0 ∧ (ctxOf s n).tvec = 0)) := by
    rintro (h | h | ⟨-, h⟩)
    · simp [hp] at h
    · simp [hl] at h
    · exact hv h
  simp only [takeTrapAt]
  rw [if_neg hc, ctxOf_modCtx]
  simp only [hl, if_true]

/-- A trap taken at TL1 (R182). -/
theorem takeTrapAt_tl1 (s : State) (n : Nat) (t : Trap) (hp : (ctxOf s n).priv = .u) (hl : (ctxOf s n).tl = 1) :
    ctxOf (takeTrapAt s n t) n = { ctxOf s n with
      wait := .none, waitSince := none, parked := false, fencing := false, pledge := none, tl := 2,
      tepc2 := if t.next then (ctxOf s n).pc + 4 else (ctxOf s n).pc, tval2 := wd t.tval,
      tcause2 := wd (t.cause % 256 + b2n t.async * 256 + b2n (ctxOf s n).mhInh * 512 + b2n t.abnd * 1024),
      pc := (ctxOf s n).tvec + 0x40 } := by
  have hc : ¬((ctxOf s n).priv = .s ∨ (ctxOf s n).tl = 2 ∨ ((ctxOf s n).tl = 0 ∧ (ctxOf s n).tvec = 0)) := by
    simp [hp, hl]
  simp only [takeTrapAt]
  rw [if_neg hc, ctxOf_modCtx]
  simp only [hl, Nat.one_ne_zero, if_false]

/-- A trap that does not kill leaves memory and every other context alone. -/
theorem takeTrapAt_other (s : State) (n : Nat) (t : Trap)
    (h : ¬((ctxOf s n).priv = .s ∨ (ctxOf s n).tl = 2 ∨ ((ctxOf s n).tl = 0 ∧ (ctxOf s n).tvec = 0))) :
    (takeTrapAt s n t).mem = s.mem ∧ ∀ k, k ≠ n → ctxOf (takeTrapAt s n t) k = ctxOf s k := by
  simp only [takeTrapAt]
  rw [if_neg h]
  exact ⟨rfl, fun k hk => ctxOf_modCtx_ne _ _ _ _ hk⟩

/-- What an instruction with checks answers: its effect, or its trap. -/
@[simp] theorem ret_ok (s t : State) : ret s (.ok t) = .next t := rfl
@[simp] theorem ret_error (s : State) (e : Trap) : ret s (.error e) = .next (takeTrap s e) := rfl

end Sys2Proof.Machine
end

