-- ==== Sys2Proof/Laws/Results.lean ====
section
/-!
SUPPORT. The shapes in which an instruction completes, for each shared write operation: what the claims cite instead of
unfolding it.
-/

namespace Sys2Proof.Safety

open Sys2Proof.Machine

/-- A change of the context in hand changes nothing else. -/
theorem onlySlot_modCur (s : State) (f : Ctx → Ctx) : OnlySlot s (modCur s f) s.cx :=
  ⟨fun _ h => ctxOf_modCtx_ne _ _ _ _ h, fun _ => rfl, rfl⟩

theorem rest_setX (c : Ctx) (r : XReg) (v : Word) : rest (c.setX r v) = rest c := by
  unfold Ctx.setX; split <;> (try split) <;> rfl

/-- A completion by a change of the registers alone. -/
theorem done_modCur (s : State) (f : Ctx → Ctx) (pc : Word) (h : rest (f (cur s)) = rest (cur s)) :
    Done s (modCur s fun c => (f c).goto pc) pc where
  pc_eq := by simp [Ctx.goto]
  wait_eq := by simp [Ctx.goto]
  rest_eq := by rw [cur_modCur, ← h]; rfl
  only := onlySlot_modCur _ _
  cx_eq := rfl

theorem getX_goto (c : Ctx) (pc : Word) (r : XReg) : (c.goto pc).getX r = c.getX r := by simp [Ctx.getX, Ctx.goto]

/-- rd := v and the next instruction. -/
theorem wbX_result (s : State) (d : XReg) (v : Word) : XResult s (wbX s d v) d v where
  done := by
    have e : wbX s d v = modCur s fun c => (c.setX d v).goto (nextPc s) := modCur_congr s _ _ rfl
    rw [e]; exact done_modCur s (fun c => c.setX d v) _ (rest_setX _ _ _)
  xs := fun r => by simp only [rx, wbX, cur_modCur, getX_goto, getX_setX]
  vs := fun r => by simp [rv, wbX, Ctx.getV, Ctx.goto]
  ms := fun r => by simp [rm, wbX, Ctx.getM, Ctx.goto]
  flags := by simp [FlagsSame, wbX, Ctx.goto]

/-- rd := a pattern, its flags ORed into FCSR, and the next instruction. -/
theorem wbF_result (s : State) (d : XReg) (r : Nat × Fl) : XFResult s (wbF s d r) d (wd r.1) r.2 where
  done := by
    have h := done_modCur s (fun c => (c.setX d (wd r.1)).flag r.2) (nextPc s) (by rw [← rest_setX (cur s) d (wd r.1)]; rfl)
    have e : wbF s d r = modCur s fun c => ((c.setX d (wd r.1)).flag r.2).goto (nextPc s) := by
      simp only [wbF, next, modCur_modCur]
      refine modCur_congr s _ _ ?_
      simp only [Ctx.flag, setX_pc, nextPc]
    rw [e]; exact h
  xs := fun k => by
    simp only [rx, wbF, cur_next, cur_modCur, getX_goto]
    exact getX_setX _ _ _ _
  vs := fun k => by simp [rv, wbF, Ctx.getV, Ctx.goto, Ctx.flag]
  ms := fun k => by simp [rm, wbF, Ctx.getM, Ctx.goto, Ctx.flag]
  flags := by simp [FlagsAdd, wbF, Ctx.goto, Ctx.flag]

/-- vd := v, flags ORed into FCSR, and the next instruction. -/
theorem wbVF_result (s : State) (d : VReg) (r : VWord × Fl) : VFResult s (wbVF s d r) d r.1 r.2 where
  done := by
    have h := done_modCur s (fun c => (c.setV d r.1).flag r.2) (nextPc s) rfl
    have e : wbVF s d r = modCur s fun c => ((c.setV d r.1).flag r.2).goto (nextPc s) := by
      simp only [wbVF, next, modCur_modCur]
      exact modCur_congr s _ _ rfl
    rw [e]; exact h
  xs := fun k => by simp [rx, wbVF, Ctx.getX, Ctx.goto, Ctx.flag, Ctx.setV]
  vs := fun k => by
    have h := getV_setV (cur s) d k r.1
    simp only [rv, wbVF, cur_next, cur_modCur]
    exact h
  ms := fun k => by simp [rm, wbVF, Ctx.getM, Ctx.goto, Ctx.flag, Ctx.setV]
  flags := by simp [FlagsAdd, wbVF, Ctx.goto, Ctx.flag, Ctx.setV]

/-- A mask register := v, flags ORed into FCSR, and the next instruction. -/
theorem wbMF_result (s : State) (d : MReg) (v : BitVec 16) (f : Fl) :
    MFResult s (next (modCur s fun c => (c.setM d v).flag f)) d v f where
  done := by
    have h := done_modCur s (fun c => (c.setM d v).flag f) (nextPc s) rfl
    have e : next (modCur s fun c => (c.setM d v).flag f) = modCur s fun c => ((c.setM d v).flag f).goto (nextPc s) := by
      simp only [next, modCur_modCur]
      exact modCur_congr s _ _ rfl
    rw [e]; exact h
  xs := fun k => by simp [rx, Ctx.getX, Ctx.goto, Ctx.flag, Ctx.setM]
  vs := fun k => by simp [rv, Ctx.getV, Ctx.goto, Ctx.flag, Ctx.setM]
  ms := fun k => by
    have h := getM_setM (cur s) d k v
    simp only [rm, cur_next, cur_modCur]
    exact h
  flags := by simp [FlagsAdd, Ctx.goto, Ctx.flag, Ctx.setM]

/-- The pc alone. -/
theorem goto_result (s : State) (pc : Word) : PcResult s (goto s pc) pc where
  done := done_modCur s id pc rfl
  xs := fun r => by simp [rx, Ctx.getX, Ctx.goto]
  vs := fun r => by simp [rv, Ctx.getV, Ctx.goto]
  ms := fun r => by simp [rm, Ctx.getM, Ctx.goto]
  flags := by simp [FlagsSame, Ctx.goto]

theorem next_result (s : State) : PcResult s (next s) (nextPc s) := by
  have e : next s = goto s (nextPc s) := modCur_congr s _ _ rfl
  rw [e]; exact goto_result _ _

/-- A synchronous trap at TL0 of a context that can take it. -/
theorem takeTrap_trapped (s : State) (t : Trap) (h : CanTrap s) (hn : t.next = false) (hc : t.cause < 256) :
    Trapped s (takeTrap s t) t.cause t.tval := by
  obtain ⟨hp, hl, hv⟩ := h
  have hk : ¬((ctxOf s s.cx).priv = .s ∨ (ctxOf s s.cx).tl = 2 ∨ ((ctxOf s s.cx).tl = 0 ∧ (ctxOf s s.cx).tvec = 0)) := by
    rintro (h | h | ⟨-, h⟩)
    · rw [show (ctxOf s s.cx).priv = .u from hp] at h; cases h
    · rw [show (ctxOf s s.cx).tl = 0 from hl] at h; cases h
    · exact hv h
  have hx : (takeTrap s t).cx = s.cx := by
    simp only [takeTrap, takeTrapAt]; rw [if_neg hk]; rfl
  have hcur : cur (takeTrap s t) = ctxOf (takeTrapAt s s.cx t) s.cx := by rw [cur, hx]; rfl
  have e := takeTrapAt_tl0 s s.cx t hp hl hv
  have hcode : fld (wd (t.cause % 256 + b2n t.async * 256 + b2n (ctxOf s s.cx).mhInh * 512 + b2n t.abnd * 1024)).toNat 0 8 =
      t.cause := by
    have h1 : b2n t.async ≤ 1 := by unfold b2n; split <;> omega
    have h2 : b2n (ctxOf s s.cx).mhInh ≤ 1 := by unfold b2n; split <;> omega
    have h3 : b2n t.abnd ≤ 1 := by unfold b2n; split <;> omega
    simp only [wd, fld, BitVec.toNat_ofNat]
    omega
  exact {
    tl_eq := by rw [hcur, e]
    epc_eq := by rw [hcur, e]; simp [hn, cur]
    val_eq := by rw [hcur, e]
    cause_eq := by rw [hcur, e]; exact hcode
    pc_eq := by rw [hcur, e]; rfl
    xs := fun r => by rw [rx, hcur, e]; rfl
    vs := fun r => by rw [rv, hcur, e]; rfl
    ms := fun r => by rw [rm, hcur, e]; rfl
    flags := by rw [FlagsSame, hcur, e]; rfl
    only := by
      refine ⟨(takeTrapAt_other s s.cx t hk).2, fun a => ?_, ?_⟩
      · rw [takeTrap, (takeTrapAt_other s s.cx t hk).1]
      · simp only [takeTrap, takeTrapAt]; rw [if_neg hk]; rfl }

end Sys2Proof.Safety
end

