-- ==== Sys2Proof/Tests/Slice0.lean ====
section
/-!
SUPPORT. Tests of the model's own: ill-formed terms are refused, words written out field by field from the encoding tables of
spec/ decode to the instruction they stand for, and a few single steps on small states.
-/

namespace Sys2Proof.Tests

set_option Elab.async false

/-! ## Ill-formed terms: one for each check, refused -/

theorem test_illformed_fadd : Instr.wellFormed (.fadd .e4m3 1 2 3) = false := by decide
theorem test_illformed_fcvt : Instr.wellFormed (.fcvt .f16 .f16 1 2) = false := by decide
theorem test_illformed_extu : Instr.wellFormed (.extu 1 2 65 0) = false := by decide
theorem test_illformed_ins : Instr.wellFormed (.ins 1 2 127 0) = false := by decide
theorem test_illformed_slli : Instr.wellFormed (.slli 1 2 true 32) = false := by decide
theorem test_illformed_vadd : Instr.wellFormed (.vadd .e4m3 1 2 3 none) = false := by decide
theorem test_illformed_vcmp : Instr.wellFormed (.vcmpeq .e5m2 0 1 2 none) = false := by decide
theorem test_illformed_vred : Instr.wellFormed (.vredsum .e5m2 1 2 none) = false := by decide
theorem test_illformed_vadds : Instr.wellFormed (.vadds .f32 1 2 3 none) = false := by decide
theorem test_illformed_vperm : Instr.wellFormed (.vperm .f16 1 2 3 none) = false := by decide
theorem test_illformed_vdiv : Instr.wellFormed (.vdiv .i32 1 2 3 none) = false := by decide
theorem test_illformed_vhash : Instr.wellFormed (.vhash .i8 1 2 3 none) = false := by decide
theorem test_illformed_vcvt : Instr.wellFormed (.vcvt .i8 .i8 1 2 none) = false := by decide
theorem test_illformed_vdot_pair : Instr.wellFormed (.vdot .i8 .i8 1 2 none) = false := by decide
theorem test_illformed_vdot_odd : Instr.wellFormed (.vdot .i32 .i8 1 3 none) = false := by decide
theorem test_illformed_loop : Instr.wellFormed (.loop 6 0 1 1) = false := by decide
theorem test_illformed_lstr : Instr.wellFormed (.lstr 7 0 0 0) = false := by decide
theorem test_illformed_lext : Instr.wellFormed (.lext 6 0) = false := by decide
theorem test_illformed_lgate : Instr.wellFormed (.lgate 6) = false := by decide
theorem test_illformed_waitq : Instr.wellFormed (.waitq none 0) = false := by decide
theorem test_illformed_wcvt_fmt : Instr.wellFormed (.wcvt 0 1 16 2) = false := by decide
theorem test_illformed_wcvt_mode : Instr.wellFormed (.wcvt 0 1 0 3) = false := by decide
theorem test_illformed_wcvt_field : Instr.wellFormed (.wcvt 0 1 1 0) = false := by decide
theorem test_illformed_stc_fmt : Instr.wellFormed (.stc 0 1 2 16 0 false) = false := by decide
theorem test_illformed_stc_kind : Instr.wellFormed (.stc 0 1 2 0 3 false) = false := by decide
theorem test_illformed_stcw_fmt : Instr.wellFormed (.stcw 0 1 2 1 1 false) = false := by decide

/-! ## Swarm words: fields d = 21, a = 10, b = 13 and the like, at the places the tables give -/

theorem test_decode_op_a :
    decodeSwarm 0x06AA6900 = some (.add 21 10 13 true) ∧
    decodeSwarm 0x06AA6901 = some (.sub 21 10 13 true) ∧
    decodeSwarm 0x06AA6902 = some (.and 21 10 13 true) ∧
    decodeSwarm 0x06AA6903 = some (.or 21 10 13 true) ∧
    decodeSwarm 0x06AA6904 = some (.xor 21 10 13 true) ∧
    decodeSwarm 0x06AA6905 = some (.sll 21 10 13 true) ∧
    decodeSwarm 0x06AA6906 = some (.srl 21 10 13 true) ∧
    decodeSwarm 0x06AA6907 = some (.sra 21 10 13 true) ∧
    decodeSwarm 0x06AA6908 = some (.ror 21 10 13 true) ∧
    decodeSwarm 0x06AA6909 = some (.slt 21 10 13 true) ∧
    decodeSwarm 0x06AA690A = some (.sltu 21 10 13 true) ∧
    decodeSwarm 0x06AA690B = some (.min 21 10 13 true) ∧
    decodeSwarm 0x06AA690C = some (.max 21 10 13 true) ∧
    decodeSwarm 0x06AA690D = some (.minu 21 10 13 true) ∧
    decodeSwarm 0x06AA690E = some (.maxu 21 10 13 true) ∧
    decodeSwarm 0x06AA680F = some (.selnz 21 10 13) := by decide +kernel

theorem test_decode_op_b :
    decodeSwarm 0x06AA6910 = some (.mul 21 10 13 true) ∧
    decodeSwarm 0x06AA6911 = some (.mulh 21 10 13 true) ∧
    decodeSwarm 0x06AA6912 = some (.mulhu 21 10 13 true) ∧
    decodeSwarm 0x06AA6913 = some (.div 21 10 13 true) ∧
    decodeSwarm 0x06AA6914 = some (.divu 21 10 13 true) ∧
    decodeSwarm 0x06AA6915 = some (.rem 21 10 13 true) ∧
    decodeSwarm 0x06AA6916 = some (.remu 21 10 13 true) ∧
    decodeSwarm 0x06AA0118 = some (.clz 21 10 true) ∧
    decodeSwarm 0x06AA0119 = some (.ctz 21 10 true) ∧
    decodeSwarm 0x06AA011A = some (.popc 21 10 true) ∧
    decodeSwarm 0x06AA011B = some (.bswap 21 10 true) := by decide +kernel

theorem test_decode_opf_a :
    decodeSwarm 0x0AAA6A00 = some (.fadd .f32 21 10 13) ∧
    decodeSwarm 0x0AAA6A01 = some (.fsub .f32 21 10 13) ∧
    decodeSwarm 0x0AAA6A02 = some (.fmul .f32 21 10 13) ∧
    decodeSwarm 0x0AAA6A03 = some (.fdiv .f32 21 10 13) ∧
    decodeSwarm 0x0AAA0204 = some (.fsqrt .f32 21 10) ∧
    decodeSwarm 0x0AAA6A05 = some (.fma .f32 21 10 13) ∧
    decodeSwarm 0x0AAA6A06 = some (.fmin .f32 21 10 13) ∧
    decodeSwarm 0x0AAA6A07 = some (.fmax .f32 21 10 13) ∧
    decodeSwarm 0x0AAA6A08 = some (.feq .f32 21 10 13) ∧
    decodeSwarm 0x0AAA6A09 = some (.flt .f32 21 10 13) ∧
    decodeSwarm 0x0AAA6A0A = some (.fle .f32 21 10 13) ∧
    decodeSwarm 0x0AAA020B = some (.fclass .f32 21 10) ∧
    decodeSwarm 0x0AAA6A0C = some (.fsgnj .f32 21 10 13) ∧
    decodeSwarm 0x0AAA6A0D = some (.fsgnjn .f32 21 10 13) ∧
    decodeSwarm 0x0AAA0210 = some (.ftoi .f32 21 10) ∧
    decodeSwarm 0x0AAA0211 = some (.ftou .f32 21 10) := by decide +kernel

theorem test_decode_opf_b :
    decodeSwarm 0x0AAA0212 = some (.itof .f32 21 10) ∧
    decodeSwarm 0x0AAA0213 = some (.utof .f32 21 10) ∧
    decodeSwarm 0x0AAA2214 = some (.fcvt .f32 .e4m3 21 10) := by decide +kernel

theorem test_decode_bits :
    decodeSwarm 0x0EAA0A11 = some (.extu 21 10 40 17) ∧
    decodeSwarm 0x0EAA4A11 = some (.exts 21 10 40 17) ∧
    decodeSwarm 0x0EAA8A11 = some (.ins 21 10 40 17) := by decide +kernel

theorem test_decode_shift :
    decodeSwarm 0x2EAA0115 = some (.slli 21 10 true 21) ∧
    decodeSwarm 0x2EAA0155 = some (.srli 21 10 true 21) ∧
    decodeSwarm 0x2EAA0195 = some (.srai 21 10 true 21) ∧
    decodeSwarm 0x2EAA01D5 = some (.rori 21 10 true 21) := by decide +kernel

theorem test_decode_ord :
    decodeSwarm 0x76AA0101 = some (.lda 21 10 .dev true) ∧
    decodeSwarm 0x76AA0103 = some (.ldaF 21 10 .dev true) ∧
    decodeSwarm 0x740A6905 = some (.stl 10 13 .dev true) ∧
    decodeSwarm 0x74000110 = some (.fence .dev) ∧
    decodeSwarm 0x74000111 = some (.fenceRel .dev) ∧
    decodeSwarm 0x74000112 = some (.fenceAcq .dev) := by decide +kernel

theorem test_decode_amo :
    decodeSwarm 0x7AAA6900 = some (.amoadd 21 10 13 true) ∧
    decodeSwarm 0x7AAA6901 = some (.amoand 21 10 13 true) ∧
    decodeSwarm 0x7AAA6902 = some (.amoor 21 10 13 true) ∧
    decodeSwarm 0x7AAA6903 = some (.amoxor 21 10 13 true) ∧
    decodeSwarm 0x7AAA6904 = some (.amoswap 21 10 13 true) ∧
    decodeSwarm 0x7AAA6905 = some (.amomin 21 10 13 true) ∧
    decodeSwarm 0x7AAA6906 = some (.amomax 21 10 13 true) ∧
    decodeSwarm 0x7AAA6907 = some (.amominu 21 10 13 true) ∧
    decodeSwarm 0x7AAA6908 = some (.amomaxu 21 10 13 true) ∧
    decodeSwarm 0x7AAA6909 = some (.amocas 21 10 13 true) ∧
    decodeSwarm 0x7AAA6910 = some (.ramoadd 21 10 13 true) ∧
    decodeSwarm 0x7AAA6911 = some (.ramoswap 21 10 13 true) ∧
    decodeSwarm 0x780A6818 = some (.rsd 10 13) ∧
    decodeSwarm 0x780A5819 = some (.rsq 10 11) := by decide +kernel

theorem test_decode_fe :
    decodeSwarm 0x7EAA0000 = some (.ldfe 21 10) ∧
    decodeSwarm 0x7EAA0001 = some (.ldff 21 10) ∧
    decodeSwarm 0x7C0A6802 = some (.stef 10 13) ∧
    decodeSwarm 0x7C0A6803 = some (.stff 10 13) := by decide +kernel

theorem test_decode_bm :
    decodeSwarm 0x98408FF1 = some (.bmany 2 0x8ff1) ∧
    decodeSwarm 0x98C08FF1 = some (.bmnone 2 0x8ff1) ∧
    decodeSwarm 0x99408FF1 = some (.bmall 2 0x8ff1) := by decide +kernel

theorem test_decode_vop :
    decodeSwarm 0xA9265D60 = some (.vadd .f32 9 6 11 (some 2)) ∧
    decodeSwarm 0xA92658E1 = some (.vsub .i16 9 6 11 (some 2)) ∧
    decodeSwarm 0xA92658E2 = some (.vmul .i16 9 6 11 (some 2)) ∧
    decodeSwarm 0xA9265DE3 = some (.vfma .f64 9 6 11 (some 2)) ∧
    decodeSwarm 0xA92658E4 = some (.vmin .i16 9 6 11 (some 2)) ∧
    decodeSwarm 0xA92658E5 = some (.vmax .i16 9 6 11 (some 2)) ∧
    decodeSwarm 0xA92658E6 = some (.vadds .i16 9 6 11 (some 2)) ∧
    decodeSwarm 0xA92658E7 = some (.vsubs .i16 9 6 11 (some 2)) ∧
    decodeSwarm 0xA92658E8 = some (.vand .i16 9 6 11 (some 2)) ∧
    decodeSwarm 0xA92658E9 = some (.vor .i16 9 6 11 (some 2)) ∧
    decodeSwarm 0xA92658EA = some (.vxor .i16 9 6 11 (some 2)) ∧
    decodeSwarm 0xA92658EB = some (.vsll .i16 9 6 11 (some 2)) ∧
    decodeSwarm 0xA92658EC = some (.vsrl .i16 9 6 11 (some 2)) ∧
    decodeSwarm 0xA92658ED = some (.vsra .i16 9 6 11 (some 2)) ∧
    decodeSwarm 0xA9265D6E = some (.vdiv .f32 9 6 11 (some 2)) ∧
    decodeSwarm 0xA926056F = some (.vsqrt .f32 9 6 (some 2)) := by decide +kernel

theorem test_decode_vcmp :
    decodeSwarm 0xAC4658E0 = some (.vcmpeq .i16 2 6 11 (some 2)) ∧
    decodeSwarm 0xAC4658E1 = some (.vcmpne .i16 2 6 11 (some 2)) ∧
    decodeSwarm 0xAC465CE2 = some (.vcmplt .bf16 2 6 11 (some 2)) ∧
    decodeSwarm 0xAC4658E3 = some (.vcmple .i16 2 6 11 (some 2)) ∧
    decodeSwarm 0xAD2658E4 = some (.vsel .i16 9 6 11 2) ∧
    decodeSwarm 0xAC411805 = some (.mand 2 1 3) ∧
    decodeSwarm 0xAC411806 = some (.mor 2 1 3) ∧
    decodeSwarm 0xAC411807 = some (.mxor 2 1 3) ∧
    decodeSwarm 0xAC410008 = some (.mnot 2 1) ∧
    decodeSwarm 0xAC4A0009 = some (.mfromx 2 10) ∧
    decodeSwarm 0xAEA1000A = some (.mtox 21 1) ∧
    decodeSwarm 0xAEA1000B = some (.mpopc 21 1) := by decide +kernel

theorem test_decode_vxf :
    decodeSwarm 0xB1261560 = some (.vcvt .f32 .i32 9 6 (some 2)) ∧
    decodeSwarm 0xB1260161 = some (.vdot .i32 .i8 9 6 (some 2)) ∧
    decodeSwarm 0xB12658E2 = some (.vperm .i16 9 6 11 (some 2)) ∧
    decodeSwarm 0xB1265B63 = some (.vhash .ui32 9 6 11 (some 2)) ∧
    decodeSwarm 0xB1261884 = some (.vnzc .i16 9 6 3) ∧
    decodeSwarm 0xB12A00E5 = some (.vsplat .i16 9 10 (some 2)) ∧
    decodeSwarm 0xB2A66886 = some (.vext .i16 21 6 13) ∧
    decodeSwarm 0xB12A6887 = some (.vins .i16 9 10 13) ∧
    decodeSwarm 0xB2A601E8 = some (.vredsum .i64 21 6 (some 2)) ∧
    decodeSwarm 0xB2A600E9 = some (.vredmax .i16 21 6 (some 2)) ∧
    decodeSwarm 0xB2A600EA = some (.vredmin .i16 21 6 (some 2)) ∧
    decodeSwarm 0xB126006B = some (.vmov 9 6 (some 2)) := by decide +kernel

theorem test_decode_cell_a :
    decodeSwarm 0xC2AA6800 = some (.copen 21 10 13) ∧
    decodeSwarm 0xC00A6801 = some (.cputD 10 13) ∧
    decodeSwarm 0xC00A5901 = some (.cputQ 10 11) ∧
    decodeSwarm 0xC00A5902 = some (.cputR 10 11) ∧
    decodeSwarm 0xC00A6903 = some (.seal 10 13 .dev) ∧
    decodeSwarm 0xC00A6904 = some (.sealm 10 13 .dev) ∧
    decodeSwarm 0xC00A6805 = some (.csett 10 13) ∧
    decodeSwarm 0xC2AA0006 = some (.cld 21 10) ∧
    decodeSwarm 0xC2AA0007 = some (.cldAcq 21 10) ∧
    decodeSwarm 0xC00A0008 = some (.cretire 10) ∧
    decodeSwarm 0xC00A0009 = some (.done 10) ∧
    decodeSwarm 0xC2AA680A = some (.cstat 21 10 13) ∧
    decodeSwarm 0xC00A6810 = some (.cbinit 10 13) ∧
    decodeSwarm 0xC2AA0011 = some (.cbpop 21 10) ∧
    decodeSwarm 0xC00A6812 = some (.cbfree 10 13) ∧
    decodeSwarm 0xC00A6818 = some (.binit 10 13) := by decide +kernel

theorem test_decode_cell_b :
    decodeSwarm 0xC2AA6819 = some (.barrv 21 10 13) ∧
    decodeSwarm 0xC00A681A = some (.bwait 10 13) ∧
    decodeSwarm 0xC00A001B = some (.bretire 10) := by decide +kernel

theorem test_decode_xfer :
    decodeSwarm 0xC40A0000 = some (.xfer 10) ∧
    decodeSwarm 0xC40A0001 = some (.xgather 10) ∧
    decodeSwarm 0xC40A0002 = some (.xscatter 10) ∧
    decodeSwarm 0xC40A0008 = some (.xrestart 10) ∧
    decodeSwarm 0xC40A0009 = some (.xdiscard 10) := by decide +kernel

theorem test_decode_msg :
    decodeSwarm 0xC92A6A00 = some (.send 9 10 13 (some 2)) ∧
    decodeSwarm 0xC92A6A03 = some (.sendRel 9 10 13 (some 2) .sys) ∧
    decodeSwarm 0xC92A6A04 = some (.activate 9 10 13 (some 2)) ∧
    decodeSwarm 0xC92A6A07 = some (.activateRel 9 10 13 (some 2) .sys) ∧
    decodeSwarm 0xC92A6A08 = some (.spawn 9 10 13 (some 2)) ∧
    decodeSwarm 0xC92A6A0B = some (.spawnRel 9 10 13 (some 2) .sys) ∧
    decodeSwarm 0xC9400010 = some (.recv 5) ∧
    decodeSwarm 0xC9400011 = some (.recvAcq 5) ∧
    decodeSwarm 0xC9400012 = some (.tryrecv 5) ∧
    decodeSwarm 0xC9400013 = some (.tryrecvAcq 5) ∧
    decodeSwarm 0xC8000014 = some (.waitmsg) ∧
    decodeSwarm 0xC8000115 = some (.msgmaskSet) ∧
    decodeSwarm 0xC8000015 = some (.msgmaskClr) ∧
    decodeSwarm 0xC8000016 = some (.mret) ∧
    decodeSwarm 0xC8000017 = some (.exit) := by decide +kernel

theorem test_decode_sys :
    decodeSwarm 0xCC000000 = some (.tret) ∧
    decodeSwarm 0xCC000001 = some (.brk) ∧
    decodeSwarm 0xCEAA6802 = some (.faultwait 21 10 13) ∧
    decodeSwarm 0xCC000010 = some (.sret) ∧
    decodeSwarm 0xCC0A0011 = some (.kill 10) ∧
    decodeSwarm 0xCC0A0012 = some (.tlbinv 10) ∧
    decodeSwarm 0xCC0A6813 = some (.grpw 10 13) ∧
    decodeSwarm 0xCC0A6814 = some (.keyld 10 13) := by decide +kernel

theorem test_decode_avc :
    decodeSwarm 0xE00A6800 = some (.avload 10 13) ∧
    decodeSwarm 0xE00A6801 = some (.avstart 10 13) ∧
    decodeSwarm 0xE00A0002 = some (.avstop 10) ∧
    decodeSwarm 0xE00A6803 = some (.avpost 10 13) ∧
    decodeSwarm 0xE2AA0004 = some (.avstat 21 10) := by decide +kernel

theorem test_decode_eng :
    decodeSwarm 0xE40A0000 = some (.coll 10) ∧
    decodeSwarm 0xE6AA0001 = some (.viewget 21 10) ∧
    decodeSwarm 0xE40A0002 = some (.mtrap 10) ∧
    decodeSwarm 0xE40A6803 = some (.admitS 10 13) := by decide +kernel

theorem test_decode_immediate_memory_branch_a :
    decodeSwarm 0x12AA8FF1 = some (.addi 21 10 0x8ff1) ∧
    decodeSwarm 0x16AA8FF1 = some (.andi 21 10 0x8ff1) ∧
    decodeSwarm 0x1AAA8FF1 = some (.ori 21 10 0x8ff1) ∧
    decodeSwarm 0x1EAA8FF1 = some (.xori 21 10 0x8ff1) ∧
    decodeSwarm 0x22AA8FF1 = some (.slti 21 10 0x8ff1) ∧
    decodeSwarm 0x26AA8FF1 = some (.sltiu 21 10 0x8ff1) ∧
    decodeSwarm 0x2AA08FF1 = some (.lui 21 0x8ff1) ∧
    decodeSwarm 0x32AA8FF1 = some (.shori 21 10 0x8ff1) ∧
    decodeSwarm 0x36A08FF1 = some (.auipc 21 0x8ff1) ∧
    decodeSwarm 0x42AA8FF1 = some (.lb 21 10 0x8ff1) ∧
    decodeSwarm 0x46AA8FF1 = some (.lbu 21 10 0x8ff1) ∧
    decodeSwarm 0x4AAA8FF1 = some (.lh 21 10 0x8ff1) ∧
    decodeSwarm 0x4EAA8FF1 = some (.lhu 21 10 0x8ff1) ∧
    decodeSwarm 0x52AA8FF1 = some (.lw 21 10 0x8ff1) ∧
    decodeSwarm 0x56AA8FF1 = some (.lwu 21 10 0x8ff1) ∧
    decodeSwarm 0x5AAA8FF1 = some (.ld 21 10 0x8ff1) := by decide +kernel

theorem test_decode_immediate_memory_branch_b :
    decodeSwarm 0x5D2A8FF1 = some (.vld 9 10 0x8ff1) ∧
    decodeSwarm 0x61AA8FF1 = some (.sb 13 10 0x8ff1) ∧
    decodeSwarm 0x65AA8FF1 = some (.sh 13 10 0x8ff1) ∧
    decodeSwarm 0x69AA8FF1 = some (.sw 13 10 0x8ff1) ∧
    decodeSwarm 0x6DAA8FF1 = some (.sd 13 10 0x8ff1) ∧
    decodeSwarm 0x716A8FF1 = some (.vst 11 10 0x8ff1) ∧
    decodeSwarm 0x81AA8FF1 = some (.beq 10 13 0x8ff1) ∧
    decodeSwarm 0x85AA8FF1 = some (.bne 10 13 0x8ff1) ∧
    decodeSwarm 0x89AA8FF1 = some (.blt 10 13 0x8ff1) ∧
    decodeSwarm 0x8DAA8FF1 = some (.bge 10 13 0x8ff1) ∧
    decodeSwarm 0x91AA8FF1 = some (.bltu 10 13 0x8ff1) ∧
    decodeSwarm 0x95AA8FF1 = some (.bgeu 10 13 0x8ff1) ∧
    decodeSwarm 0x9EB5A5A5 = some (.jal 21 0x15a5a5) ∧
    decodeSwarm 0xA2AA8FF1 = some (.jalr 21 10 0x8ff1) ∧
    decodeSwarm 0xD0008FF1 = some (.trap 0x8ff1) ∧
    decodeSwarm 0xD4008FF1 = some (.svc 0x8ff1) := by decide +kernel

theorem test_decode_immediate_memory_branch_c :
    decodeSwarm 0xDAA00123 = some (.gsr 21 0x123) ∧
    decodeSwarm 0xDC0A0123 = some (.ssr 10 0x123) := by decide +kernel

/-! ## Slot words -/

theorem test_decode_slot_seq :
    decodeSlotOp 0x00000000 = some (.nop) ∧
    decodeSlotOp 0x00080000 = some (.halt) ∧
    decodeSlotOp 0x00102AAB = some (.br 0x2AAB) ∧
    decodeSlotOp 0x001A5234 = some (.brz 9 0x1234) ∧
    decodeSlotOp 0x0021BFFF = some (.brnz 6 0x3FFF) ∧
    decodeSlotOp 0x002DA555 = some (.loop 5 2 9 0x155) ∧
    decodeSlotOp 0x003373FE = some (.lstr 3 1 12 0x3FE) ∧
    decodeSlotOp 0x003C2C00 = some (.lext 4 11) ∧
    decodeSlotOp 0x00420000 = some (.lgate 2) ∧
    decodeSlotOp 0x004EC081 = some (.waitq (some 13) 0x81) ∧
    decodeSlotOp 0x00480004 = some (.waitq none 4) ∧
    decodeSlotOp 0x00500003 = some (.waittrg 3) ∧
    decodeSlotOp 0x005E5980 = some (.popq 6 (some 5) (some 9)) ∧
    decodeSlotOp 0x005E8000 = some (.popq 6 none none) ∧
    decodeSlotOp 0x00636000 = some (.pushq 3 6) ∧
    decodeSlotOp 0x006D65A0 = some (.trgset 2 (some (5, 9, 6))) ∧
    decodeSlotOp 0x006A0000 = some (.trgset 1 none) ∧
    decodeSlotOp 0x0073C000 = some (.anvilAdmit 7 2) ∧
    decodeSlotOp 0x007D0000 = some (.anvilDone 5) ∧
    decodeSlotOp 0x00855A5A = some (.sli 10 0x5A5A) ∧
    decodeSlotOp 0x0089E280 = some (.sadd 3 12 (.inl 10)) ∧
    decodeSlotOp 0x0089E6F1 = some (.sadd 3 12 (.inr 0x2F1)) ∧
    decodeSlotOp 0x0091E280 = some (.ssub 3 12 (.inl 10)) ∧
    decodeSlotOp 0x0091E6F1 = some (.ssub 3 12 (.inr 0x2F1)) ∧
    decodeSlotOp 0x0099E280 = some (.sand 3 12 (.inl 10)) ∧
    decodeSlotOp 0x0099E6F1 = some (.sand 3 12 (.inr 0x2F1)) ∧
    decodeSlotOp 0x00A1E02D = some (.sshl 3 12 0x2D) ∧
    decodeSlotOp 0x00AB0000 = some (.fpcr 6) ∧
    decodeSlotOp 0x00B04800 = some (.fpcw 9) := by decide

theorem test_decode_slot_ldt :
    decodeSlotOp 0x0806B200 = some (.ldt true 2 5 9) ∧
    decodeSlotOp 0x080BD500 = some (.ldth false 3 6 10 1) ∧
    decodeSlotOp 0x08146C00 = some (.ldts true 3 6) ∧
    decodeSlotOp 0x081AA700 = some (.ldw 5 2 7) := by decide

theorem test_decode_slot_mma :
    decodeSlotOp 0x1003796C = some (.mma ⟨1, 2, 3, true, 9, 1, 2, true, true⟩) ∧
    decodeSlotOp 0x100EC6C6 = some (.mmah ⟨3, 1, 2, false, 6, 3, 0, false, true⟩ 1 0) := by decide

theorem test_decode_slot_vga :
    decodeSlotOp 0x18055C80 = some (.vga 2 5 3 9) ∧
    decodeSlotOp 0x18080000 = some (.vgwait) ∧
    decodeSlotOp 0x1814DC00 = some (.scan 9 5 6) ∧
    decodeSlotOp 0x18180000 = some (.scanwait) := by decide

theorem test_decode_slot_vec :
    decodeSlotOp 0x2004B600 = some (.wadd 9 6 12 false) ∧
    decodeSlotOp 0x200CB640 = some (.wsub 9 6 12 true) ∧
    decodeSlotOp 0x2014B600 = some (.wmul 9 6 12 false) ∧
    decodeSlotOp 0x201CB640 = some (.wfma 9 6 12 true) ∧
    decodeSlotOp 0x2024B600 = some (.wmax 9 6 12 false) ∧
    decodeSlotOp 0x202CB640 = some (.wmin 9 6 12 true) ∧
    decodeSlotOp 0x2034B360 = some (.wcvt 9 6 13 2) ∧
    decodeSlotOp 0x2044B000 = some (.wexp 9 6) ∧
    decodeSlotOp 0x204CB000 = some (.wlog 9 6) ∧
    decodeSlotOp 0x2054B000 = some (.wrcp 9 6) ∧
    decodeSlotOp 0x205CB000 = some (.wrsq 9 6) ∧
    decodeSlotOp 0x2064B000 = some (.wtanh 9 6) ∧
    decodeSlotOp 0x206CB000 = some (.wsig 9 6) := by decide

theorem test_decode_slot_red :
    decodeSlotOp 0x28053A80 = some (.red 2 9 true 21) ∧
    decodeSlotOp 0x280AC500 = some (.redmax 1 6 false 10) ∧
    decodeSlotOp 0x28170000 = some (.redclr 3 true) := by decide

theorem test_decode_slot_stc :
    decodeSlotOp 0x300565A4 = some (.stc 2 5 9 13 0 true) ∧
    decodeSlotOp 0x300CD605 = some (.stcw 9 5 6 0 2 true) ∧
    decodeSlotOp 0x30159800 = some (.post 5 (some 9)) ∧
    decodeSlotOp 0x30150000 = some (.post 5 none) := by decide

theorem test_decode_slot_mov :
    decodeSlotOp 0x3804D000 = some (.mov 9 2 true) ∧
    decodeSlotOp 0x380E9680 = some (.mova true 2 9 6 true) ∧
    decodeSlotOp 0x38166800 = some (.movs true 9 5) ∧
    decodeSlotOp 0x381C0000 = some (.zacc 2) := by decide

/-- A slot with STOP set and gate 5, and one of gate 2. -/
theorem test_decode_slot_head :
    decodeSlot 0xA504B600 = some ⟨true, 4, 5, .wadd 9 6 12 false⟩ ∧ decodeSlot 0x3A1C0000 = some ⟨false, 7, 2, .zacc 2⟩ := by decide

/-- Reserved values: FN 0x17 of SEQ is reserved, bits of NOP, WAITQ with mask 0, level 6, queue 9, low bits of TRGSET, FN 4 of LDT, HB in MMA, mode 3 of WCVT, FN 7 of VEC, IM of a special function, FMT 16, TK 3, FN 3 of STC, FN 4 of MOV, unit 8. -/
theorem test_slot_reserved :
    ∀ w ∈ [0x00B80000, 0x00000001, 0x00480000, 0x002E0000, 0x00589000, 0x00680001, 0x08200000, 0x10000001, 0x20300030, 0x20380000, 0x20400040, 0x30000200, 0x30000018, 0x30180000, 0x38200000, 0x40000000], decodeSlotOp w = none := by decide

/-! ## Single steps -/

open Machine

/-- The next state of one instruction, if there is one. -/
def after (i : Instr) (s : State) : Option State :=
  match exec i s with
  | .next t => some t
  | _ => none

/-- Slot 0 of core 0 active with x1 and x2. -/
def withRegs (a b : Nat) : State :=
  modCtx (placeWord State.reset 0) 0 fun c => (c.setX 1 (BitVec.ofNat 64 a)).setX 2 (BitVec.ofNat 64 b)

/-- x3 afterwards. -/
def x3 (i : Instr) (a b : Nat) : Option Nat := (after i (withRegs a b)).map fun t => (rx t 3).toNat

theorem test_add_wraps : x3 (.add 3 1 2 false) (2 ^ 64 - 1) 2 = some 1 := by decide +kernel
theorem test_addw_sign_extends : x3 (.add 3 1 2 true) (2 ^ 31 - 1) 1 = some (2 ^ 64 - 2 ^ 31) := by decide +kernel
theorem test_sub_borrows : x3 (.sub 3 1 2 false) 1 2 = some (2 ^ 64 - 1) := by decide +kernel
theorem test_sra_of_negative : x3 (.sra 3 1 2 false) (2 ^ 63) 63 = some (2 ^ 64 - 1) := by decide +kernel
theorem test_sll_amount_mod_64 : x3 (.sll 3 1 2 false) 3 65 = some 6 := by decide +kernel
theorem test_div_truncates : x3 (.div 3 1 2 false) (2 ^ 64 - 7) 2 = some (2 ^ 64 - 3) := by decide +kernel
theorem test_rem_sign_of_dividend : x3 (.rem 3 1 2 false) (2 ^ 64 - 7) 2 = some (2 ^ 64 - 1) := by decide +kernel
theorem test_div_int_min : x3 (.div 3 1 2 false) (2 ^ 63) (2 ^ 64 - 1) = some (2 ^ 63) := by decide +kernel
theorem test_mulh_negative : x3 (.mulh 3 1 2 false) (2 ^ 64 - 1) 1 = some (2 ^ 64 - 1) := by decide +kernel
theorem test_clz_of_zero : x3 (.clz 3 1 false) 0 0 = some 64 := by decide +kernel
theorem test_bswap_word : x3 (.bswap 3 1 true) 0x01020384 0 = some 0xFFFFFFFF84030201 := by decide +kernel
theorem test_ext_cut_at_63 : x3 (.extu 3 1 8 60) (2 ^ 64 - 1) 0 = some 15 := by decide +kernel
theorem test_exts_sign : x3 (.exts 3 1 8 4) 0x800 0 = some (2 ^ 64 - 128) := by decide +kernel
theorem test_lui_negative : x3 (.lui 3 0x8000) 0 0 = some (2 ^ 64 - 2 ^ 31) := by decide +kernel
theorem test_x0_discards : (after (.addi 0 0 5) (withRegs 0 0)).map (fun t => (rx t 0).toNat) = some 0 := by decide +kernel
/-- 1.5 + 0.5 = 2 in f32; 1 + 2⁻²⁴ ties to even and is inexact. -/
theorem test_fadd_exact : x3 (.fadd .f32 3 1 2) 0x3FC00000 0x3F000000 = some 0x40000000 := by decide +kernel
theorem test_fadd_ties_even : x3 (.fadd .f32 3 1 2) 0x3F800000 0x33800000 = some 0x3F800000 := by decide +kernel
/-- 1/3 in f16 is 0x3555. -/
theorem test_fdiv_rounds : x3 (.fdiv .f16 3 1 2) 0x3C00 0x4200 = some 0x3555 := by decide +kernel
theorem test_jal_links : (after (.jal 3 2) (withRegs 0 0)).map (fun t => ((rx t 3).toNat + 4, (cur t).pc.toNat)) =
    (after (.jal 3 2) (withRegs 0 0)).map (fun t => ((cur t).pc.toNat, (cur t).pc.toNat)) := by decide +kernel

end Sys2Proof.Tests
end

