-- ==== Sys2Proof/Tests/Witness.lean ====
section
/-!
SUPPORT. Witnesses: for the clauses of each statement, states and operands that meet its hypotheses together, at boundary
values where a range has them.
-/

namespace Sys2Proof.Tests

set_option Elab.async false

open Sys2Proof.Machine Sys2Proof.Safety

/-! ## Small states -/

/-- The device READY, address space 1 mapped, slot 0 active at user level with a handler. -/
def base : State := modCtx { placeWord State.reset 0 with turns := [] } 0 fun c => { c with tvec := 0x80 }
/-- The context of slot 0 changed. -/
def withCtx (f : Ctx → Ctx) : State := modCtx base 0 f
/-- x1 and x2 of slot 0. -/
def withX (a b : Nat) : State := withCtx fun c => (c.setX 1 (wd a)).setX 2 (wd b)
/-- A cell in place 3 of cluster 0. -/
def withCell (f : Cell → Cell) (s : State) : State := modCell s 0 3 f
/-- An OPEN cell of one row of 16 bytes, and a SEALED one. -/
def opened (c : Cell) : Cell := { c with st := .opn, pitch := 1, valid := 1 }
def shut (c : Cell) : Cell := { c with st := .sealed, pitch := 1, valid := 1 }
/-- A comb address of the own cluster. -/
def combVa (o : Nat) : Nat := 0xFFF000000000 + o
/-- The handle of the cell in place 3. -/
def hand : Nat := handleOf 0 3 0

/-- HBM line 0x100001, held in the L2 under the key of slot 0, and an access of 8 bytes to it. -/
def aHome : Home := { wts := 3, rts := 7, cls := 0, prio := 0, key := 0, dirty := false, used := 0 }
def hbmPart (n : Nat) : Part := { pa := 0x4000040, n := n, at_ := 0, key := 0, cls := 0, sys := false }
def combPart (o n : Nat) : Part := { pa := combKey 0 o, n := n, at_ := 0, key := 0, cls := 0, sys := false }
def held (s : State) : State := { s with home := [(0x100001, aHome)] }
/-- A load of slot 0 whose request has left, with nothing before it in the buffer. -/
def aLoad : LoadReq := { parts := [hbmPart 8], got := [none], dst := .x 4 8 false, va := 64, since := 0, gtc := 0, ahead := 0,
                         snap := (ctxOf base 0).snap, sent := true, num := 0 }

/-- A remote write of the context of slot 0 over port 2 is unacknowledged, the port in a state. -/
def awaits (st : PortSt) (s : State) : State :=
  { modCtx s 0 fun c => { c with unacked := 1 } with
    tags := [(1, { kind := .rsd, issuer := nameOf (cur s), dest := 7, port := 2, cls := 0, addr := 0, seq := 0 })],
    ports := [(2, { (default : Port) with st := st })] }

theorem noSpill (s : State) (n : Nat) (h : s.clusters = []) : ∀ k, ∀ e ∈ (clOf s k).spill, e.dest ≠ n := by
  intro k e he
  rw [clOf, h] at he
  exact absurd he (List.not_mem_nil)

theorem noReqs (s : State) (h : s.dies = []) : ∀ j, (dieOf s j).reqs = [] := by
  intro j; rw [dieOf, h]; rfl

/-! ## Integer, control and memory instructions -/

theorem witness_Divisions : lo false (rx (withX 7 1) 2) ≠ 0 ∧ lo true (rx (withX 7 (2 ^ 32 - 1)) 2) ≠ 0 ∧
    CanTrap (withX 7 0) ∧ lo false (rx (withX 7 0) 2) = 0 ∧ CanTrap (withX 7 (2 ^ 32)) ∧
    lo true (rx (withX 7 (2 ^ 32)) 2) = 0 := by
  simp only [CanTrap]; decide +kernel

/-- Widths 0 and 64. -/
theorem witness_ImmediateAndBitFieldForms : (0 : Nat) ≤ 64 ∧ (64 : Nat) ≤ 64 := by decide

theorem witness_VectorArithmetic : (ETy.ui32 = .ui32 ∨ ETy.ui32 = .i32) ∧ (ETy.i64 = .ui64 ∨ ETy.i64 = .i64) := by decide

/-- A reduction with every element active, with none, and of floats. -/
theorem witness_VectorMoveForms : ETy.isInt .i8 = true ∧ (List.range 16).filter (activeE (cur base) none 1) ≠ [] ∧
    ETy.isInt .ui64 = true ∧ (List.range 2).filter (activeE (cur base) (some 1) 8) = [] ∧ ETy.isInt .f32 = false := by
  decide +kernel

theorem witness_ControlTransfer : (BitVec.ofInt 64 ((rx (withX 0x40 0) 1).toNat + sgn 16 0xFFFC)).toNat % 4 = 0 ∧
    (BitVec.ofInt 64 ((rx (withX 0x40 0) 1).toNat + sgn 16 0xFFFF)).toNat % 4 ≠ 0 ∧ CanTrap (withX 0x40 0) := by
  simp only [CanTrap]; decide +kernel

/-- The last bytes of comb below the spill area, for each width. -/
theorem witness_Loads_comb : ∀ n ∈ [1, 2, 4, 8, 16],
    let s := withX (combVa (4128768 - n)) 0; let e := ea s 1 0
    e / 2 ^ 44 = 0xF ∧ combAddr (ownCl (cur s)) e = .ok (0, 4128768 - n) ∧ 4128768 - n + n ≤ spillBase s 0 ∧ (cur s).sb = [] ∧
    (∀ w ∈ wordsOf (4128768 - n) n, w ∉ (clOf s 0).poison ∧ w ∉ (clOf s 0).latent ∧ w ∉ (clOf s 0).soft ∧
      boundTo s 0 (8 * w) = none) ∧
    (rx s 1).toNat % n = 0 := by decide +kernel

/-- The hypotheses of LoadsAt, and whether the homes are asked. -/
def loadsMeet (s : State) (va n : Nat) (force asks : Bool) : Bool :=
  match partsOf s s.cx va n .read with
  | .error _ => false
  | .ok px =>
    let ps := px.map Prod.fst
    let u := fillParts s s.cx va px
    let t := detectParts u (bankParts u s.cx ps)
    let r := loadReq t ps (ps.map fun p => partNow t s.cx p force) (.x 3 8 false) va force
    (combLoadsOk s va ps).isOk && !sbWaits u s.cx ps && (bankSound t (bankParts u s.cx ps)).isOk && (r.missing.isEmpty == !asks)

/-- A load that a bank serves, with and without older loads outstanding; one from HBM over two lines whose request leaves;
LDA.F of bytes that all stand in the store buffer, which asks the home. -/
theorem witness_Loads :
    (loadsMeet (withX (combVa 8) 0) (combVa 8) 8 false false = true ∧ (cur (withX (combVa 8) 0)).loads = []) ∧
    (loadsMeet (withCtx fun c => { c with loads := [aLoad] }) (combVa 8) 8 false false = true ∧
      (cur (withCtx fun c => { c with loads := [aLoad] })).loads ≠ []) ∧
    loadsMeet (withX 0x4000003C 0) 0x4000003C 8 false true = true ∧
    (let ps := ((partsOf base 0 0x40000040 8 .read).map fun px => px.map Prod.fst).toOption.getD []
     ∀ force, loadsMeet (withCtx fun c => { c with sb := [{ kind := .store, parts := ps, bytes := List.replicate 8 0, pts := 0, ord := false, va := 0x40000040 }] })
       0x40000040 8 force force = true) ∧
    CanTrap (withX 0x40000004 0) ∧ (rx (withX 0x40000004 0) 1).toNat % 8 ≠ 0 := by
  simp only [CanTrap]; decide +kernel

/-- Seven entries of eight stand in the buffer; a release with nothing to wait for; a misaligned STL. -/
theorem witness_StoresAndFences_stores :
    let e : SbEntry := { kind := .store, parts := [], bytes := [], pts := 0, ord := false, va := 0 }
    let s := modCtx (withX 0x40000040 5) 0 fun c => { c with sb := List.replicate 7 e }
    let t := withX 0x40000040 5
    ((partsOf s 0 0x40000040 8 .write).map fun px => px.length).toOption = some 1 ∧ (cur s).sb.length < 8 ∧
    ((partsOf s 0 0x40000040 8 .write).bind fun px => combStoresOk s 0x40000040 (px.map Prod.fst)) = .ok () ∧
    releaseStep t .sys = .done ∧ releaseStep t .clu = .done ∧ (0x40000040 : Nat) % 8 = 0 ∧ CanTrap t ∧ (0x40000042 : Nat) % 4 ≠ 0 := by
  simp only [CanTrap]; decide +kernel

/-- No part needs a walk: a part in comb, and one whose page the core's TLB holds. -/
theorem witness_StoresAndFences_pages :
    (let s := withX (combVa 8) 5
     ∃ px, partsOf s 0 (combVa 8) 8 .write = .ok px ∧ ∀ p ∈ px, p.2 = none) ∧
    (let va := 0x40000040; let s := withX va 5
     (match partsOf s 0 va 8 .write with
      | .ok [(p, some x)] =>
        let t := modCore s 0 fun k => { k with tlb := [x.entry 1 (va + p.at_)] }
        (tlbHit (tlbsOf t 0) 1 (va + p.at_)).isSome &&
          (match partsOf t 0 va 8 .write with | .ok [(q, some _)] => q == p | _ => false)
      | _ => false) = true) := by
  refine ⟨⟨_, rfl, ?_⟩, ?_⟩ <;> decide +kernel

theorem witness_StoresAndFences_fences :
    let e : SbEntry := { kind := .store, parts := [], bytes := [], pts := 0, ord := false, va := 0 }
    let s := modCtx base 0 fun c => { c with sb := [e] }
    let t := modCtx base 0 fun c => { c with lost := [{ dev := 5, count := 1 }] }
    releaseStep base .dev = .done ∧ sbCovered (cur s) .sys ≠ [] ∧ (cur t).sb = [] ∧ (cur t).lost ≠ [] ∧ CanTrap t ∧
    (∀ st ∈ [PortSt.up, .retrain], let s := awaits st base
      (cur s).sb = [] ∧ (cur s).lost = [] ∧ (cur s).unacked ≠ 0 ∧
        ((∃ t ∈ s.tags, t.2.issuer = nameOf (cur s) ∧ (portOf s t.2.port).st = .retrain) ↔ st = .retrain)) := by
  simp only [CanTrap]; decide +kernel

/-- The word FULL, and EMPTY. -/
theorem witness_FullEmpty : ∀ em ∈ [[], [513]],
    let s := modCl (withX (combVa 4104) 9) 0 fun k => { k with empty := em }
    (∀ op ∈ [FeOp.ldfe, .ldff, .stef, .stff], feCheck s (rx s 1).toNat op = .ok (0, 4104)) ∧ (cur s).sb = [] ∧ 513 ∉ (clOf s 0).poison ∧ 513 ∉ (clOf s 0).latent ∧ 513 ∉ (clOf s 0).soft ∧
    (∀ q ∈ (clOf s 0).fe, q.word ≠ 513) ∧ (∀ g ∈ (clOf s 0).defer, g.off / 8 ≠ 513 ∧ (bankOf g.off = bankOf (8 * 513) → g.entered = true)) ∧
    (513 ∉ (clOf s 0).empty ↔ em = []) := by decide +kernel

/-- In HBM and in comb. -/
theorem witness_AtomicsEnter : ∀ va ∈ [0x40000040, combVa 64],
    let s := withX va 5
    ((partsOf s 0 va 8 .amo).map fun px => px.length).toOption = some 1 ∧
    ((partsOf s 0 va 8 .amo).bind fun px => match px with
      | [(p, _)] => (hostAmoOk s .add va p).bind fun _ => combAmoOk s va p
      | _ => .error default) = .ok () ∧ (cur s).sb.length < 8 ∧ va % 8 = 0 ∧ (va + 4) % 8 ≠ 0 ∧ CanTrap s := by
  simp only [CanTrap]; decide +kernel

/-- To the own device and to device 7 over port 2, its queue empty; to the last byte of comb row 6 that an access may name. -/
theorem witness_RemoteAccesses :
    let s := { withX (7 * 2 ^ 48 + 64) 1 with devid := 1, routes := fset base.routes 7 0x8002, ports := [(2, { (default : Port) with st := .up })] }
    remoteCheck { withX (2 ^ 48 + 64) 1 with devid := 1 } (2 ^ 48 + 64) 8 = .ok (1, 64, .here) ∧
    remoteCheck s (7 * 2 ^ 48 + 64) 16 = .ok (7, 64, .port 2) ∧ (cur s).sb = [] ∧ (cur s).unacked < 32 ∧ (31 : Nat) < 32 ∧
    Way.here.full s = false ∧ (Way.port 2).full s = false ∧
    (let f := 15 * 2 ^ 44 + 6 * 2 ^ 39 + 2 ^ 22 - 16
     f < 2 ^ 60 ∧ f % 16 = 0 ∧ f / 2 ^ 44 % 16 = 15 ∧ f / 2 ^ 36 % 256 ≠ 0xFF ∧ 6 ≤ f / 2 ^ 39 % 8 ∧ CanTrap (withX f 1)) := by
  simp only [CanTrap]; decide +kernel

/-! ## Cells, circular buffers and barrier slots -/

/-- The first cell, the last of 1,024, and a SEALED cell reopened with a geometry of its own. -/
theorem witness_CellOpen :
    (let s := withX (2 ^ 25) 0; (2 ^ 25 : Nat) < 2 ^ 42 ∧ ownCl (cur s) = 0 ∧ geomOk s 0 (geomOf (2 ^ 25)) none 0 = .ok () ∧
      (cellOf s 0 0).st = .free ∧ ∀ j < 0, (cellOf s 0 j).st ≠ .free) ∧
    (let s := withCell (fun c => { shut c with base := 7 }) (withX (2 ^ 25) hand)
     handleReg (rx s 2) = .ok (0, 3) ∧ (cellOf s 0 3).cgen = handleGen hand ∧ (cellOf s 0 3).st = .sealed ∧
      geomOk s 0 (geomOf (2 ^ 25)) (some 3) hand = .ok () ∧ (cellOf s 0 3).refcnt = 0) ∧
    0 < (cellOf (withCell (fun c => { shut c with refcnt := 1 }) (withX 0 hand)) 0 3).refcnt := by decide +kernel

/-- The first and the last byte of a cell, one past it, and a misaligned one. -/
theorem witness_CellPuts :
    (∀ off ∈ [0, 8], cellPtr (wd (hand + off * 2 ^ 32)) = .ok (0, 3, off)) ∧
    (let s := withCell opened (withX hand 1)
     let c := cellOf s 0 3
     c.cgen = handleGen hand ∧ c.st = .opn ∧ (cur s).sb.length < 8 ∧ 8 % 8 = 0 ∧ 8 < (c.rows + 1) * c.pitch * 16 ∧
      (c.rows + 1) * c.pitch * 16 ≤ 16 ∧ 4 % 8 ≠ 0) ∧
    (CanTrap (withCell shut (withX hand 1)) ∧ (cellOf (withCell shut (withX hand 1)) 0 3).st ≠ .opn) ∧
    (∀ b ∈ [8063, 8064], let s := modCl (withCell (fun c => { opened c with base := b }) (withX hand 1)) 0 fun k => { k with spillSize := 4 }
     (spillBase s 0 < b * 512 + 0 + 8 ↔ b = 8064) ∧ b * 512 + 0 + 8 ≤ 2 ^ 22) ∧
    (let x := wd (hand + 2 ^ 48 * 1 + 16 * 2 ^ 32); let s := { withX x.toNat 1 with devid := 1 }
     x.toNat < 2 ^ 60 ∧ fld x.toNat 0 8 = 0 ∧ clusterOk (fld x.toNat 24 8) = true ∧ wayTo s 1 x.toNat = .ok () ∧
      fld x.toNat 32 16 = 16 ∧ portFor s 1 = .ok .here ∧ Way.here.full s = false ∧ (cur s).unacked < 32) ∧
    (fld (hand + 1) 0 8 ≠ 0 ∧ clusterOk (fld (6 * 2 ^ 27) 24 8) = false) := by
  simp only [CanTrap]; decide +kernel

/-- A queue with room for one entry, and a full one. -/
theorem witness_CellSeals :
    let e : TqEntry := { handle := 0, flags := 0, resv := none, num := 0 }
    let q (n : Nat) (s : State) : State := modTq s 0 5 fun t => { t with es := List.replicate n e }
    let s := withCell opened (withX hand (4096 + 5)); let c := cellOf s 0 3
    handleReg (rx s 1) = .ok (0, 3) ∧ c.cgen = handleGen hand ∧ c.st = .opn ∧ c.refcnt + 1 ≤ 4095 ∧ releaseStep s .dev = .done ∧
    c.counted = 0 ∧ c.apost = none ∧ targetOf 5 = .ok (0, 5) ∧ tqRoom (q 63 s) 0 5 = 1 ∧ tqRoom (q 64 s) 0 5 = 0 ∧
    combOperand 0 (combVa 32) 32 = .ok (0, 32) ∧ 32 + 32 ≤ spillBase s 0 ∧ (cur s).sb = [] ∧ sealTargets s 0 32 = .ok [] ∧
    (∀ st ∈ [PortSt.up, .retrain], let s := awaits st (withCell opened (withX hand 0)); let c := cellOf s 0 3
      c.cgen = handleGen hand ∧ c.st = .opn ∧ c.refcnt + 1 ≤ 4095 ∧ (cur s).sb = [] ∧ (cur s).lost = [] ∧ (cur s).unacked ≠ 0 ∧
        ((∃ t ∈ s.tags, t.2.issuer = nameOf (cur s) ∧ (portOf s t.2.port).st = .retrain) ↔ st = .retrain)) := by
  decide +kernel

theorem witness_CellReadsAndEnds_reads :
    let v := 2 ^ 32 * 5 + 2 ^ 44 * 2
    (handleReg (wd hand) = .ok (0, 3) ∧ v < 2 ^ 46 ∧ fld v 44 2 ≠ 3 ∧ clusterOk (fld v 36 8) = true) ∧
    (cellOf (withCell opened base) 0 3).st = .opn ∧ (3 : Nat) ≤ 3 ∧
    (let s := withCell shut (withX (hand + 8 * 2 ^ 32) 0); let c := cellOf s 0 3
     cellPtr (rx s 1) = .ok (0, 3, 8) ∧ 8 % 8 = 0 ∧ 8 < (c.rows + 1) * c.pitch * 16 ∧
      c.cgen = handleGen ((hand + 8 * 2 ^ 32) % 2 ^ 32) ∧ (c.st = .sealed ∨ c.st = .retiring) ∧ c.valid.getLsbD (8 / 16) = true ∧
      c.base * 512 + 8 + 8 ≤ spillBase s 0 ∧ 1 ∉ (clOf s 0).poison ∧ 1 ∉ (clOf s 0).latent ∧ 1 ∉ (clOf s 0).soft) := by
  decide +kernel

/-- Every state of a cell, with no reference, one and two. -/
theorem witness_CellReadsAndEnds_ends :
    handleReg (wd hand) = .ok (0, 3) ∧
    (cellOf (withCell opened base) 0 3).st = .opn ∧
    (let s := withCell shut base; (cellOf s 0 3).st = .sealed ∧ (cellOf s 0 3).refcnt = 0 ∧ (cellOf s 0 3).cgen = handleGen hand) ∧
    (let s := withCell (fun c => { shut c with refcnt := 1 }) base
     (cellOf s 0 3).st = .sealed ∧ (cellOf s 0 3).refcnt = 1 ∧ waiting s (fun q => q == .copen 0 3 || q == .cbfree 0 3) = [] ∧
      let t := modCtx s 5 fun c => { c with wait := .cbfree 0 3, active := true, priv := .u, tvec := 0x80 }
      (5 : Nat) ≠ t.cx ∧ waiting t (fun q => q == .copen 0 3 || q == .cbfree 0 3) = [5] ∧ (ctxOf t 5).wait = .cbfree 0 3 ∧
        (ctxOf t 5).active = true ∧ (ctxOf t 5).priv = .u ∧ (ctxOf t 5).tl = 0 ∧ (ctxOf t 5).tvec ≠ 0) ∧
    (let s := withCell (fun c => { shut c with refcnt := 0 }) (withX hand 0); (cellOf s 0 3).refcnt = 0 ∧ CanTrap s) ∧
    (let s := withCell (fun c => { opened c with refcnt := 1 }) (withX hand 0); (cellOf s 0 3).st = .opn ∧ CanTrap s) ∧
    (let s := withCell (fun c => { shut c with st := .retiring, refcnt := 2 }) base
     (cellOf s 0 3).st = .retiring ∧ 1 < (cellOf s 0 3).refcnt) ∧
    (let s := withCell (fun c => { shut c with st := .retiring, refcnt := 1 }) base
     (cellOf s 0 3).refcnt = 1 ∧ waiting s (· == .cretire 0 3) = []) ∧
    (let s := withX hand 0; (cellOf s 0 3).st = .free ∧ CanTrap s) := by
  simp only [CanTrap]; decide +kernel

/-- A buffer of one slot, FILLED, TAKEN and FREE. -/
theorem witness_CircularBuffersAndBarriers_buffers :
    let v := 1 + 1024 * 2 ^ 32
    let h := handleOf 0 3 0
    let s := withCell (fun c => { opened c with base := 7 }) (combPutNat (withX (combVa 128) v) 0 1024 4 h)
    let mk (slot : Nat) (c : Cell → Cell) : State :=
      modCl (combPutNat (withCell c (combPutNat (withX (combVa 128) h) 0 1024 4 h)) 0 128 128
        (1 + 2 ^ 31 + 2 ^ 64 + 1024 * 2 ^ 128 + slot * 2 ^ 512)) 0 fun q => { q with cbs := [128] }
    (combOperand 0 (combVa 128) 128 = .ok (0, 128) ∧ fld v 10 22 = 0 ∧ v < 2 ^ 54 ∧ v % 512 = 1 ∧ fld v 32 22 % 4 = 0 ∧
      128 + 128 ≤ spillBase s 0 ∧ liveAt s 0 128 128 = false ∧ (cur s).sb = [] ∧ boundIn s 0 128 128 = none ∧
      boundIn s 0 1024 4 = none ∧ combNat s 0 1024 4 = h ∧ h % 256 = 0 ∧ handleCl h = 0 ∧
      (cellOf s 0 (handleIx h)).cgen = handleGen h ∧ (cellOf s 0 (handleIx h)).st = .opn) ∧
    (cbNamed (mk 2 shut) (combVa 128) = .ok (0, 128) ∧ cbSlot (cbGet (mk 2 shut) 0 128) 0 = 2) ∧
    cbSlot (cbGet (mk 0 shut) 0 128) 0 ≠ 2 ∧
    (let t := mk 3 shut; handleReg (rx t 2) = .ok (0, 3) ∧ 0 < cbN (cbGet t 0 128) ∧ cbHandle t 0 (cbGet t 0 128) 0 = h ∧
      cbSlot (cbGet t 0 128) 0 = 3 ∧ (clOf t 0).te = [] ∧ (cellOf t 0 3).st = .sealed ∧ (cellOf t 0 3).refcnt = 0) ∧
    0 < (cellOf (mk 3 fun c => { shut c with refcnt := 1 }) 0 3).refcnt ∧ (cellOf (mk 3 opened) 0 3).st = .opn := by
  decide +kernel

/-- A slot made with EXPECT 1 and 24,576; one LIVE with an arrival still to come; a descriptor of a circular buffer. -/
theorem witness_CircularBuffersAndBarriers_slots :
    (∀ v ∈ [1, 24576, 24576 + 2 ^ 24], let s := withX (combVa 64) v
      barNamed s (combVa 64) = .ok (0, 64) ∧ v < 2 ^ 25 ∧ fld v 15 1 = 0 ∧ 1 ≤ v % 2 ^ 15 ∧ v % 2 ^ 15 ≤ 24576 ∧
        liveAt s 0 64 16 = false ∧ (cur s).sb = []) ∧
    (let s := modCl (combPutNat (withX (combVa 64) 1) 0 64 16 (2 ^ 63 + 2 ^ 46)) 0 fun q => { q with bars := [64] }
     64 ∈ (clOf s 0).bars ∧ barArrived (barGet s 0 64) ≠ barExpect (barGet s 0 64) ∧ releaseStep s .dev = .done ∧
      barOvf (barGet s 0 64) = false ∧ barPhase (barGet s 0 64) ≠ 1 % 2 ^ 16 ∧ barPhase (barGet s 0 64) = 0 % 2 ^ 16 ∧
      waiting s (· == .bwait 0 64) = []) ∧
    (let s := modCl base 0 fun q => { q with cbs := [128] }
     128 ∉ (clOf s 0).bars ∧ 128 ∈ (clOf s 0).cbs ∧ waiting s (· == .cbpop 0 128) = []) ∧
    64 ∉ (clOf base 0).bars ∧ 64 ∉ (clOf base 0).cbs ∧ CanTrap base := by
  simp only [CanTrap]; decide +kernel

/-! ## Transfers, messages, traps, control of others -/

/-- A transfer descriptor at comb 64: from HBM to comb, `len` bytes. -/
def desc (len ctrl : Nat) : Nat := ctrl + 0x40000000 * 2 ^ 64 + combVa 4096 * 2 ^ 128 % 2 ^ 192 + len * 2 ^ 192

/-- A command as its TE holds it. -/
def aCmd (cls : Nat) : TeCmd :=
  { id := 0, kind := 0, issuer := nameOf (cur base), asid := 1, priv := .u, cls := cls, scope := 0, acq := false, rel := false, noalloc := false,
    prio := 0, compl := 0, src := 0, dst := 0, dstCell := false, dstPeer := none, handle := 0, len := 64, rows := 0,
    index := 0, stride := 0, packpitch := 0, complAddr := 0, tag := 0, clock := 0, wmax := 0, running := false, done := 0, written := 0,
    slot := none, charged := 0, grant := none, waitGrant := false, unacked := 0, moved := false, fail := 0, seq := 0 }

def okAnd {α : Type} (r : Res α) (p : α → Bool) : Bool := match r with | .ok m => p m | .error _ => false

/-- One byte, 1 MiB, and one byte more under a grant; a gather of one row; a full queue; a restart token. -/
theorem witness_TransferCommands :
    (∀ len ∈ [1, 2 ^ 20], let s := combPutNat (withX (combVa 64) 0) 0 64 64 (desc len 0)
      (cur s).sb = [] ∧ ((clOf s 0).te.filter fun c => c.cls == 0 && !c.running).length < 32 ∧
      okAnd (teCheck s 0 (rx s 1).toNat) (fun m => !teAcqWaits (cur s) m && m.amount == len) = true) ∧
    (let s := combPutNat (withCtx fun c => { c.setX 1 (wd (combVa 64)) with grant := some ⟨4097, 100⟩ }) 0 64 64 (desc (2 ^ 20 + 1) 0)
     okAnd (teCheck s 0 (rx s 1).toNat) (fun m => !teAcqWaits (cur s) m && m.firstEu ≤ 4097) = true) ∧
    (let s := combPutNat (withX (combVa 64) 0) 0 64 64 (desc (8 + 2 ^ 32) 0)
     okAnd (teCheck s 1 (rx s 1).toNat) (fun m => !teAcqWaits (cur s) m) = true ∧
     okAnd (teCheck s 2 (rx s 1).toNat) (fun m => !teAcqWaits (cur s) m) = true) ∧
    (let s := modCl (combPutNat (withX (combVa 64) 0) 0 64 64 (desc 1 0)) 0 fun k => { k with te := List.replicate 32 (aCmd 0) }
     ¬((clOf s 0).te.filter fun c => c.cls == 0 && !c.running).length < 32 ∧
     okAnd (teCheck s 0 (rx s 1).toNat) (fun m => !teAcqWaits (cur s) m && m.cls == 0) = true) ∧
    (let s := modCl (withX 5 0) 0 fun k => { k with restarts := [(5, ⟨some (aCmd 0), 0, false⟩)] }
     teToken s 0 (rx s 1) = .ok (5, aCmd 0) ∧ teAcqWaits (cur s) (aCmd 0) = false) := by decide +kernel

/-- A group of which slot 1 of core 0 is an idle member. -/
def grouped (cl : Nat) : State :=
  { modCtx (withX (2 ^ 62 + 3) 0) 1 (fun c => { c with grpValid := 1, grp := c.grp.set 0 3 }) with
    groups := [(3, { valid := true, asid := 1, entrypc := 0x80, bcluster := cl })] }

/-- A send of each kind, with nothing to release; names and groups to activate, the pc named and the group's. -/
theorem witness_SendsAndLaunches :
    (relDone base none ∧ releaseStep base .sys = .done ∧ sendDest base 0 = .ok (0, none)) ∧
    (let s := { base with devid := 1, routes := fset base.routes 7 0x8002, ports := [(2, { (default : Port) with st := .up })] }
     let v := 2 ^ 40 + 7 * 2 ^ 28 + 5
     sendDest s v = .ok (v % 2 ^ 28, some 7) ∧ portFor s 7 = .ok (.port 2) ∧ (Way.port 2).full s = false) ∧
    (wantCls base none = 0 ∧ tooSoon base = false ∧
      tooSoon { withCtx (fun c => { c with lastC0 := some 1000 }) with gtc := 1099 } = true ∧
      tooSoon { withCtx (fun c => { c with lastC0 := some 1000 }) with gtc := 1100 } = false) ∧
    (∀ v ∈ [0, 5 + 2 ^ 60], activateCheck base v 0x40 = .ok () ∧ v / 2 ^ 62 = 0) ∧
    (let s := grouped 0
     let u := policedState s none none
     let r (tsv : Bool) : LRec :=
      { form := .group, cls := 0, asid := 1, pc := 0, a0 := 0, a1 := 0, deadline := none,
        dltrap := false, gmatch := false, target := 3, tag := 0, ts := 0, tsv := tsv,
        src := .ctx (nameOf (cur s)) 0, hdr := recHeader 1 0 false false false 1, tgtWord := 3, passed := 0,
        seq := 0, hops := 0 }
     (activateCheck s (2 ^ 62 + 3) 0 = .ok () ∧ (2 ^ 62 + 3) / 2 ^ 62 = 1 ∧ s.seq = 0 ∧ (cur s).cls = 0 ∧ sendCls s none = 0 ∧
       (∀ b ∈ [false, true], pickCtx u 0 (r b) = some 1) ∧ (1 : Nat) ≠ s.cx) ∧
     (let t := modCtx s 1 fun c => { c with active := true }
      activateCheck t (2 ^ 62 + 3) 0 = .ok () ∧
      (∀ b ∈ [false, true], pickCtx (policedState t none none) 0 (r b) = none) ∧
      clusterOk (groupOf t 3).bcluster = true)) ∧
    spawnKey base (combVa 64) = .ok (combKey 0 64) ∧ okAnd (spawnKey base 0x40000040) (fun k => k == 0x4000040) = true := by
  refine ⟨⟨trivial, ?_⟩, ?_⟩ <;> decide +kernel

/-- A message of a class. -/
def aMsg (k : Nat) : Msg := mkMsg base 5 k 0 (some 9) 1 2 3

/-- Messages of two classes, an older one of the lowest class behind one of another; none; a handler, and none. -/
theorem witness_ReceivesAndHandlers :
    (let s := withCtx fun c => { c with mailbox := [aMsg 2, aMsg 1, aMsg 1] }
     (cur s).mailbox = [aMsg 2] ++ aMsg 1 :: [aMsg 1] ∧ (∀ k ∈ [aMsg 2, aMsg 1], msgCls (aMsg 1) ≤ msgCls k) ∧
     (∀ k ∈ [aMsg 2], msgCls k ≠ msgCls (aMsg 1)) ∧ (cur s).mailbox ≠ [] ∧ s.clusters = []) ∧
    (cur base).mailbox = [] ∧
    (let s := withCtx fun c => { c with mhInh := true }; (cur s).mhInh = true ∧ (cur s).tl = 0) ∧
    (cur base).mhInh = false ∧ CanTrap base := by
  simp only [CanTrap]; decide +kernel

theorem witness_ReceivesAndHandlers_spill : ∀ k, ∀ e ∈
    (clOf (withCtx fun c => { c with mailbox := [aMsg 2, aMsg 1, aMsg 1] }) k).spill, e.dest ≠ nameOf (cur base) :=
  noSpill _ _ (by decide +kernel)

theorem witness_Endings :
    ((cur base).mailbox = [] ∧ (cur base).sb = [] ∧ (cur base).preempt = none ∧ fget base.saved base.cx = none ∧
      (cur base).wait = .none ∧ ∀ k, ∀ e ∈ (clOf base k).spill, e.dest ≠ nameOf (cur base)) ∧
    (cur (withCtx fun c => { c with priv := .s })).priv = .s ∧ (cur (withCtx fun c => { c with tl := 2 })).tl = 2 ∧
    (cur (withCtx fun c => { c with tvec := 0 })).tvec = 0 := by
  refine ⟨⟨?_, ?_, ?_, ?_, ?_, noSpill _ _ ?_⟩, ?_⟩ <;> decide +kernel

/-- Each trap level, each privilege. -/
theorem witness_TrapsAndPrivilege :
    CanTrap base ∧ (∀ n ∈ [1, 2], (cur (withCtx fun c => { c with tl := n })).tl = n) ∧
    (cur (withCtx fun c => { c with tl := 1 })).priv = .u ∧ (cur (withCtx fun c => { c with priv := .s })).priv = .s := by
  simp only [CanTrap]; decide +kernel

/-- Unassigned register numbers at the ends of the range, a read-only one, time stamps at their largest. -/
theorem witness_StateRegisters :
    (∀ n ∈ [(0x0D : Nat), 0xFFF], stateAcc n = none) ∧ stateAcc 0x20 = some .ro ∧ CanTrap base ∧
    (cur (withCtx fun c => { c with priv := .s })).priv = .s ∧ (0xDFFFFF : Nat) % 2 ^ 24 < 0xE00000 := by
  simp only [CanTrap]; decide +kernel

/-- A context that waits under REQID 0, in slot 0. -/
def faulting : State := { withX 0x80000000 0 with faults := [(0, { asid := 1, range := 0x8000, who := [(nameOf (cur base), 0x80000000)] })] }

/-- REQID 0 taken and 1 free, with the last REQID for a bound; a page present, absent and beyond 48 bits. -/
theorem witness_FaultService :
    ((2 : Nat) ≤ 2 ∧ (cur (withCtx fun c => { c with faultDone := some false })).faultDone = some false) ∧
    ((cur base).faultDone = none ∧ (walk base 1 0x40000000).isOk = true ∧ isComb (combVa 0) = true ∧ combVa 0 < 2 ^ 48) ∧
    (let v := 0x80000000; v < 2 ^ 48 ∧ isComb v = false ∧ walk base 1 v = .error 0 ∧ (cur base).asid = 1 ∧
      faulting.faults.find? (fun p => p.2.asid == 1 && p.2.range == v % 2 ^ 48 / 65536) =
        some (0, { asid := 1, range := 0x8000, who := [(nameOf (cur base), 0x80000000)] }) ∧
      (let t := { base with faults := [(0, { asid := 1, range := 0x8001, who := [] })] }
       t.faults.find? (fun p => p.2.asid == 1 && p.2.range == v % 2 ^ 48 / 65536) = none ∧ fget t.faults 1 = none ∧
        (∀ j < 1, fget t.faults j ≠ none) ∧ t.fsq.en = false)) ∧
    ((2 : Nat) ^ 48 ≤ 2 ^ 48) ∧ (2 < 3 ∧ CanTrap base) ∧ fget base.faults 4095 = none ∧ hostShut base = false ∧
    (let s := modCtx faulting 0 fun c => { c with wait := .faultwait 0 }
     hostShut s = false ∧ fget s.faults 0 = some { asid := 1, range := 0x8000, who := [(nameOf (ctxOf s 0), 0x80000000)] } ∧
     whereIs s (nameOf (ctxOf s 0)) = some 0 ∧ (ctxOf s 0).wait = .faultwait 0 ∧ (ctxOf s 0).sb = [] ∧ (ctxOf s 0).preempt = none ∧
     fget s.saved 0 = none) := by
  simp only [CanTrap]; decide +kernel

/-- At S, with slot 1 active under its name and with a saved context of that name. -/
def atS (a b : Nat) (on : Bool) : State :=
  modCtx (modCtx base 0 fun c => { (c.setX 1 (wd a)).setX 2 (wd b) with priv := .s }) 1 fun c => { c with active := on, nameCxa := 1 }

def savedOne : Saved :=
  { cxa := 2, gen := 0, unacked := 0, lost := [], tag := 0, born := 0, deadline := none, faultReq := none, amo := none, devs := [],
    ranTrap := false, ranHnd := false }

theorem witness_KillGroupsKeysAndInvalidation_kill :
    (let s := atS 1 0 true
     (cur s).priv = .s ∧ 1 < 2 ^ 28 ∧ cxaOk (1 % 65536) = true ∧ whereIs s 1 = some 1 ∧ 1 ≠ s.cx ∧ (ctxOf s 1).sb = [] ∧
      (ctxOf s 1).preempt = none ∧ fget s.saved 1 = none) ∧
    (let s := { atS 2 0 true with saved := [(2, savedOne)] }
     cxaOk (2 % 65536) = true ∧ whereIs s 2 = none ∧ savedAs s 2 = some 2) ∧
    (let s := atS 5 0 true
     cxaOk (5 % 65536) = true ∧ whereIs s 5 = none ∧ savedAs s 5 = none ∧ ∀ p ∈ s.ctxs, p.2.dying = false) ∧
    (∀ w ∈ [0, 2 ^ 36 - 1], let s := atS 1 w true
      hostShut s = false ∧ 1 < 2 ^ 15 ∧ cxaOk 1 = true ∧ w < 2 ^ 36 ∧ (rx s 2).toNat = w ∧ (ctxOf s 1).active = true) ∧
    ((ctxOf (atS 1 0 false) 1).active = false ∧ clusterOk (slotCl (1 % 2 ^ 15)) = true ∧ clusterOk (slotCl 32767) = clusterOk 255) := by
  decide +kernel

/-- Slots 1 and 8191; an invalidation with nothing in flight. -/
theorem witness_KillGroupsKeysAndInvalidation_keys :
    (∀ v ∈ [1, 8191], let s := atS v (combVa 128) true
      (cur s).priv = .s ∧ (rx s 1).toNat = v ∧ 1 ≤ v ∧ v ≤ 8191 ∧ combOperand (ownCl (cur s)) (combVa 128) 64 = .ok (0, 128) ∧
      128 + 64 ≤ spillBase s 0 ∧ (cur s).sb = []) ∧
    (let s := { base with home := [(0x100001, { (default : Home) with key := 7 })] }
     ∀ e ∈ s.home, e.2.key = 7 → fget s.latentL2 e.1 = none) ∧ hostShut base = false ∧ hostShut { base with tlbBusy := true } = false ∧
    (let s := modCtx { base with keyReqs := [(0, (7, .loaded 1 2))] } 0 fun c => { c with wait := .keyld 7 }
     fget s.keyReqs 0 = some (7, .loaded 1 2) ∧ (ctxOf s 0).wait = .keyld 7) ∧
    (∀ v ∈ [0, 3, 2 ^ 16], fld v 28 4 = 0 ∧ fld v 2 14 = 0) ∧ base.tlbBusy = false ∧ ({ base with tlbBusy := true } : State).tlbBusy = true ∧
    (let s := modCtx { base with tlbBusy := true, tlbReq := some (2, some 0) } 0 fun c => { c with wait := .tlbinv }
     s.tlbReq = some (2, some 0) ∧ (ctxOf s 0).wait = .tlbinv ∧ ∀ e ∈ s.ctxs, inFlight 2 e.2 = false) := by decide +kernel

/-- The last block of instruction memory, start queues of 7 and of 8, target queues of 63 and 64. -/
theorem witness_AnvilControl :
    (let w := 65532 * 2 ^ 16 + 4 * 2 ^ 32
     anvilNamed (w % 4096) 12 = .ok 0 ∧ fld w 12 4 = 0 ∧ w < 2 ^ 49 ∧ 4 ≤ fld w 32 17 ∧ fld w 16 16 + fld w 32 17 ≤ 65536 ∧
      0x40000000 % 4 = 0 ∧ fld w 16 16 % 4 = 0 ∧ fld w 32 17 % 4 = 0 ∧ okAnd (avloadFirst base 0x40000000 (fld w 32 17)) (fun _ => true) = true ∧
      (cur base).sb = []) ∧
    (let r : AvStart := { pc := 0, cls := 0, notify := false, s0 := 0, s1 := 0, starter := 0, seq := 0 }
     let q (n : Nat) : State := modAv base 1 fun a => { a with startq := List.replicate n r }
     anvilNamed (8 % 4096) 12 = .ok 1 ∧ fld 8 12 4 = 0 ∧ (avOf (q 7) 1).startq.length < 8 ∧ 8 ≤ (avOf (q 8) 1).startq.length) ∧
    ((8 + 2 ^ 13 : Nat) < 2 ^ 14 ∧ anvilNamed ((8 + 2 ^ 13) % 4096) 12 = .ok 1 ∧ (cur base).wait = .none) ∧
    (let e : TqEntry := { handle := 0, flags := 0, resv := none, num := 0 }
     let q (n : Nat) : State := modTq (withCell (fun c => { shut c with refcnt := 4094 }) (withX hand 5)) 0 5 fun t => { t with es := List.replicate n e }
     handleReg (wd hand) = .ok (0, 3) ∧ targetOf 5 = .ok (0, 5) ∧ (cellOf (q 63) 0 3).cgen = handleGen hand ∧
      (cellOf (q 63) 0 3).st = .sealed ∧ (cellOf (q 63) 0 3).refcnt < 4095 ∧ 0 < tqRoom (q 63) 0 5 ∧ tqRoom (q 64) 0 5 = 0) := by
  decide +kernel

/-- A descriptor of a collective: OP 0, REDOP 0, ETYPE, and the slot, COUNT, INPUT and OUTPUT of R84. -/
def withColl (d : Nat) (f : ViewSlot → ViewSlot) : State := modView (combPutNat (withX (combVa 64) 0) 0 64 64 d) 0 f

/-- Every state of the slot, a bad descriptor, a poisoned one, a full CE. -/
theorem witness_Collectives :
    (let s := withColl (2 ^ 192) id
     combOperand (ownCl (cur s)) (combVa 64) 64 = .ok (0, 64) ∧ 64 + 64 ≤ spillBase s 0 ∧ releaseStep s .dev = .done ∧
      (s.ceOps.filter fun q => !q.past).length < 32 ∧ (∀ x ∈ wordsOf 64 64, x ∉ (clOf s 0).latent ∧ x ∉ (clOf s 0).soft) ∧ combLoadOk s (combVa 64) 0 64 64 = .ok () ∧
      ceBad (ceOpOf s 0 (combVa 64) (combNat s 0 64 64)) (combNat s 0 64 64) = false ∧
      (let t := { s with ceOps := List.replicate 32 (ceOpOf s 0 0 0) }; 32 ≤ (t.ceOps.filter fun q => !q.past).length) ∧
      (let t := modCl s 0 fun k => { k with poison := [8] }; okAnd (combLoadOk t (combVa 64) 0 64 64) (fun _ => true) = false)) ∧
    (let s := withColl (2 ^ 192 + 6 * 2 ^ 16) id
     ceBad (ceOpOf s 0 (combVa 64) (combNat s 0 64 64)) (combNat s 0 64 64) = true) ∧
    (∀ st ∈ [VSt.free, .forming, .changing, .active, .stalled, .excluded], (viewOf (withColl (2 ^ 192) fun v => { v with st := st }) 0).st = st) ∧
    (∀ b ∈ [true, false], (viewOf (withColl 0 fun v => { v with st := .active, holdColl := b }) 0).holdColl = b) ∧
    (let s := withColl (2 ^ 192 + 5 * 2 ^ 32) fun v => { v with st := .active, vid := 6 }
     let o := ceOpOf s 0 (combVa 64) (combNat s 0 64 64); o.viewid ≠ 0 ∧ o.viewid ≠ (viewOf s o.slot).vid) ∧
    (let s := withColl (2 ^ 192) fun v => { v with st := .active, vid := 6 }
     (ceOpOf s 0 (combVa 64) (combNat s 0 64 64)).viewid = 0) := by decide +kernel

/-- A mask of 16 bits and one too large; allowances at the edge of the level, for class 0 and for class 1. -/
theorem witness_ViewAndAdmit :
    ((2 ^ 16 - 1 : Nat) < 2 ^ 16 ∧ 2 ^ 16 ≤ 2 ^ 16 ∧ CanTrap base) ∧
    (let s (cls : Nat) (level : Int) : State :=
       modDie { modCtx (withX 100 3) 0 fun c => { c with cls := cls } with gtcRun := true } 0 fun d => { d with level := level, b := 50 }
     (cur (s 0 0)).grant = none ∧ 3 ≤ 3 ∧ (dieOf (s 0 0) 0).reqs = [] ∧ clDie (slotCl (s 0 0).cx) = 0 ∧
     ((s 0 400).gtcRun = true ∧ 0 ≤ (dieOf (s 0 400) 0).level ∧ (400 : Int) ≤ (dieOf (s 0 400) 0).level) ∧
     ¬(400 : Int) ≤ (dieOf (s 0 399) 0).level ∧
     ((cur (s 1 406)).cls = 1 ∧ (12 * (dieOf (s 1 406) 0).b : Int) ≤ 100 * ((dieOf (s 1 406) 0).level - 400)) ∧
     ¬(12 * (dieOf (s 1 405) 0).b : Int) ≤ 100 * ((dieOf (s 1 405) 0).level - 400)) := by
  simp only [CanTrap]; decide +kernel

/-! ## Events of memory -/

/-- The entry of an AMO, alone in the buffer of slot 0, and the wait it belongs to. -/
def amoEntry (w : Nat) (p : Part) (rd : Nat := 4) : SbEntry := { kind := .amo .add w 5 0 rd, parts := [p], bytes := [], pts := 2, ord := true, va := 64 }
def withAmo (w : Nat) (p : Part) (wt : Wait) (rd : Nat := 4) : State :=
  held (modCtx base 0 fun c => { c with sb := [amoEntry w p rd], wait := wt })

theorem witness_HeldLine : HeldLine (held base) (hbmPart 8) aHome ∧ HeldLine (held base) (hbmPart 4) aHome := by
  simp only [HeldLine]; decide +kernel

/-- In both widths, at home, in comb at a FULL and an EMPTY word, and in host memory; with a result register and without;
behind an outstanding load and not. -/
theorem witness_AtomicsExecute : ∀ w ∈ [4, 8],
    (let s := withAmo w (hbmPart w) (.amo 4 w 64); let c := ctxOf s 0
     c.sb = [amoEntry w (hbmPart w)] ∧ (hbmPart w).n = w ∧ c.dying = false ∧ (31 : Nat) < 32 ∧ c.wait = .amo 4 w 64 ∧ sbMayLeave c 0 = true ∧
      sbMayLeave { c with loads := [aLoad] } 0 = false ∧ (hbmPart w).at_ = 0 ∧ biBlocks s (hbmPart w).line = false ∧
      c.active = true ∧ c.priv = .u ∧ c.tl = 0 ∧ c.tvec ≠ 0) ∧
    (let s := withAmo w (hbmPart w) .none 0; let c := ctxOf s 0
     c.sb = [amoEntry w (hbmPart w) 0] ∧ (hbmPart w).n = w ∧ c.dying = false ∧ sbMayLeave c 0 = true ∧ biBlocks s (hbmPart w).line = false) ∧
    (∀ em ∈ [[], [8]], ∀ rd ∈ [0, 4], ∀ full ∈ [31, 32], let p := combPart 64 w
      let q : DefSig := { off := 64, op := .add, width := 8, b := 1, exp := 0, who := .nobody, entered := true, since := 3 }
      let s := modCl (withAmo w p (.amo rd w 64) rd) 0 fun k => { k with empty := em, defer := List.replicate full q }
      (ctxOf s 0).wait = .amo rd w 64 ∧ (ctxOf s 0).sb = [amoEntry w p rd] ∧ p.n = w ∧ (ctxOf s 0).dying = false ∧ sbMayLeave (ctxOf s 0) 0 = true ∧
      (deferHeld s p.combCl (bankOf p.combOff) < 32 ↔ full = 31) ∧ p.isComb = true ∧ boundTo s p.combCl p.combOff = none ∧ p.combOff % w = 0 ∧
      p.combOff / 8 ∉ (clOf s p.combCl).poison ∧ p.combOff / 8 ∉ (clOf s p.combCl).latent ∧ p.combOff / 8 ∉ (clOf s p.combCl).soft ∧
      (p.combOff / 8 ∈ (clOf s p.combCl).empty ↔ em ≠ [])) ∧
    (let p : Part := { hbmPart w with pa := 2 ^ 48 + 64 }; p.isComb = false ∧ isHbm p.pa = false ∧
      (ctxOf (withAmo w p (.amo 4 w 64)) 0).wait = .amo 4 w 64 ∧ fget (withAmo w p .none).latentL2 p.line = none) := by decide +kernel

theorem witness_StoresPerformAndLoadsReturn :
    (let e (p : Part) (k : SbKind) (n : List (Nat × Nat × Nat)) : SbEntry :=
       { kind := k, parts := [p], bytes := leBytes 8 77, pts := 2, ord := false, va := 64, counted := n }
     let s (p : Part) (k : SbKind) (n : List (Nat × Nat × Nat)) : State := held (modCtx base 0 fun c => { c with sb := [e p k n] })
     (let t := s (combPart 64 8) .store []
      (ctxOf t 0).sb = [e (combPart 64 8) .store []] ∧ (combPart 64 8).n = (leBytes 8 77).length ∧ (combPart 64 8).isComb = true ∧
       (ctxOf t 0).dying = false ∧ sbMayLeave (ctxOf t 0) 0 = true ∧ sbMayLeave { ctxOf t 0 with loads := [aLoad] } 0 = false) ∧
     (let t := withCell (fun c => { opened c with base := 7, counted := 1 }) (s (combPart 3592 8) (.cput 0 3 8) [(0, 3, 0)])
      (combPart 3592 8).combCl = 0 ∧ boundTo t 0 (combPart 3592 8).combOff = some (3, cellOf t 0 3) ∧
       (ctxOf t 0).sb.map SbEntry.counted = [[(0, 3, (cellOf t 0 3).cgen)]]) ∧
     ((hbmPart 8).n = (leBytes 8 77).length ∧ biBlocks (s (hbmPart 8) .store []) (hbmPart 8).line = false) ∧
     (let t := { s (hbmPart 8) .store [] with hostDir := [0x100001] }
      (hbmPart 8).isComb = false ∧ biBlocks t (hbmPart 8).line = true)) := by decide +kernel

/-- An LDA with nothing at hand and one with a copy; an outstanding load alone, and beside one of another core. -/
theorem witness_StoresPerformAndLoadsReturn_loads :
    (∀ r ∈ [aLoad, { aLoad with got := [some (List.replicate 8 0, 0)], force := true }],
      let s := held (modCtx base 0 fun c => { c with wait := .load r (some .dev) })
      (ctxOf s 0).wait = .load r (some .dev) ∧ (ctxOf s 0).loads = [] ∧ r.parts = [hbmPart 8] ∧ r.got = [r.got.headD none] ∧
        r.missing = [hbmPart 8] ∧ r.sent = true ∧ biPending s (hbmPart 8).line = false) ∧
    (let s := held (modCtx base 0 fun c => { c with loads := [aLoad] })
     let t := modCtx s 64 fun c => { c with loads := [aLoad] }
     (ctxOf s 0).loads = [aLoad] ∧ aLoad.parts = [hbmPart 8] ∧ aLoad.got = [none] ∧ aLoad.force = false ∧ (ctxOf s 0).wait = .none ∧
      biPending s (hbmPart 8).line = false ∧ (combined s 0 aLoad).1 = [] ∧ (ctxOf t 0).loads = [aLoad] ∧
      (loadsOut t).length = 2 ∧ slotCore 64 ≠ slotCore 0) := by decide +kernel

theorem witness_StoresPerformAndLoadsReturn_line : HeldLine (held (withCtx fun c => { c with loads := [aLoad] })) (hbmPart 8) aHome ∧
    HeldLine (withAmo 4 (hbmPart 4) (.amo 4 4 64)) (hbmPart 4) aHome := by
  simp only [HeldLine]; decide +kernel

/-- A host line read and written through decoder 0, the first byte of one and the last four. -/
def aBi : BackInv := { since := 0, reported := false, retry := [.birsp 0x100001] }
def hosted : State :=
  { held base with hdm := base.hdm.set 0 (0, 2 ^ 30), hostDir := [0x100001], backInv := [(0x100001, aBi)], gtc := 1000000 }

theorem witness_HostMemory :
    fget base.latent 5 = none ∧ fget ({ base with latent := [(5, .uncorrectable 3)] } : State).latent 5 = some (.uncorrectable 3) ∧
    hostShut hosted = false ∧ hostShut { hosted with devst := .bootFail } = true ∧ hdmPa hosted (2 ^ 30) 64 = none ∧
    hdmPa hosted (0x4000077 / 64 * 64) 64 = some 0x4000040 ∧ dirVictim hosted 0x100001 = none ∧ fget hosted.latent 0x100001 = none ∧
    fget hosted.latentL2 0x100001 = none ∧ fget hosted.keys 0 = some (lineKeyOf hosted 0x100001) ∧ 0x100001 ∈ hosted.hostDir ∧
    (∀ p ∈ [(0x4000040, 1), (0x400007C, 4)], hdmPa hosted p.1 p.2 = some p.1 ∧ p.1 % 64 + p.2 ≤ 64) ∧
    (hdmPa hosted 0x400007D 4 = some 0x400007D ∧ 64 < 0x400007D % 64 + 4) ∧
    fget hosted.backInv 0x100001 = some aBi ∧ aBi.reported = false ∧ aBi.since + 1000000 ≤ hosted.gtc ∧
    ({ hosted with gtc := 999999 } : State).gtc < aBi.since + 1000000 ∧ fget hosted.backInv 5 = none ∧
    (let s := { base with home := [(2 ^ 42 + 1, aHome)] }; isHbm (64 * (2 ^ 42 + 1)) = false ∧ fget s.home (2 ^ 42 + 1) = some aHome ∧
      fget s.latentL2 (2 ^ 42 + 1) = none ∧ fget s.home (2 ^ 42 + 2) = none ∧ isHostLine (2 ^ 42 + 1) = true ∧
      isHostLine (2 ^ 42 + 2) = true ∧ isHostLine 5 = false) ∧
    (∀ k ∈ [0, 3], let s := { hosted with home := [(0x100001, { aHome with key := k })] }
      fget s.home 0x100001 = some { aHome with key := k } ∧ dirVictim s 0x100001 = none) := by
  decide +kernel

theorem witness_HostMemory_line : HeldLine hosted { pa := 0x400007C, n := 4, at_ := 0, key := 0, cls := 0, sys := false } aHome := by
  simp only [HeldLine]; decide +kernel

/-- A directory of 16 entries for one line, and a decoder over 8 GiB. -/
def fullDir (line : Nat) : State := { base with hdm := base.hdm.set 0 (0, 2 ^ 33), hostDir := List.replicate 16 line }

/-- A directory whose set of a line the host reads is full: 16 ways of one slice and one set. -/
theorem witness_HostMemory_victim : ∃ s line v, hostShut s = false ∧ hdmPa s (64 * line / 64 * 64) 64 = some (64 * line) ∧
    dirVictim s line = some v := by
  obtain ⟨i, j, hne, h⟩ := Fintype.exists_ne_map_eq_of_card_lt
    (fun k : Fin 2049 => (⟨Config.dirSet (32768 * k) % 2048, Nat.mod_lt _ (by omega)⟩ : Fin 2048)) (by simp)
  have h : Config.dirSet (32768 * i) % 2048 = Config.dirSet (32768 * j) % 2048 := by simpa using h
  have hall : (List.range 2049).all (fun k => sliceOf base (32768 * k) == 0 && (stackOf base (64 * (32768 * k))).isSome) = true := by
    decide +kernel
  have one (x : Nat) (k : Fin 2049) : sliceOf (fullDir x) (32768 * k) = 0 ∧ (stackOf (fullDir x) (64 * (32768 * k))).isSome = true := by
    have h := List.all_eq_true.1 hall k (List.mem_range.2 k.isLt)
    rw [Bool.and_eq_true, beq_iff_eq] at h
    exact h
  refine ⟨fullDir (32768 * i), 32768 * j, 32768 * i, ?_, ?_, ?_⟩
  · show hostShut base = false
    decide +kernel
  · have e : 64 * (32768 * j.val) / 64 * 64 = 64 * (32768 * j.val) := by omega
    have d : hdmIn (fullDir (32768 * i)).hdm[0]! 0 (64 * (32768 * j.val)) 64 = some (64 * (32768 * j.val)) := by
      have : (fullDir (32768 * i)).hdm[0]! = (0, 2 ^ 33) := rfl
      rw [this, hdmIn, if_pos (by constructor <;> simp only [] <;> omega)]
      simp
    simp only [hdmPa, e, d, Option.orElse_some, (one _ j).2, if_true]
  · have hn : 32768 * i.val ≠ 32768 * j.val := fun e => hne (Fin.ext (by omega))
    have hd : (fullDir (32768 * i)).hostDir = List.replicate 16 (32768 * i.val) := rfl
    have hb : biPending (fullDir (32768 * i)) (32768 * i.val) = false := rfl
    simp [dirVictim, hd, (one _ i).1, (one _ j).1, h, Ne.symm hn, hb, List.replicate]

/-! ## Messages, traps and timers -/

/-- A mailbox with seven messages; a name that nothing holds; a handler due; each asynchronous cause. -/
theorem witness_MessageEvents :
    (let s := withCtx fun c => { c with mailbox := List.replicate 7 (aMsg 1) }
     let name := nameOf (ctxOf s 0)
     0 = name % 2 ^ 15 ∧ name < 2 ^ 28 ∧ holds s 0 name = true ∧ fwdEntry s name = none ∧ (ctxOf s 0).mailbox.length < 8 ∧
      (ctxOf s 0).wait = .none ∧ s.clusters = [] ∧
      (let t := modCtx s 1 fun c => { c with wait := .send name (aMsg 1) false }; 1 ≠ 0 ∧ (ctxOf t 1).wait = .send name (aMsg 1) false) ∧
      (∀ d ∈ [true, false], let t := modCtx s 1 fun c => { c with wait := .send name (aMsg 1) false, pledge := some ⟨5, d, d, d, some .dev⟩ }
        (ctxOf t 1).pledge = some ⟨5, d, d, d, some .dev⟩)) ∧
    (let name := 7; name < 2 ^ 28 ∧ holds base (name % 2 ^ 15) name = false ∧ fwdEntry base name = none ∧ savedAs base name = none ∧
      msgFromUnit (aMsg 1) = false ∧ msgIsBounce (aMsg 1) = false ∧ msgIsRemote (aMsg 1) = false) ∧
    (let s := withCtx fun c => { c with mailbox := [aMsg 2, aMsg 1, aMsg 1], mhEn := true, ranHnd := true }; let c := ctxOf s 0
     c.active = true ∧ c.wait = .none ∧ handlerDue c = true ∧ asyncDue s 0 = none ∧ c.mailbox = [aMsg 2] ++ aMsg 1 :: [aMsg 1] ∧
      (∀ j ∈ [aMsg 2, aMsg 1], msgCls (aMsg 1) ≤ msgCls j) ∧ ∀ j ∈ [aMsg 2], msgCls j ≠ msgCls (aMsg 1)) ∧
    (let s := withCtx fun c => { c with ranTrap := true, pendMask := true, pendView := 0x8000, pendDl := true }; let c := ctxOf s 0
     c.active = true ∧ c.priv = .u ∧ c.tl = 0 ∧ c.tvec ≠ 0 ∧ c.wait = .none ∧ c.faultDone = none ∧ c.loads = [] ∧ c.fencing = false ∧ c.ranTrap = true ∧
      c.pendMask = true ∧ c.pendView.getLsbD 15 = true ∧ ∀ j < 15, c.pendView.getLsbD j = false) ∧
    (ctxOf (withCtx fun c => { c with pendDl := true }) 0).pendView = 0 ∧
    (ctxOf (withCtx fun c => { c with wait := .seal }) 0).wait = .seal := by decide +kernel

theorem witness_MessageEvents_spill : ∀ j, ∀ e ∈ (clOf (withCtx fun c => { c with mailbox := List.replicate 7 (aMsg 1) }) j).spill,
    e.dest ≠ nameOf (cur base) := noSpill _ _ (by decide +kernel)

/-- A record of slot 0, for slot 5 or another target. -/
def aRec (f : LForm) (target : Nat) : LRec :=
  { form := f, cls := 1, asid := 1, pc := 0x80, a0 := 0, a1 := 0, deadline := none, dltrap := false, gmatch := false, target := target,
    tag := 0, ts := 0, tsv := false, src := .ctx (nameOf (cur base)) 0, hdr := 0, tgtWord := 0, passed := 0, seq := 4, hops := 0, at_ := 0 }

/-- A packet of device 3 with some bytes. -/
def aPkt (kind addr : Nat) (bs : List Byte) : Packet :=
  { kind := kind, cls := 1, hops := 0, dest := 1, source := 3, tag := 6, addr := wd addr, data := bs, resv := false, ce := none }

/-- Every timer at the first cycle at which it is due. -/
theorem witness_Timers :
    (let c := ctxOf (withCtx fun c => { c with drift := 1024, pts := 0xDFFFFE, mhMask := true, masked := 4096 }) 0
     c.active = true ∧ 1024 ≤ c.drift ∧ c.pts + 1 < 0xE00000 ∧ c.mhMask = true ∧ 4096 ≤ c.masked) ∧
    (let s := { withCtx fun c => { c with deadline := some ⟨500, true, false⟩ } with gtc := 500 }
     (ctxOf s 0).deadline = some ⟨500, true, false⟩ ∧ fget s.saved 0 = none ∧ (500 : Nat) ≤ s.gtc ∧ s.evq.en = false ∧
      s.evq.held.length < 256 ∧ s.evq.dropped = 0) ∧
    (aRec .named 5).form = .named ∧
    (∀ p ∈ [(Wait.fe 64, 2 ^ 20), (.send 5 (aMsg 1) false, 2 ^ 16), (.launch 0 (aRec .named 5) true, 2 ^ 16), (.combAmo 4 8 64, 2 ^ 20)],
      let s := modCl (withCtx fun c => { c with wait := p.1, waitSince := some 3 }) 0 fun k => { k with cyc := p.2 + 3 }
      let c := ctxOf s 0
      c.priv = .u ∧ c.tl = 0 ∧ c.tvec ≠ 0 ∧ c.waitSince = some 3 ∧ c.wait = p.1 ∧ 3 + p.2 ≤ cycOf s 0 ∧ s.clusters.all fun e => e.2.defer.isEmpty) ∧
    (let q : DefSig := { off := 64, op := .add, width := 8, b := 1, exp := 0, who := .remote (aPkt 3 64 []), entered := true, since := 3 }
     let s := modCl base 0 fun k => { k with defer := [q], cyc := 2 ^ 20 + 3 }
     (clOf s 0).defer = [q] ∧ q.who = .remote (aPkt 3 64 []) ∧ q.since + 2 ^ 20 ≤ (clOf s 0).cyc) ∧
    (let e : TqEntry := { handle := 0, flags := 0, resv := none, num := 0 }
     let s (n : Nat) : State := modTq (withCell (fun c => { opened c with dlv := true, dltgt := 5, tpost := some 7 }) { base with gtc := 7 }) 0 5 fun t =>
       { t with es := List.replicate n e }
     expiryDue (cellOf (s 0) 0 3) = true ∧ targetOf (cellOf (s 0) 0 3).dltgt = .ok (0, 5) ∧ 0 < tqRoom (s 63) 0 5 ∧ tqRoom (s 64) 0 5 = 0 ∧
      (cellOf (s 0) 0 3).tpost = some 7 ∧ 7 ≤ (s 0).gtc) ∧
    (let s := withCell (fun c => { opened c with dlv := true, counted := 1 }) base
     expired (cellOf s 0 3) = true ∧ (cellOf s 0 3).counted ≠ 0) := by decide +kernel

/-- Not yet moved, and moved; a line at home with timestamps on both sides of 2^23. -/
theorem witness_Rebase :
    (let s := { base with rebaseActive := true, epoch := true, home := [(5, { aHome with rts := 2 ^ 23 })] }
     s.rebaseActive = true ∧ movedBase s = false ∧ fget s.home 5 = some { aHome with rts := 2 ^ 23 }) ∧
    (∀ b ∈ [true, false], let s := { base with rebaseActive := true, rebaseAgain := b }
      s.rebaseActive = true ∧ movedBase s = true ∧ s.rebaseAgain = b) := by decide +kernel

/-! ## Anvils -/

/-- Anvil 0 with its context A changed, and its cell in place 3. -/
def onAv (f : AvCtx → AvCtx) : State := modAvCtx base 0 0 fun c => f { c with running := true, h := c.h.set 1 (BitVec.ofNat 32 hand) }
def onCell (c : Cell → Cell) (f : AvCtx → AvCtx) : State := withCell c (onAv f)

/-- Every slot of the sequencer issues on an anvil that holds nothing back; a loop of trip 0 and one of trip 65,535. -/
theorem witness_AnvilSequencer :
    (∀ i ∈ [Instr.nop, .sli 2 5, .sadd 1 2 (.inl 3), .ssub 1 2 (.inr 0x200), .sand 1 2 (.inl 3), .sshl 1 2 0x20, .fpcr 1, .fpcw 1, .lgate 7,
        .br 5, .brz 2 5, .brnz 2 5, .lstr 5 3 15 0x200, .lext 5 2, .loop 5 3 2 4], (icx (onAv id)).wait = .none ∧
      bundleCheck (onAv id) [(3, { stop := true, unit := fld (encodeWord i) 27 4, gate := 0, op := i })] = .ok ()) ∧
    (∀ n ∈ [0, 65535], let s := onAv fun c => { c with s := c.s.set 2 (BitVec.ofNat 32 n) }
      ((icx s).levels[5]!).active = false ∧ ((icx s).sr 2).toNat % 65536 = n) := by decide +kernel

/-- A slot issues on a state. -/
def may (s : State) (i : Instr) : Bool :=
  (icx s).wait == .none && okBundle (bundleCheck s [(3, { stop := true, unit := fld (encodeWord i) 27 4, gate := 0, op := i })])
where okBundle (r : Except AvFault Unit) : Bool := match r with | .ok _ => true | .error _ => false

def okAv {α : Type} (r : Except AvTrap α) : Bool := match r with | .ok _ => true | .error _ => false

theorem may_issues (s : State) (i : Instr) (h : may s i = true) : Issues s i := by
  simp only [may, Bool.and_eq_true, beq_iff_eq] at h
  refine ⟨h.1, ?_⟩
  revert h
  cases bundleCheck s [(3, { stop := true, unit := fld (encodeWord i) 27 4, gate := 0, op := i })] with
  | error e => simp [may.okBundle]
  | ok u => simp

def anEntry (r : Option Nat) : TqEntry := { handle := BitVec.ofNat 32 hand, flags := 2, resv := r, num := 9 }
def onTq (es : List TqEntry) (s : State) : State := modTq s 0 7 fun t => { t with es := es }

/-- The last queue with an entry and with none; a trigger; grants at the edge; a reserved entry; a queue with room for one. -/
theorem witness_AnvilQueues :
    (let s := onTq [anEntry none] (onAv id)
     may s (.waitq none 0x80) = true ∧ (icx s).resv = none ∧ freeEntry (tqOf s 0 7) = some (anEntry none) ∧
      chooseQ { avOf s 0 with tqSeenA := (avOf s 0).tqclass } 0 0x80 = some 7 ∧
      (tqOf s 0 7).es.head? = some (anEntry none) ∧ may s (.popq 2 (some 7) (some 3)) = true ∧
      chooseQ { avOf (onAv id) 0 with tqSeenA := (avOf (onAv id) 0).tqclass } 0 0x80 = none) ∧
    may (onAv id) (.waittrg 3) = true ∧
    (∀ l ∈ [400, 399], let s := modDie { onAv (fun c => { c with s := c.s.set 2 100 }) with gtcRun := true } 0 fun d => { d with level := l, b := 50 }
      may s (.anvilAdmit 2 3) = true ∧ (icx s).grant = none ∧ ((icx s).sr 2).toNat = 100 ∧ (dieOf s 0).reqs = [] ∧ (icx s).startCls < 4) ∧
    (let s := onTq [anEntry (some 0)] (onAv fun c => { c with resv := some (7, 9) })
     may s (.popq 2 none (some 3)) = true ∧ (7 : Nat) < 8 ∧ (icx s).resv = some (7, (anEntry (some 0)).num) ∧
      (tqOf s 0 7).es = [anEntry (some 0)] ∧ (anEntry (some 0)).resv = some (ic s)) ∧
    (let s := onTq (List.replicate 63 (anEntry none)) (onCell (fun c => { shut c with refcnt := 1 }) id); let hv := (icx s).hr 1
     may s (.pushq 1 7) = true ∧ 0 < tqRoom s 0 7 ∧ (match avCell s hv with | .ok p => p == (3, cellOf s 0 3) | .error _ => false) = true ∧
      readable (cellOf s 0 3) = true ∧ (cellOf s 0 3).cgen = handleGen hv.toNat ∧ may s (.anvilDone 1) = true ∧ doneOk (cellOf s 0 3) = true) ∧
    may (onAv id) (.trgset 3 none) = true ∧ may (onAv id) (.trgset 3 (some (7, 2, 1))) = true ∧
    (∀ i ∈ [Instr.vgwait, .scanwait], may (onAv id) i = true) ∧ (avOf (onAv id) 0).unit = [] ∧ (icx (onAv id)).vgaErr = none ∧
    (let e : RunErr := { cause := 0x12, handle := hand, row := 0 }
     let s := onAv fun c => { c with vgaErr := some e, scanErr := some e }
     (icx s).vgaErr = some e ∧ (icx s).scanErr = some e ∧ may s .vgwait = true ∧ may s .scanwait = true) ∧
    (let j (o : VgaRun ⊕ ScanRun) : UnitJob := { c := 0, run := 0, left := 3, op := o }
     let s := modAv (onAv id) 0 fun a => { a with unit := [j (.inl default), j (.inr default)] }
     j (.inl default) ∈ (avOf s 0).unit ∧ j (.inr default) ∈ (avOf s 0).unit ∧ (icx s).run = 0 ∧ may s .vgwait = true ∧ may s .scanwait = true) := by
  decide +kernel

/-- A SEALED cell of 32 rows of 64 bytes whose rows 0 and 31 are valid, in FP16 codes of 32 or as the format asks. -/
def tileCell (fmt : Nat) (c : Cell) : Cell := { shut c with rows := 31, pitch := 4, valid := 0x80000001, fmt := fmt }

theorem witness_Loadable :
    Loadable (onCell (tileCell 3) id) ((icx (onAv id)).hr 1) 0 (cellOf (onCell (tileCell 3) id) 0 3) 32 64 := by
  have hp : (clOf (onCell (tileCell 3) id) ((onCell (tileCell 3) id).av / 2)).poison = [] ∧
      (clOf (onCell (tileCell 3) id) ((onCell (tileCell 3) id).av / 2)).latent = [] ∧
      (clOf (onCell (tileCell 3) id) ((onCell (tileCell 3) id).av / 2)).soft = [] := by decide +kernel
  refine ⟨⟨3, rfl⟩, by decide +kernel, by decide +kernel, by decide +kernel, by decide +kernel, by decide +kernel, ?_⟩
  intro i _ _ w _
  simp [hp]

/-- Every load slot on a cell in place; MMA with a grant of 16 and MMAH with one of 4; a VGA run and a scan. -/
theorem witness_AnvilLoadsAndMatrix :
    (let s := onCell (tileCell 3) id
     may s (.ldt false 0 1 2) = true ∧ may s (.ldth false 0 1 2 1) = true ∧ may s (.ldts true 1 2) = true ∧ may s (.ldw 3 1 2) = true ∧
      ((icx s).sr 2).toNat = 0 ∧ (cellOf s 0 3).fmt < 16) ∧
    (let o : MmaOps := ⟨0, 0, 0, false, 0, 0, 0, false, false⟩
     let t : Tile := { tag := 0 }
     let s (n : Nat) : State := onAv fun c => { c with grant := some ⟨n, 10 ^ 6⟩, ta := [(0, t)], tb := [(0, t)] }
     may (s 16) (.mma o) = true ∧ may (s 4) (.mmah o 0 0) = true ∧
      (∀ k < 32, fget ((icx (s 16)).tile false 0).poison k = none ∧ fget ((icx (s 16)).tile true 0).poison k = none ∧
        fget (icx (s 16)).sa.poison k = none ∧ fget (icx (s 16)).sb.poison k = none)) ∧
    (let s := modCell (onCell (tileCell 28) fun c => { c with grant := some ⟨1000, 10 ^ 6⟩, h := c.h.set 2 (BitVec.ofNat 32 (handleOf 0 4 0)) }) 0 4 (tileCell 3)
     may s (.vga 0 1 2 3) = true ∧ okAv (vgaCheck s 1 2 3) = true) ∧
    (let s := modCell (onCell (tileCell 3) fun c => { c with grant := some ⟨1000, 10 ^ 6⟩, h := c.h.set 2 (BitVec.ofNat 32 (handleOf 0 4 0)) }) 0 4 opened
     may s (.scan 3 1 2) = true ∧ okAv (scanCheck s 1 2) = true) := by decide +kernel

/-- Numbers, a NaN, both infinities, one infinity, zeros, and a largest product of 1. -/
theorem witness_AnvilLoadsAndMatrix_values :
    IsNum (.num true 3 (-2)) ∧ (∃ f ∈ [FVal.nan false, .num false 1 0], f.isNan = true) ∧
    (let vs : List FVal := [.inf false, .inf true]; (∀ v ∈ vs, v.isNan = false) ∧
      (decide (FVal.inf false ∈ vs) && decide (FVal.inf true ∈ vs)) = true) ∧
    (let vs : List FVal := [.inf true, .num false 0 0]; (∀ v ∈ vs, v.isNan = false) ∧ .inf true ∈ vs ∧ .inf (!true) ∉ vs ∧
      (∃ v ∈ vs, v.isZero = true) ∧ ∃ v ∈ vs, ¬IsNum v) ∧
    (let vs : List FVal := [.num false 0 0]; (∀ v ∈ vs, IsNum v) ∧ ∀ q ∈ vs.map ratOf, q = 0) ∧
    (let vs : List FVal := [.num true 1 0]; (∀ v ∈ vs, IsNum v) ∧ (∃ v ∈ vs.map ratOf, v ≠ 0 ∧ Int.log 2 |v| = 0) ∧
      ∀ v ∈ vs.map ratOf, v ≠ 0 → Int.log 2 |v| ≤ 0) ∧
    ((fp36 fp36Nan).isNan = true ∧ fp36 (fp36Inf true) = .inf true ∧ IsNum (fp36 0)) := by
  refine ⟨⟨_, _, _, rfl⟩, ⟨_, List.mem_cons_self, rfl⟩, by decide, ⟨by decide, by decide, by decide, ⟨.num false 0 0, by decide, by decide⟩,
    ⟨.inf true, by decide, by rintro ⟨_, _, _, h⟩; cases h⟩⟩, ⟨?_, ?_⟩, ⟨?_, ?_, ?_⟩, by decide +kernel, by decide +kernel, ⟨false, 0, _, rfl⟩⟩
  all_goals simp [ratOf, IsNum]

/-- An MMA over all lanes and an MMAH in the last quarter, with a K tail and a tail of 0; groups with positions and without. -/
theorem witness_AnvilLoadsAndMatrix_lands :
    (∀ half ∈ [false, true], ∀ tail ∈ [none, some 1, some 0],
      let ha := if half then 1 else 0; let full := codeK 3 / (if half then 2 else 1)
      (if half then ha < 2 else ha = 0) ∧ (0 < min (tail.getD full) full ↔ tail ≠ some 0) ∧ 16 * ha ≤ 31 ∧ 31 < 16 * ha + (if half then 16 else 32)) ∧
    ((8 : Nat) / 8 = 1 ∧ (15 : Nat) / 8 = 1) ∧ ((5, []) : VGroup).2 = [] ∧ ((5, [3, 4]) : VGroup).2 ≠ [] := by
  decide

/-- Every VEC slot issues, its row registers free of poison; each class of special input. -/
theorem witness_AnvilVectorSlots :
    (∀ i ∈ [Instr.wadd 1 2 3 true, .wsub 1 2 3 false, .wmul 1 2 3 true, .wfma 1 2 3 false, .wmax 1 2 3 true, .wmin 1 2 3 false, .wcvt 1 2 15 2,
        .wcvt 1 2 0 0, .wcvt 1 2 0 1, .wexp 1 2, .wlog 1 2, .wrcp 1 2, .wrsq 1 2, .wtanh 1 2, .wsig 1 2], may (onAv id) i = true) ∧
    (let c := icx (onAv id); fget c.wp 2 = none ∧ fget c.wp 3 = none ∧ fget c.wp 1 = none) ∧
    (fp36 fp36Nan).isNan = true ∧ (fp36 (fp36Inf true)).isNan = false ∧ (fp36 0).isNan = false := by decide +kernel

/-- Stores at the last row and the last bytes of a cell; posts to no queue and to one, counted and not. -/
theorem witness_AnvilStoresAndMoves :
    (∀ i ∈ [Instr.red 1 2 true 31, .redmax 1 2 false 0, .redclr 1 true, .mov 2 1 true, .mova true 1 2 3 false, .mova false 1 2 3 true,
        .movs true 2 1, .movs false 2 1, .zacc 3], may (onAv id) i = true) ∧
    fget (icx (onAv id)).wp 2 = none ∧
    (let big (c : Cell) : Cell := { opened c with rows := 31, pitch := 8 }
     (let s := onCell big id; let v := ((icx s).sr 2).toNat
      may s (.stc 1 1 2 0 1 false) = true ∧ (match avCell s ((icx s).hr 1) with | .ok p => p == (3, cellOf s 0 3) | .error _ => false) = true ∧
       (cellOf s 0 3).st = .opn ∧ (cellOf s 0 3).cgen = handleGen ((icx s).hr 1).toNat ∧ v % 2 ^ 16 % 16 = 0 ∧
       v % 2 ^ 16 + 32 * 32 / 8 ≤ (cellOf s 0 3).pitch * 16 ∧ fld v 16 5 + 32 ≤ (cellOf s 0 3).rows + 1 ∧ v / 2 ^ 24 = 0 ∧ fld v 21 3 = 0) ∧
     (let s := onCell big fun c => { c with s := c.s.set 2 (BitVec.ofNat 32 (31 * 2 ^ 16)) }; let v := ((icx s).sr 2).toNat
      may s (.stcw 3 1 2 0 1 false) = true ∧ v / 2 ^ 21 = 0 ∧ fld v 16 5 + 1 ≤ (cellOf s 0 3).rows + 1)) ∧
    (∀ n ∈ [0, 1], let s := onCell (fun c => { opened c with counted := n, refcnt := 4094 }) fun c => { c with s := c.s.set 2 5 }; let k := cellOf s 0 3
      may s (.post 1 none) = true ∧ may s (.post 1 (some 2)) = true ∧ k.st = .opn ∧ k.cgen = handleGen ((icx s).hr 1).toNat ∧
      k.apost = none ∧ expired k = false ∧ k.refcnt < 4095 ∧ 0 < tqRoom s 0 5 ∧ k.counted = n ∧
      ((icx s).sr 2).toNat % 4096 = 5 ∧ fld 5 4 8 = 0 ∧ clusterOk 0 = true) := by decide +kernel

/-! ## Events of units and the scheduler -/

theorem witness_UnitEvents :
    (let p (e : AvEff) : AvPend := { run := 0, due := 0, eff := e }
     let s (e : AvEff) : State := onAv fun c => { c with pend := [p e] }
     (avCtx (avOf (s (.s 3 7)) 0) 0).pend = [p (.s 3 7)] ∧ (avCtx (avOf (s (.s 3 7)) 0) (1 - 0)).pend = [] ∧ (p (.s 3 7)).due ≤ (avOf (s (.s 3 7)) 0).cyc ∧
      (p (.s 3 7)).eff.reg ≠ none ∧ (p (.s 3 7)).run = (avCtx (avOf (s (.s 3 7)) 0) 0).run ∧
      (avCtx (avOf (s (.store 0 3 0 [] 1 0)) 0) 0).pend = [p (.store 0 3 0 [] 1 0)]) ∧
    (let r : AvStart := { pc := 64, cls := 1, notify := true, s0 := 1, s1 := 2, starter := 0, seq := 0 }
     let s := modAv base 0 fun a => { a with startq := [{ r with cls := 2, seq := 1 }, r] }
     (avOf s 0).a.running = false ∧ (avOf s 0).loads = [] ∧ (avOf s 0).a.resv = none ∧ nextStart (avOf s 0) = some r) ∧
    (let s := modAvCtx (onAv fun c => { c with wait := .waitq 1 }) 0 1 fun c => { c with running := true }; let a := avOf s 0
     a.cur < 2 ∧ (avCtx a a.cur).running = true ∧ (avCtx a a.cur).wait ≠ .none ∧ waitMet s 0 a.cur = false ∧ otherAble s 0 = true ∧
      otherAble (onAv fun c => { c with wait := .waitq 1 }) 0 = false ∧
      (avOf (modAvCtx s 0 1 fun c => { c with passed := 16 }) 0).b.passed = 16) ∧
    (let s := modTq (modAvCtx (onAv fun c => { c with wait := .waitq 1, startCls := 1 }) 0 1 fun c => { c with running := true, wait := .waitq 1 }) 0 0
       fun t => { t with es := [anEntry none] }
     let a := avOf s 0
     waitMet s 0 0 = true ∧ otherAble s 0 = true ∧ a.urged = false ∧ (avCtx a 1).wait = .waitq 1 ∧ chooseQ a 1 1 = some 0 ∧
      tqSeen a 1 0 < (avCtx a 0).startCls) ∧
    (let s := modAvCtx (onAv id) 0 1 fun c => { c with running := true }
     (avOf s 0).a.running = true ∧ (avOf s 0).b.running = true ∧ (avOf base 0).startq = [] ∧ (avOf base 0).unit = [] ∧ copyOf base 0 = none) ∧
    (let j (n : Nat) (o : VgaRun ⊕ ScanRun) : UnitJob := { c := 0, run := 0, left := n, op := o }
     ∀ o ∈ [Sum.inl default, Sum.inr default], ∀ n ∈ [0, 1], let s := modAv (onAv id) 0 fun a => { a with unit := [j n o] }
      (avOf s 0).unit = j n o :: [] ∧ (j n o).left = n ∧ (j n o).c < 2 ∧ (avCtx (avOf s 0) 0).run = (j n o).run ∧
        (avCtx (avOf s 0) 0).running = true ∧ (avCtx (avOf (modAvCtx s 0 0 fun c => { c with run := 7 }) 0) 0).run ≠ (j n o).run ∧
        (clOf s 0).latent = [] ∧ (clOf s 0).soft = [] ∧ (clOf s 0).poison = []) ∧
    (let l (va : Nat) : AvLoad := { cxa := 0, asid := 1, priv := .u, clock := 0, va := va, off := 0, len := 4, copying := true }
     let s (va : Nat) : State := modAv (modCtx base 0 fun c => { c with wait := .avload 0 true }) 0 fun a => { a with loads := [l va] }
     (∀ va ∈ [0x40000000, 0x80000000], copyOf (s va) 0 = some (0, l va)) ∧
      (match (teRead (s 0x40000000) 0 (avloadCmd (l 0x40000000)) 0x40000000 4 false).2 with | .ok b => b.length == 4 | .error _ => false) = true ∧
      (match (teRead (s 0x80000000) 0 (avloadCmd (l 0x80000000)) 0x80000000 4 false).2 with | .error (.inr _) => true | _ => false) = true ∧
      (match (teRead { s 0x40000000 with hostDir := [0x100000] } 0 (avloadCmd (l 0x40000000)) 0x40000000 4 false).2 with
        | .error (.inl _) => false | _ => true) = true ∧
      (ctxOf (teRead (s 0x40000000) 0 (avloadCmd (l 0x40000000)) 0x40000000 4 false).1 0).wait = .avload 0 true) := by
  decide +kernel

/-- A run of VGA over a stream of one row, the stream whole and broken. -/
theorem witness_UnitEvents_vga : ∀ whole ∈ [true, false],
    let bs := if whole then 1 + 2 ^ 32 * (0x4005 + 2 ^ 16 * 3 + 2 ^ 32 * 0x1000 + 2 ^ 48 * 0x2000 + 2 ^ 64 * 0x3000) else 2 ^ 29
    let vr : VgaRun := { acc := 3, stream := hand, act := handleOf 0 4 0, vecs := 1, col := 31 }
    let j : UnitJob := { c := 0, run := 0, left := 0, op := .inl vr }
    let s := modAv (modCell (combPutNat (onCell (fun c => { tileCell 28 c with base := 7 }) id) 0 3584 64 bs) 0 4 fun c => { tileCell 3 c with base := 16 })
      0 fun a => { a with unit := [j] }
    let cs := cellOf s 0 3; let ca := cellOf s 0 4; let c := avCtx (avOf s 0) 0
    (avOf s 0).unit = j :: [] ∧ handleIx vr.stream = 3 ∧ handleIx vr.act = 4 ∧ c.run = j.run ∧ c.running = true ∧ vr.col + vr.vecs ≤ 32 ∧
      (clOf s 0).latent = [] ∧ (clOf s 0).soft = [] ∧ (clOf s 0).poison = [] ∧
      (match (vgStream cs.fmt (rowElems ca) (streamBytes s 0 cs)).1 with | .ok rows => rows.length == 1 && whole | .error i => i == 0 && !whole) = true := by
  decide +kernel

/-- A command of `kind` that moves 64 bytes. -/
def moving (kind : Nat) (cell : Bool) : TeCmd :=
  { aCmd 0 with id := 5, running := true, kind := kind, rows := 1, len := 64, src := 0x40000000, dst := if cell then 0 else 0x40001000,
                index := 0x40002000, stride := 64, charged := 64, dstCell := cell, handle := if cell then hand else 0 }
def movingOn (kind : Nat) (cell : Bool) : State :=
  modCl (withCell (fun c => { opened c with rows := 3, pitch := 1, base := 7 }) base) 0 fun k => { k with te := [moving kind cell] }

def plain (s : State) (p : Part) : Bool := p.isComb || !isHbm p.pa || fget s.keys p.key == some (lineKeyOf s p.line)
def writable (s z : State) (va : Nat) (qs : List Part) : Bool :=
  (qs.all fun q => plain s q && (teWriteStop z va q).isNone) && decide (qs.Pairwise fun p q => p.pa + p.n ≤ q.pa ∨ q.pa + q.n ≤ p.pa)

theorem plain_iff (s : State) (p : Part) : plain s p = true ↔ Plain s p := by
  simp only [plain, Plain, Bool.or_eq_true, Bool.not_eq_true', beq_iff_eq, or_assoc]

theorem writable_iff (s z : State) (va : Nat) (qs : List Part) : writable s z va qs = true ↔ Writable s z va qs := by
  simp only [writable, Writable, Bool.and_eq_true, List.all_eq_true, plain_iff, Option.isNone_iff_eq_none, decide_eq_true_eq]

/-- Whether the ranges of a move translate, can be read and written, and hold what a key opens. -/
def movesAll (s x : State) (m : TeCmd) : Bool :=
  match tePieces x 0 m m.src 64 .read, teRead x 0 m m.src 64 m.noalloc with
  | (_, .ok ps), (y, .ok _) =>
    ps.all (plain s) &&
      match tePieces y 0 m m.dst 64 .write with
      | (z, .ok qs) => m.dstCell || writable s z m.dst qs
      | _ => m.dstCell
  | _, _ => false

/-- A row of each kind of command, to memory and to a cell. -/
theorem witness_TransferEvents_moves : ∀ kind ∈ [0, 1, 2], ∀ cell ∈ [false, true],
    let s := movingOn kind cell; let m := moving kind cell
    (teClass (clOf s 0)).bind (teNextOf (clOf s 0)) = some m ∧ (if kind = 0 then min m.len (4096 * (m.done + 1)) else m.len * (m.done + 1)) ≤ m.charged ∧
      m.dstPeer = none ∧ CleanMem s ∧
      (let x := if kind = 0 then s else (teRead s 0 m (m.index + 4 * m.done) 4 true).1
       (match (teRead s 0 m m.index 4 true).2 with | .ok b => leNat b == 0 | .error _ => false) = true ∧
        movesAll s x m = true ∧ (cell = true → (teCellStop x m 0 64).isNone)) := by
  simp only [CleanMem]; decide +kernel

/-- A queue with a command to start, with all its units done and not; a chunk to move, charged and not, to a full port and not;
each way to complete. -/
theorem witness_TransferEvents :
    (clOf base 0).te = [] ∧ (teClass (clOf base 0)).bind (teNextOf (clOf base 0)) = none ∧ teGet base 0 5 = none ∧
    (∀ d ∈ [0, 1], let m := { aCmd 0 with id := 5, dst := combKey 0 4096, done := d }
     let s := modCl base 0 fun k => { k with te := [m] }
     (clOf s 0).te = [m] ∧ m.cls < 4 ∧ m.running = false ∧ m.fail = 0 ∧ m.compl ≠ 2 ∧ (m.done = m.units ↔ d = 1)) ∧
    (∀ c ∈ [4095, 8192], let m := { aCmd 0 with id := 5, running := true, len := 8192, src := 0x40000000, dst := combVa 4096, charged := c }
     let s := modCl base 0 fun k => { k with te := [m] }
     (teClass (clOf s 0)).bind (teNextOf (clOf s 0)) = some m ∧ m.kind = 0 ∧ (m.charged < min m.len (4096 * (m.done + 1)) ↔ c = 4095) ∧
      m.units = 2 ∧ peerFull s m = false) ∧
    (∀ f ∈ [0, 0x04], ∀ k ∈ [0, 1, 3], let m := { aCmd 0 with id := 5, moved := true, compl := k, complAddr := combKey 0 64, fail := f }
      let s := modCl base 0 fun q => { q with te := [m], bars := [64] }
      teGet s 0 5 = some m ∧ m.moved = true ∧ ¬(m.scope = 2 ∧ m.rel = true) ∧ m.compl = k ∧
        m.complAddr % 2 ^ 22 = 64 ∧ (m.complAddr - 2 ^ 52) / 2 ^ 22 = 0 ∧ 64 ∈ (clOf s 0).bars ∧ 64 ∉ (clOf base 0).bars) ∧
    (let m := { aCmd 0 with id := 5, moved := true, scope := 2, rel := true }
     ({ m with unacked := 0 }).unacked = 0 ∧ (m.scope = 2 ∧ m.rel = true ∧ ({ m with unacked := 1 }).unacked ≠ 0)) ∧
    (let m := { aCmd 0 with id := 5, moved := true, compl := 2, complAddr := combKey 0 128 }
     let s := modCl base 0 fun q => { q with te := [m], cbs := [128] }
     (match teFilled s m 0 with | some (.ok _) => true | _ => false) = true) ∧
    (let m := { aCmd 0 with id := 5, moved := true, compl := 2, complAddr := combKey 0 128, handle := BitVec.ofNat 32 hand |>.toNat }
     let s (f : Cell → Cell) : State := modCl (withCell f (combPutNat base 0 128 128 (1 + 2 ^ 30 + 2 ^ 31))) 0 fun q => { q with te := [m], cbs := [128] }
     (match teFilled (s shut) m 0 with | some (.error _) => true | _ => false) = true ∧
      teFilled (s fun c => { opened c with counted := 1 }) m 0 = none) := by
  decide +kernel

/-- The bytes of a host record for slot 5. -/
def recBytes : List Byte := leBytes 64 (2 ^ 58 + 2 ^ 36 + 0x80 * 2 ^ 64 + 5 * 2 ^ 320)
/-- The issuer of a record waits for a queue of cluster 0. -/
def launching (r : LRec) (queued : Nat) : State :=
  modCl (modCtx base 0 fun c => { c with wait := .launch 0 r false }) 0 fun k => { k with lq := List.replicate queued (aRec .named 6) }

/-- Records at the ends of the aperture, malformed and whole; queues of 63 and of 64; class-0 records of one mesh cycle from two
sources; a named, a group's and a SPAWN record; a victim that is ready to be saved. -/
theorem witness_Scheduling :
    (hostShut base = false ∧ hostShut { base with devst := .bootFail } = true) ∧
    ((1 : Nat) % 64 ≠ 0 ∧ (recBytes.drop 1).length % 64 ≠ 0 ∧ 2 ^ 20 < 2 ^ 20 - 64 + (recBytes ++ recBytes).length) ∧
    (2 ^ 20 - 64) % 64 = 0 ∧ recBytes.length = 64 ∧ 2 ^ 20 - 64 + 64 ≤ 2 ^ 20 ∧ State.reset.devst ≠ .ready ∧ base.devst = .ready ∧
    base.stopped = false ∧ base.launchBuf.length < 1024 ∧ launchBad base recBytes (hostRec base recBytes) = none ∧
    (hostRec base recBytes).form ≠ .spawn ∧ (hostRec base recBytes).cls ≠ 0 ∧ base.launchBuf = [] ∧
    (let a : LRec := { aRec .named 6 with cls := 0, at_ := meshCyc base, src := .ctx 9 9 }
     let r : LRec := { aRec .named 5 with cls := 0 }
     a.cls = 0 ∧ r.cls = 0 ∧ a.at_ = meshCyc base ∧ recSrc r < recSrc a ∧ ¬recSrc a < recSrc r) := by
  decide +kernel

theorem witness_Scheduling_queues :
    (let r := { aRec .named 5 with src := .host }; let s := { base with launchBuf := [r] }
     s.launchBuf = [r] ∧ hostCluster s r = some 0 ∧ staleNamed s r = false ∧ launchHolder s r = none ∧
      ((clOf s 0).lq.filter (·.cls == r.cls)).length < 64) ∧
    (∀ n ∈ [63, 64], let r := aRec .named 5; let s := launching r n
      launchHolder s r = some 0 ∧ staleNamed s r = false ∧ (((clOf s 0).lq.filter (·.cls == r.cls)).length < 64 ↔ n = 63)) ∧
    (let r := aRec .spawn (combKey 0 64); let s := modCore (launching r 0) 0 fun k => { k with pool := 2, poolEff := 2 }
     launchHolder s r = some 0 ∧ (spawnOwners s r.target).all (poolless s) = false ∧ spawnFits s 0 r = true) ∧
    (let r := aRec .spawn 0x4000040; let o := spawnOwners base 0x4000040
     let s := modCore (launching r 0) (o.headD 0 * 8) fun k => { k with pool := 2 }
     launchHolder s r = some 0 ∧ (spawnOwners s r.target).all (poolless s) = false ∧ spawnFits s 1 r = false ∧
      spawnOwners s r.target = [o.getD 0 0, o.getD 1 0, o.getD 2 0] ∧ r.hops < 3 ∧ ({ r with hops := 3 } : LRec).hops = 3) ∧
    (let r := aRec .named 5; let s := modCl base 0 fun k => { k with lq := [r] }
     (clOf s 0).lq = [r] ∧ (clOf s 0).arrived = [] ∧ r.cls < 4 ∧ 5 = r.target % 2 ^ 15 ∧ idle s 5 = true ∧ staleNamed s r = false ∧
      fwdEntry s r.target = none ∧ r.deadline = none) ∧
    clusterOk (groupOf base 3).bcluster = true ∧
    (let r := aRec .group 3; let s := modCl (grouped 0) 0 fun k => { k with lq := [r] }
     r ∈ (clOf s 0).lq ∧ fget s.clusters 0 = some (clOf s 0) ∧ base.clusters.all (fun e => e.2.lq.all (·.seq != r.seq)) = true) ∧
    (let r := aRec .group 3; let s := modCl (grouped 0) 0 fun k => { k with arrived := [r] }
     (clOf s 0).lq = [] ∧ (clOf s 0).arrived = [r] ∧ (groupOf s r.target).valid = true ∧ r.cls < 4 ∧ pickCtx s 0 r = some 1 ∧ r.deadline = none ∧
      (let t := { s with groups := [(3, { (groupOf s 3) with valid := false })] }; pickCtx t 0 r = some 1 ∧ (groupOf t r.target).valid = false) ∧
      (let t := modCtx s 1 fun c => { c with active := true }; pickCtx t 0 r = none ∧ pickVictim t 0 r = none)) ∧
    (let r := aRec .group 3; let s := modCtx (grouped 0) 0 fun c => { c with preempt := some r }; let c := ctxOf s 0
     c.preempt = some r ∧ c.active = true ∧ c.dying = false ∧ c.wait = .none ∧ c.loads = [] ∧ c.sb = [] ∧ c.grant = none ∧
      (clOf s (slotCl 0)).te = [] ∧ (dieOf s (clDie (slotCl 0))).reqs = [] ∧ imagePend s 0 = none ∧ c.offAfter = false ∧ r.deadline = none ∧
      (groupOf s r.target).valid = true) := by
  decide +kernel

/-! ## Power, heat, migration, bring-up, host registers -/

theorem witness_PowerHeatAndMigration :
    (let s := { State.reset with gtcRun := true, gtc := 2000000 }; 3 < 4 ∧ s.gtcRun = true ∧ s.dies = []) ∧ (4 : Nat) ≤ 4 ∧
    State.reset.gtcRun = false ∧
    (let s := modCtx State.reset 5 fun c => { c with grant := some ⟨7, 0⟩ }; (ctxOf s 5).grant = some ⟨7, 0⟩ ∧ (0 : Nat) ≤ cycOf s 5) ∧
    (let s := modAvCtx State.reset 5 1 fun c => { c with grant := some ⟨7, 0⟩ }; (avCtx (avOf s 5) 1).grant = some ⟨7, 0⟩) ∧
    (clOf (modCl base 0 fun k => { k with order := some 3 }) 0).order = some 3 ∧
    (let s := modCtx { base with gtc := 2000000 } 15 fun c => { c with active := true, cls := 2, nameCxa := 15 }
     clusterOk (0 / 8) = true ∧ (dieOf s (clDie 0)).hot < 96 ∧ (coreOf s 0).lastOff = none ∧ offCount (coreOf s 0) < 12 ∧ givingUp s 0 = false ∧
      givingUp (modCtx s 3 fun c => { c with active := true, offAfter := true }) 0 = true ∧
      hotSlot s 0 = some 15 ∧ (ctxOf s 15).active = true ∧ (ctxOf s 15).preempt = none ∧ hotSlot base 0 = some 15 ∧ (ctxOf base 15).active = false ∧
      (let t := modDie (modCl s 0 fun k => { k with fwd := [(0, { gen := 0, origin := 15, here := 15, moving := false })] }) 0 fun d =>
         { d with ranks := [⟨0, 20, 5⟩, ⟨1, 30, 1⟩] }
       fwdEntry t (nameOf (ctxOf t 15)) ≠ none ∧
        (dieOf t (clDie 0)).ranks.find? (fun r => decide (1 ≤ r.free) && r.cluster != slotCl 15) = some ⟨1, 30, 1⟩)) := by decide +kernel

theorem witness_PowerHeatAndMigration_more :
    (let s := modCore { base with gtc := 2000000 } 0 fun k => { k with off := 0xFFF0, lastOn := some 1000000 }
     12 ≤ offCount (coreOf s 0) ∧ 89 + 5 < (dieOf s (clDie 0)).hot ∧ (coreOf s 0).off.getLsbD 4 = true ∧
      (∀ j < 4, (coreOf s 0).off.getLsbD j = false) ∧ 1000000 + 1000000 ≤ s.gtc ∧ (coreOf s 0).lastRegain = none) ∧
    (let s := modCl base 0 fun k => { k with base := 13 }; (clOf s 0).base < (clOf s 0).cap) ∧
    (let s := modCl (combPutNat { base with groups := [(3, { valid := true, members := 4 })] } 0 64 16 (2 ^ 63 + 2 ^ 62 + 3 * 2 ^ 64 + 3 * 2 ^ 16)) 0 fun k =>
       { k with bars := [64] }
     boostOn s 0 64 = true ∧ (∀ p ∈ (clOf s 0).boosts, p.off ≠ 64) ∧ boostOn base 0 64 = false) ∧
    (let h := { base.evq with owedIrq := true, moderate := 3, lastIrq := some 7 }; h.owedIrq = true ∧ 7 + h.moderate * 1000 ≤ 3007) ∧
    (base.evq.en = false ∧ base.evq.held.length < 256 ∧ base.evq.dropped = 0) ∧
    (let o := nameOf (ctxOf base 0); let f : Fwd := { gen := 0, origin := 0, here := 0, moving := true }
     let s (l : List Nat) : State := modCl (modCtx base 0 fun c => { c with moving := some (l, 1) }) 0 fun k => { k with fwd := [(0, f)] }
     whereIs (s [0, 3]) o = some 0 ∧ (ctxOf (s [0, 3]) 0).moving = some ([0, 3], 1) ∧ 3 ∈ [0, 3] ∧ [0, 3].filter (· != 3) ≠ [] ∧
      (let t := s []; let c := ctxOf t 0
       c.moving = some ([], 1) ∧ c.active = true ∧ c.dying = false ∧ c.wait = .none ∧ c.loads = [] ∧ c.sb = [] ∧ c.preempt = none ∧ c.grant = none ∧
        (clOf t 0).te = [] ∧ (clOf t 0).restarts = [] ∧ (∀ e ∈ t.clusters, e.2.spill = []) ∧ idleSlots t 1 ≠ [] ∧ o < 2 ^ 28 ∧
        fwdEntry t o = some f)) := by decide +kernel

theorem witness_PowerHeatAndMigration_quiet : ∀ j, (dieOf { State.reset with gtcRun := true, gtc := 2000000 } j).reqs = [] :=
  noReqs _ rfl

/-- Every state of bring-up. -/
theorem witness_BringUp :
    (hostShut base = false ∧ hostShut { base with devst := .bootFail } = true ∧ (7 : Nat) < 8 ∧ (8 : Nat) ≤ 8 ∧ (11 : Nat) < 12) ∧
    State.reset.devst = .reset ∧ (∀ d ∈ [DevSt.auth, .hbmTrain, .config, .bootFail], ({ State.reset with devst := d } : State).devst = d) ∧
    base.devst ≠ .config ∧ base.devst ≠ .bootFail ∧ BootResult.rollback ≠ .accepted ∧ (1 : Word).getLsbD 0 = true ∧
    State.reset.attBusy = false ∧ ({ State.reset with attBusy := true } : State).attBusy = true ∧
    ∀ d, (dieOf { State.reset with devst := .auth } d).reqs = [] :=
  ⟨by decide +kernel, rfl, by decide, by decide +kernel, by decide +kernel, by decide, by decide, rfl, rfl, noReqs _ rfl⟩

/-- Registers at the ends of BAR0, the last cluster, anvil, view and port; group entries open and closed; a queue at its
size and beyond. -/
theorem witness_HostRegisters :
    (0x3FFFFFF < 0x4000000 ∧ (2 : Nat) ≠ 4 ∧ (2 : Nat) ≠ 8) ∧ (0x3FFFFF8 < 0x4000000 ∧ 0x3FFFFF8 % 8 = 0) ∧
    (base.devst = .ready ∧ base.devid < 2 ^ 32 ∧ base.incarnation < 2 ^ 32 ∧ base.watts < 2 ^ 32 ∧ base.gtc < 2 ^ 64 ∧ base.badacc < 2 ^ 32 ∧
      base.asidroot < 2 ^ 64) ∧
    (∃ c < 256, clusterOk c = true) ∧ (∃ c < 512, clusterOk (c / 2) = true) ∧ State.reset.devst ≠ .ready ∧
    (∀ n < 16, (viewOf base n).st = .free ∨ (viewOf base n).st = .excluded) ∧
    (viewOf (modView base 15 fun v => { v with st := .active }) 15).st = .active ∧
    (hostShut base = false ∧ hostShut { base with devst := .bootFail } = true) ∧
    ((255 : Nat) < 256 ∧ 28 < 32 ∧ 28 % 4 = 0 ∧ (groupOf base 255).valid = false ∧
      (let s := { base with groups := [(255, { valid := true, members := 4 })] }; let g := groupOf s 255
       g.valid = true ∧ { groupFrom (setFld (groupVal g) 0 64 (groupVal g % 2 ^ 64)) with valid := true } = g ∧
        { groupFrom (setFld (groupVal g) 32 32 (groupVal g / 2 ^ 32 % 2 ^ 32)) with valid := true } = g ∧
        { groupFrom (setFld (groupVal g) 0 64 (2 ^ 64 - 1)) with valid := true } ≠ g ∧ 4 < 8 ∧ 0 + 4 < 8)) ∧
    (let s := { base with evq := { base.evq with prod := 64 } }
     (64 + 2 ^ 32 - 0) % 2 ^ 32 ≤ 2 ^ s.evq.logsize ∧ 2 ^ s.evq.logsize < (s.evq.prod + 2 ^ 32 - 65) % 2 ^ 32 ∧ s.evq.held = [] ∧
      s.evq.dropped = 0 ∧ s.fsq.held = []) := by
  refine ⟨by decide, by decide, by decide +kernel, ⟨0, by decide, by decide⟩, ⟨0, by decide, by decide⟩, ?_⟩
  decide +kernel

/-! ## Links and packets -/



/-- The device is 1; port 2 is up and leads to devices 3 and 7. -/
def linked : State :=
  { held base with devid := 1, routes := fset (fset base.routes 7 0x8002) 3 0x8002, ports := [(2, { (default : Port) with st := .up })], inboundEn := true,
                   inboundAsid := 1 }
/-- A flit of one packet, or of none, as a partner sends it. -/
def aFlit (ps : List Packet) (seq ack fkind : Nat) : List Byte := flitBytes (ps.flatMap packetBytes) seq ack [1, 2, 3, 4] fkind

theorem aFlit_sound (ps : List Packet) (seq ack fkind : Nat) (h : (ps.flatMap packetBytes).length ≤ 240) :
    (aFlit ps seq ack fkind).length = 256 ∧
    leNat ((aFlit ps seq ack fkind).drop 248) = (Config.crc64 ((aFlit ps seq ack fkind).take 248)).toNat := by
  obtain ⟨body, hb, e⟩ : ∃ body : List Byte, body.length = 248 ∧ aFlit ps seq ack fkind = body ++ leBytes 8 (Config.crc64 body).toNat := by
    refine ⟨_, ?_, rfl⟩
    simp only [List.length_append, List.length_replicate, leBytes_length]
    omega
  rw [e, ← hb, List.drop_left, List.take_left, leNat_leBytes]
  exact ⟨by simp [hb], Nat.mod_eq_of_lt (Config.crc64 body).isLt⟩

/-- Flits damaged, in order, ahead and behind; packets for this device, another and none; a packet of no data and of 224 bytes;
the fifteenth replay request and the sixteenth. -/
theorem witness_Flits :
    (portOf linked 2).st = .up ∧ (portOf linked 3).st ≠ .up ∧ ([] : List Byte).length ≠ 256 ∧
    (∀ n ∈ [0, 224], let k := aPkt 255 0 (List.replicate n 7)
      k.kind < 256 ∧ k.cls < 4 ∧ k.hops < 8 ∧ k.dest < 4096 ∧ k.source < 4096 ∧ k.tag < 65536 ∧ k.data.length ≤ 224 ∧ k.data.length % 16 = 0 ∧
       k.resv = false ∧ k.ce = none) ∧
    (∀ f ∈ [0, 1, 2], let ps := if f = 0 then [aPkt 1 0 []] else []
      let w := flitCtl (aFlit ps ((portOf linked 2).rxSeq + 1) 5 f); let sq := fld w 52 12; let ack := fld w 40 12
      (ps.flatMap packetBytes).length ≤ 240 ∧ w % 256 = f ∧ sq = ((portOf linked 2).rxSeq + 1) % 4096 ∧
       ((ack + 4096 - (portOf linked 2).ackSeq) % 4096 ≠ 0 ∧ (ack + 4096 - (portOf linked 2).ackSeq) % 4096 < 2048)) ∧
    (∀ d ∈ [2, 4095], let sq := fld (flitCtl (aFlit [] ((portOf linked 2).rxSeq + d) 5 1)) 52 12
      sq ≠ ((portOf linked 2).rxSeq + 1) % 4096 ∧ ((sq + 4096 - (portOf linked 2).rxSeq) % 4096 < 2048 ↔ d = 2)) ∧
    (∀ k ∈ [1, 8], let p := aPkt k 0 []; flitPackets (aFlit [p] 1 5 0) = [p] ∧ p.resv = false ∧ 1 ≤ p.kind ∧ p.kind ≤ 8 ∧ p.dest = linked.devid) ∧
    (∀ hp ∈ [3, 4], let p := { aPkt 1 0 [] with dest := 7, hops := hp }
     let s := { linked with ports := fset (fset linked.ports 2 { (default : Port) with st := .up }) 4 { (default : Port) with st := .up } }
     flitPackets (aFlit [p] 1 5 0) = [p] ∧ p.dest ≠ s.devid ∧ (p.hops < 4 ↔ hp = 3) ∧ p.source ≠ s.devid ∧ p.kind ≠ 7 ∧
      routeOf s p.dest = some (some 2) ∧ routeOf s p.source = some (some 2) ∧ 2 ≠ 4 ∧ (portOf s 4).st = .up) ∧
    ((packetAt ((packetBytes (aPkt 1 0 [])).set 14 1)).resv = true) ∧
    (∀ n ∈ [14, 15], let q := portOf (modPort linked 2 fun q => { q with reqRun := n, replay := [(4095, [])] }) 2
      (q.reqRun + 1 < 16 ↔ n = 14) ∧ 0 % 4096 = q.txSeq ∧ (∃ r ∈ q.replay, r.1 = 4095 % 4096) ∧
       (5 % 4096 ≠ q.txSeq ∧ ∀ r ∈ q.replay, r.1 ≠ 5 % 4096)) := by
  decide +kernel

/-- Writes at home, in comb and nowhere; CPUTs of no byte, of the last byte and one too many; AMOs of each width and none;
answers to a write, to an AMO and to nothing. -/
theorem witness_InboundPackets :
    ((aPkt 1 0 []).source ≠ linked.devid ∧ routeOf linked 3 = some (some 2) ∧ ({ linked with inboundEn := false } : State).inboundEn = false ∧
      linked.inboundEn = true ∧ (11 : Nat) < 12 ∧ (7 : Nat) % 256 = 7) ∧
    inPieces linked (2 ^ 48 - 2 ^ 44 + 64) 8 .write = .ok [combPart 64 8] ∧
    combStoreOk (inWalk linked (2 ^ 48 - 2 ^ 44 + 64) 8) (2 ^ 48 - 2 ^ 44 + 64) 0 64 8 = .ok () ∧
    inPieces linked 0x40000040 8 .write = .ok [hbmPart 8] ∧ (hbmPart 8).n = 8 ∧ (hbmPart 8).isComb = false ∧
    biBlocks (inWalk linked 0x40000040 8) (hbmPart 8).line = false ∧
    (inPend linked 0x40000040 8 = none ∧ waitsAhead linked (aPkt 1 0x40000040 (List.replicate 8 0)) = none ∧
      inPend { linked with backInv := (walkLines linked 1 0x40000040).map fun l => (l, aBi) } 0x40000040 8 = (walkLines linked 1 0x40000040).head? ∧
      let p := aPkt 1 0x40000040 (List.replicate 8 0)
      waitsAhead { linked with backInv := [(0x100001, { aBi with retry := [.inWrite 2 (aPkt 1 0x40000044 [0])] })] } p = some 0x100001) := by
  decide +kernel

theorem witness_InboundPackets_answers :
    okAnd (inPieces linked 0x80000000 8 .write) (fun _ => true) = false ∧
    (fld 1 0 8 ≠ 0 ∧ fld hand 0 8 = 0 ∧ clusterOk (handleCl hand) = true ∧ handleCl hand = 0 ∧ handleIx hand = 3) ∧
    (let k := cellOf (withCell opened linked) 0 3
     k.st = .opn ∧ k.dlx = false ∧ k.base * 512 + 15 + 1 ≤ spillBase linked 0 ∧ k.cgen = handleGen hand ∧ 16 + 0 ≤ k.extent ∧ 15 + 1 ≤ k.extent ∧ k.extent < 16 + 1) ∧
    (cellOf (withCell shut linked) 0 3).st ≠ .opn ∧ (cellOf (withCell (fun c => { opened c with dlx := true }) linked) 0 3).dlx ≠ false ∧
    (let s := modCl (withCell (fun c => { opened c with base := 8064 }) linked) 0 fun k => { k with spillSize := 4 }
     ¬(cellOf s 0 3).base * 512 + 0 + 1 ≤ spillBase s 0) ∧
    (∀ w ∈ [4, 8], 0x40000040 % w = 0 ∧ inPieces linked 0x40000040 w .amo = .ok [hbmPart w] ∧ (hbmPart w).n = w) ∧ 0x40000042 % 4 ≠ 0 ∧
    (∀ k ∈ [TagKind.write, .rsd], let r : TagRec := { kind := k, issuer := nameOf (cur base), dest := 3, port := 2, cls := 3, addr := 0, seq := 0 }
      let s := { linked with tags := [(6, r)] }
      fget s.tags 6 = some r ∧ whereIs s r.issuer = some 0 ∧ (ctxOf s 0).wait = .none) ∧
    (let r : TagRec := { kind := .amo 4 8, issuer := nameOf (cur base), dest := 3, port := 2, cls := 3, addr := 0, seq := 0 }
     let s := modCtx { linked with tags := [(6, r)] } 0 fun c => { c with wait := .remoteAmo 6 4 8 }; let c := ctxOf s 0
     fget s.tags 6 = some r ∧ whereIs s r.issuer = some 0 ∧ c.wait = .remoteAmo 6 4 8 ∧ c.priv = .u ∧ c.tl = 0 ∧ c.tvec ≠ 0) ∧
    fget linked.tags 6 = none ∧
    (let s := modCtx linked 0 fun c => { c with mailbox := List.replicate 7 (aMsg 1) }; let name := nameOf (ctxOf s 0)
     0 = name % 2 ^ 15 ∧ holds s 0 name = true ∧ fwdEntry s name = none ∧ (ctxOf s 0).mailbox.length < 8 ∧ s.clusters = [] ∧
      (ctxOf s 0).wait = .none) := by decide +kernel

theorem witness_InboundPackets_line : HeldLine (inWalk linked 0x40000040 8) (hbmPart 8) aHome ∧
    HeldLine (inWalk linked 0x40000040 4) (hbmPart 4) aHome := by
  simp only [HeldLine]; decide +kernel

/-- Every state of port 11, its timers at the first nanosecond at which they are due; a parent that is up. -/
theorem witness_LinksAndTime :
    (∀ st ∈ [PortSt.down, .training, .up, .retrain, .failed],
      let s := { modPort linked 11 (fun q => { q with st := st }) with gtc := 100000000 }
      hostShut s = false ∧ (portOf s 11).st = st ∧ s.devid ≠ 0xFFF ∧ (portOf s 11).since + 100000000 ≤ s.gtc ∧
       (portOf { s with gtc := s.deadTimeout * 100000 } 11).since + s.deadTimeout * 100000 ≤ ({ s with gtc := s.deadTimeout * 100000 } : State).gtc) ∧
    hostShut { linked with devst := .bootFail } = true ∧
    State.reset.devid = 0xFFF ∧
    (let s := { linked with gtcEn := true, gtcParent := 2, gtcRun := true, gtc := 100 }
     s.gtcEn = true ∧ s.gtcParent < 12 ∧ (portOf s s.gtcParent).st = .up ∧ s.gtcRun = true ∧ s.gtc + 20 < (121 + 0 / 2) % 2 ^ 64 ∧
      (120 + 1 / 2) % 2 ^ 64 ≤ s.gtc + 20) := by decide +kernel

/-! ## Views -/

/-- A view of devices 1 to 3 in slot 5; this device is number `me`. -/
def view3 : List Member := [⟨1, 0⟩, ⟨2, 0⟩, ⟨3, 0⟩]
def inSlot (me : Nat) (st : VSt) (f : ViewSlot → ViewSlot) : State :=
  modView { linked with devid := me, gtc := 3000000, routes := fset linked.routes 2 0x8002 } 5 fun v =>
    f { v with st := st, vid := 0x10002, view := view3, quorum := false, known := [(4, 3)] }
def aHdr (src vid : Nat) : CeHdr := { vid := vid, src := src, inc := 0 }
/-- The member words of the list as the runtime writes them. -/
def oneWord (d : Nat) : Word := memberWord ⟨d, 0⟩

/-- Slot 5 with members written in ascending order. -/
def written (ds : List Nat) : State := modView linked 5 fun v => { v with members := (List.range ds.length).zip (ds.map oneWord) }
def forming (hs : List Nat) : State :=
  inSlot 1 .forming fun v => { v with members := [(0, oneWord 1), (1, oneWord 2), (2, oneWord 3)], hellos := hs }

theorem writtenList_of (v : ViewSlot) (l : List Member) (h : v.members.map (fun p => memberOf p.2) = l)
    (hs : l.Pairwise fun a b => decide (a.dev ≤ b.dev) = true) : writtenList v = l := by
  rw [writtenList, h, ranked, List.mergeSort_of_pairwise hs]

theorem ceGate_of (s : State) (h : CeHdr) (n : Nat) (hn : ceSlotOf s h.vid = some n) (hj : (viewOf s n).joining = false)
    (hi : incOf (viewOf s n) h.src = some h.inc) (hv : h.vid = (viewOf s n).vid) (ha : (viewOf s n).agree = .idle) :
    ceGate s h = (modView s n id, some n) := by
  rw [hv] at hn
  simp [ceGate, ceGateAs, staleInc, hv, hn, hj, hi]
  unfold modView
  simp [ha]

/-- A FREE slot with two members written, with this device alone, and with another alone. -/
theorem witness_ViewFormation_form :
    (viewOf (written [1, 2]) 5).st = .free ∧ others (written [1, 2]) (writtenList (viewOf (written [1, 2]) 5)) ≠ [] ∧
    others (written [1]) (writtenList (viewOf (written [1]) 5)) = [] ∧ inView (writtenList (viewOf (written [1]) 5)) 1 = true ∧
    hostShut (written [1, 2]) = false ∧ (written [1]).ceOps = [] ∧ (written [1]).cePast = [] ∧ inView (writtenList (viewOf (written [2]) 5)) 1 = false := by
  rw [writtenList_of (viewOf (written [1, 2]) 5) [⟨1, 0⟩, ⟨2, 0⟩] (by decide +kernel) (by decide),
    writtenList_of (viewOf (written [1]) 5) [⟨1, 0⟩] (by decide +kernel) (by decide),
    writtenList_of (viewOf (written [2]) 5) [⟨2, 0⟩] (by decide +kernel) (by decide)]
  decide +kernel

/-- HELLO of the last member and of one before it. -/
theorem witness_ViewFormation_hello : ∀ hs ∈ [[], [2]], let t := modView (forming hs) 5 id; let u := viewOf t 5
    ceGate (forming hs) (aHdr 3 0x10002) = (t, some 5) ∧ u.st = .forming ∧ 3 ∉ u.hellos ∧ t.ceOps = [] ∧ t.cePast = [] ∧
    inView (writtenList u) t.devid = true ∧ ((∀ q ∈ writtenList u, q.dev = t.devid ∨ q.dev ∈ nins u.hellos 3) ↔ hs = [2]) := by
  have h : ∀ hs ∈ [[], [2]], writtenList (viewOf (modView (forming hs) 5 id) 5) = view3 ∧ writtenList (viewOf (forming hs) 5) = view3 := by
    intro hs h
    have : ∀ hs ∈ [[], [2]], (viewOf (modView (forming hs) 5 id) 5).members.map (fun p => memberOf p.2) = view3 ∧
      (viewOf (forming hs) 5).members.map (fun p => memberOf p.2) = view3 := by decide +kernel
    exact ⟨writtenList_of _ _ (this hs h).1 (by decide), writtenList_of _ _ (this hs h).2 (by decide)⟩
  intro hs hm t u
  refine ⟨ceGate_of _ _ _ ?_ ?_ ?_ ?_ ?_, ?_⟩
  case refine_3 =>
    have : (viewOf (forming hs) 5).st = .forming := by
      have : ∀ hs ∈ [[], [2]], (viewOf (forming hs) 5).st = .forming := by decide +kernel
      exact this hs hm
    simp only [incOf, this, (h hs hm).2]; rfl
  case refine_6 =>
    rw [show writtenList u = view3 from (h hs hm).1]
    revert hs; decide +kernel
  all_goals clear t u; revert hs; decide +kernel

/-- Timers when they are due; a JOIN of an excluded slot; requests to join at the candidate, elsewhere and of a known one. -/
theorem witness_ViewFormation :
    (let s := { inSlot 1 .forming id with gtc := 100000000 }; (viewOf s 5).formSince + 100000000 ≤ s.gtc ∧
      hostShut s = false ∧ hostShut { s with devst := .bootFail } = true) ∧
    (let s := inSlot 1 .active id; let v := viewOf s 5
     (∀ i < 16, i ≠ 5 → (viewOf s i).st ≠ .active) ∧ v.st = .active ∧ v.lastBeat + 50000 ≤ s.gtc ∧ v.view[1]? = some ⟨2, 0⟩ ∧
      2 ∈ neighbours s v ∧ 2 ∉ v.suspects ∧ 2 ≠ s.devid ∧ (fget v.beats 2).getD 0 + 400000 ≤ s.gtc ∧
      (ceGate s (aHdr 2 0x10002)).2 = some 5 ∧ v.vid % 2 ^ 16 ≠ 0xFFFF) ∧
    (let s := inSlot 1 .changing fun v => { v with agree := .proposing 0 view3 [] [] 0 7 }
     let u := viewOf (ceGate s (aHdr 2 0x10002)).1 5
     (ceGate s (aHdr 2 0x10002)).2 = some 5 ∧ u.st = .changing ∧ u.agree = .proposing 0 view3 [] [] 0 7) ∧
    (let s := inSlot 1 .excluded id
     (viewOf s 5).st = .excluded ∧
      (others s (viewOf s 5).view).find? (fun d => match routeOf s d with | some (some _) => true | _ => false) = some 2) ∧
    ceSlotOf linked 0x10002 = none ∧ ceSlotOf (inSlot 1 .active id) 0x10002 = some 5 ∧
    (candidate (viewOf (inSlot 2 .active id) 5) ≠ 2 ∧ candidate (viewOf (inSlot 1 .active id) 5) = 1 ∧
      recordedInc (viewOf (inSlot 1 .active id) 5) 4 = some 3 ∧ recordedInc (viewOf (inSlot 1 .active id) 5) 9 = none ∧
      incOf (viewOf (inSlot 1 .active id) 5) 4 = none ∧
      (viewOf (inSlot 1 .active id) 5).joining = false ∧ incOf (viewOf (inSlot 1 .active id) 5) 2 = some 0 ∧ (aHdr 2 0x10002).inc = 0) ∧
    (let s := inSlot 1 .excluded fun v => { v with joining := true }
     (ceGateAs s (aHdr 2 0x10002) true).2 = some 5 ∧ (ceGateAs s { aHdr 2 0x10002 with inc := 1 } true).2 = none) := by decide +kernel

/-- An ALLREDUCE of four elements among the three, started at device 1, with INPUT read; the same at an OP and a COUNT. -/
def aCe : CeOp :=
  { ceOpOf base 0 64 0 with id := 1, slot := 5, tag := 9, count := 4, held := false, vid0 := 0x10002, ran := 0x10002, start := [1, 2, 3],
                            live := [1, 2, 3], ready := true, inp := [1, 2, 3, 4] }

/-- Each row of the agreement table, this device being 1, 2 or 3 of the view; decisions with a member missing, with all, with a
majority and without; an install with this device and without. -/
theorem witness_ViewAgreement :
    (let s := inSlot 1 .changing fun v => { v with agree := .changing 2 1000000 }
     (viewOf s 5).agree = .changing 2 1000000 ∧ 1000000 + 2000000 ≤ s.gtc ∧ 2 ≠ s.devid) ∧
    (∀ me ∈ [1, 3], ∀ a ∈ [Agree.idle, .changing 2 7, .bound 2 3000000, .bound 1 7, .proposing 0 view3 [] [] 0 7],
      let s := inSlot me .changing fun v => { v with agree := a }; let g := ceGate s (aHdr 2 0x10002); let u := viewOf g.1 5
      g.2 = some 5 ∧ u.joining = false ∧ u.st = .changing ∧ u.agree = a ∧ inView view3 g.1.devid = true ∧
        (∀ m ∈ view3, inView u.view m.dev = true) ∧ (rankOf u 2 < rankOf u g.1.devid ↔ me = 3) ∧ inView [⟨2, 0⟩] g.1.devid = false ∧
        (∃ m ∈ view3, m.dev = 2 ∧ m.inc = 0)) ∧
    (let s := inSlot 1 .changing fun v => { v with agree := .bound 2 7 }
     let g := ceGate s (aHdr 2 0x10002); g.2 = some 5 ∧ (viewOf g.1 5).agree = .bound 2 s.gtc ∧ 2 ∉ (viewOf s 5).fetching ∧
      ceSlotOf s 0x10002 = some 5) ∧
    (candidate (viewOf (inSlot 3 .active fun v => { v with suspects := [1] }) 5) = 2) ∧
    (let s := inSlot 1 .active fun v => { v with fetching := [2] }; ceSlotOf s 0x10005 = some 5 ∧ 2 ∈ (viewOf s 5).fetching ∧
      incOf (viewOf s 5) 2 = some 0) ∧
    (let s (q : Bool) (l : List Member) (acks : List Nat) : State := inSlot 1 .changing fun v => { v with quorum := q, agree := .proposing 0 l acks [] 0 7 }
     let v (q : Bool) (l : List Member) (acks : List Nat) : ViewSlot := viewOf (s q l acks) 5
     (v false view3 [2]).agree = .proposing 0 view3 [2] [] 0 7 ∧ 0 + 1000000 ≤ (s false view3 []).gtc ∧ (∃ m ∈ view3, m.dev ≠ 1 ∧ m.dev ∉ [2]) ∧
      (∀ m ∈ view3, m.dev = 1 ∨ m.dev ∈ [2, 3]) ∧ (v false view3 [2, 3]).quorum = false ∧
      (v true view3 [2, 3]).view.length < 2 * ((v true view3 [2, 3]).view.filter fun m => inView view3 m.dev).length ∧
      2 * ((v true [⟨1, 0⟩] []).view.filter fun m => inView [⟨1, 0⟩] m.dev).length ≤ (v true [⟨1, 0⟩] []).view.length) ∧
    (let s := inSlot 1 .changing fun v => { v with agree := .bound 2 1000000 }
     (viewOf s 5).agree = .bound 2 1000000 ∧ (viewOf s 5).joining = false ∧ 1000000 + 2000000 ≤ s.gtc) ∧
    (let s := modCtx (inSlot 1 .changing id) 0 fun c => { c with mtrapm := 0x20 }
     s.ceOps = [] ∧ s.cePast = [] ∧ inView view3 s.devid = true ∧ s.saved = [] ∧ (ctxOf s 0).active = true ∧ (ctxOf s 0).mtrapm.getLsbD 5 = true ∧
      fget s.ctxs 0 = some (ctxOf s 0) ∧ inView [⟨2, 0⟩] s.devid = false) := by decide +kernel

/-- A PROPOSE with a joiner while a collective is in flight and while none is, at each row, this device before and after its sender. -/
theorem witness_ViewAgreement_waits : ∀ me ∈ [1, 3], ∀ a ∈ [Agree.idle, .changing 2 7, .bound 2 3000000, .proposing 0 view3 [1] [] 0 7],
    ∀ o ∈ [[], [aCe]],
      let s := { inSlot me .changing fun v => { v with agree := a } with ceOps := o }; let g := ceGate s (aHdr 2 0x10002); let u := viewOf g.1 5
      g.2 = some 5 ∧ u.agree = a ∧ inView (view3 ++ [⟨4, 1⟩]) g.1.devid = true ∧ (∃ m ∈ view3 ++ [⟨4, 1⟩], m ∉ u.view) ∧
        (ceFlying g.1 5 = true ↔ o ≠ []) ∧ (rankOf u 2 < rankOf u g.1.devid ↔ me = 3) := by decide +kernel

/-- Headers of no held family, of another incarnation, of an earlier view, of a stranger and of a later epoch, and at a slot that
joins; data of an operation that has started and of none, of one that ended by a MISMATCH, and a MISMATCH. -/
def aData : CeData :=
  { kind := .part, tag := 9, op := 0, redop := 0, ety := 0, count := 1, vid0 := 0x10002, chunk := 1023, range := rangeWord true 0 1, at_ := 0,
    whole := 1, elems := [1] }
theorem witness_CollectivePackets :
    ((ceGate linked (aHdr 2 0x10002)).2 = none ∧ ceSlotOf linked 0x10002 = none ∧ ceAhead linked (aHdr 2 0x10002) = none) ∧
    (let s := inSlot 1 .active id; let v := viewOf s 5
     ceSlotOf s 0x10002 = some 5 ∧ v.joining = false ∧ incOf v 2 ≠ some 1 ∧ 0x10001 < v.vid ∧ (0x10003 ≠ v.vid ∧ inView v.view 9 = false) ∧
      ceSlotOf s 0x10003 = some 5 ∧ incOf v 2 = some 0 ∧ v.vid % 2 ^ 16 < 0x10003 % 2 ^ 16 ∧ inView v.view 2 = true) ∧
    (let s := inSlot 1 .excluded fun v => { v with joining := true, view := [] }
     ceSlotOf s 0x10002 = some 5 ∧ (viewOf s 5).joining = true ∧ incOf (viewOf s 5) 2 = none) ∧
    (∀ l ∈ [[], [(5, 9, 2)]], let s := { inSlot 1 .active id with ceDead := l }; let t := (ceGate s (aHdr 2 0x10002)).1
      (ceGate s (aHdr 2 0x10002)).2 = some 5 ∧ t.ceOps.find? (fun o => o.slot == 5 && o.tag == aData.tag && !o.held) = none ∧
       ((5, aData.tag, 2) ∈ t.ceDead ↔ l ≠ []) ∧ aData.vid0 = (viewOf t 5).vid) := by
  decide +kernel

/-- The operation those data belong to. -/
def oneCe : CeOp := { ceOpOf base 0 64 0 with slot := 5, tag := 9, count := 1, held := false, vid0 := 0x10002 }

theorem witness_CollectivePackets_data :
    (let o := oneCe
     let s := { inSlot 1 .active id with ceOps := [o] }; let t := (ceGate s (aHdr 2 0x10002)).1
     (ceGate s (aHdr 2 0x10002)).2 = some 5 ∧ t.ceOps.find? (fun o => o.slot == 5 && o.tag == aData.tag && !o.held) = some o ∧
      aData.op = o.op ∧ aData.redop = o.redop ∧ aData.ety = o.ety ∧ aData.count = o.count ∧ aData.vid0 = o.vid0 ∧ aData.kind = .part ∧
      o.reweight = false ∧ o.past = false ∧ o.pieces = [] ∧ aData.whole ≤ aData.elems.length ∧ aData.elems.length < ({ aData with whole := 2 } : CeData).whole ∧ ({ aData with kind := .mismatch } : CeData).kind = .mismatch ∧ ({ aData with count := 2 } : CeData).count ≠ o.count) := by
  decide +kernel

/-- The slot of device `me` with the operation changed. -/
def running (me : Nat) (f : CeOp → CeOp) : State × CeOp := ({ inSlot me .active id with ceOps := [f aCe] }, f aCe)
def ceData (first cover chunk : Nat) (tree : Bool) (es : List Word) : CeData :=
  { aData with chunk := chunk, range := rangeWord tree first cover, count := 4, elems := es, whole := es.length }
/-- The ring of three over 16,384 binary32 elements. -/
def ringed (o : CeOp) : CeOp := { o with count := 16384 }

/-- Each place of the tree on the way up, the children of the root having come, and on the way down; an operation that the ring
runs, complete for ALLREDUCE, BROADCAST, REDUCESCATTER and ALLGATHER. -/
theorem witness_Collectives_tree :
    (∀ me ∈ [1, 2, 3], let (s, o) := running me fun o => { o with parts := [ceData 1 1 0 true [10, 20, 30, 40], ceData 2 1 0 true [5, 6, 7, 8]] }
     let n := o.n; let r := rankIn o.live s.devid; let inp (i : Nat) : List Word := if i = r then o.inp else if i = 1 then [10, 20, 30, 40] else [5, 6, 7, 8]
     ceGet s o.id = some o ∧ o.held = false ∧ o.reweight = false ∧ o.changed = false ∧ o.ready = true ∧ o.tree = true ∧ o.sent = [] ∧ o.chunks = [] ∧
      o.inp.length = o.inLen s.devid ∧ inp r = o.place s.devid ∧ (r ≠ 0 ↔ me ≠ 1) ∧
      (∀ i ∈ [2 * r + 1, 2 * r + 2], i < n → ∃ d ∈ o.parts, o.parts.find? (fun d => d.tree && d.first == o.rk i) = some d ∧ d.elems = treeSum o inp 0 i)) ∧
    (∀ op ∈ [0, 1], let (s, o) := running 2 fun o => { o with op := op, sent := [0], chunks := [(0, [1, 2, 3, 4])] }
     ceGet s o.id = some o ∧ o.tree = true ∧ o.sent = [0] ∧ o.chunks = [(0, [1, 2, 3, 4])]) ∧
    (∀ op ∈ [0, 1, 2, 3], let all := if op = 2 then List.range 9 else List.range 3
     let (s, o) := running 2 fun o => { ringed o with op := op, sent := List.range 18, chunks := all.map fun c => (c, [1]) }
     o.tree = false ∧ rankIn o.live s.devid < o.n ∧ (∀ c < o.n, 2 * c ∈ o.sent) ∧ (∀ p ∈ o.chunks, 2 * p.1 + 1 ∈ o.sent) ∧ (∀ c ∈ all, fget o.chunks c = some [1])) := by
  decide +kernel

/-- A chunk at its first member, at one whose partial has come and at one that waits, chunks at both ends; a sum to pass on and at
the member before its first; the chunks of ALLGATHER and of a BROADCAST at its root. -/
theorem witness_Collectives_ring :
    (∀ c ∈ [0, 1, 2], ∀ come ∈ [true, false],
     let (s, o) := running 1 fun o => { ringed o with parts := if come then [ceData ((c + 1) % 3) ((3 - (c + 1) % 3) % 3) c false [9]] else [] }
     let r := rankIn o.live s.devid; let org := (c + 1) % o.n; let k := (r + o.n - org) % o.n
     let find := o.parts.find? fun d => d.chunk == c && !d.tree && d.first == o.rk org && d.cover == k
     o.changed = false ∧ c < o.n ∧ 2 * c ∉ o.sent ∧ (r = org ↔ c = 2) ∧ (r = c ↔ c = 0) ∧ (find = none ↔ come = false)) ∧
    (∀ op ∈ [0, 2, 3], let (s, o) := running 1 fun o => { ringed o with op := op, root := 2, chunks := [(0, [1]), (1, [2]), (3, [4])] }
     ∀ c ∈ [0, 1, 3], fget o.chunks c ≠ none ∧ 2 * c + 1 ∉ o.sent ∧ o.op ≠ 1 ∧
      ((rankIn o.live s.devid + 1) % o.n = (if o.op = 3 then rankIn o.live o.root else if o.op = 2 then c / o.n else c) ↔
        op = 3 ∨ (op = 0 ∧ c = 1) ∨ (op = 2 ∧ c = 3))) ∧
    (∀ op ∈ [2, 3], let (s, o) := running 1 fun o => { o with op := op, root := 1 }
     o.changed = false ∧ o.inp.length = o.count ∧ (o.op = 2 ∨ (o.op = 3 ∧ o.root = s.devid)) ∧ o.chunks = [] ∧ 0 < o.n) := by
  decide +kernel

/-- An end whose OUTPUT is written, one whose OUTPUT does not translate. -/
theorem witness_Collectives_ends :
    (let (s, o) := running 1 fun o => { o with output := 0x40000000 }
     o.past = false ∧ CleanMem s ∧ (match tePieces s o.own (ceCmd o) o.output (o.bytes o.inp).length .write with
       | (z, .ok qs) => writable s z o.output qs | _ => false) = true) ∧
    (let (s, o) := running 1 fun o => { o with output := 0x80000000 }
     o.past = false ∧ (match tePieces s o.own (ceCmd o) o.output (o.bytes o.inp).length .write with
       | (_, .error (.inr _)) => true | _ => false) = true) := by
  simp only [CleanMem]; decide +kernel

/-- Device 2 is gone: each policy, OP and member that may be missing; the members that remain all living or not; a partial kept, the
longer of two, and none; the values a combiner needs there, beside a kept partial and without one. -/
theorem witness_Collectives_changes :
    (∀ pol ∈ [0, 1, 2], ∀ op ∈ [0, 1, 2, 3, 4], ∀ root ∈ [1, 2],
     let (s, o) := running 1 fun o => { ringed o with policy := pol, op := op, root := root }
     let s := modView s 5 fun v => { v with view := [⟨1, 0⟩, ⟨3, 0⟩] }
     let live := o.start.filter fun d => inView (viewOf s o.slot).view d; let p := { o with live := live, ran := (viewOf s o.slot).vid }
     live = [1, 3] ∧ ceGet s o.id = some o ∧ (o.root ∉ live ↔ root = 2) ∧ (p.tree = true ↔ op = 4) ∧ ¬(∀ d ∈ o.live, d ∈ live) ∧ o.redop < 2) ∧
    (let (s, o) := running 1 id; ∀ d ∈ o.live, d ∈ o.start.filter fun d => inView (viewOf s o.slot).view d) ∧
    (let p1 := ceData 1 1 0 false [5]; let p2 := ceData 1 2 0 false [6]
     let o := (running 1 fun o => { ringed o with live := [1, 2, 3], parts := [p1, p2] }).2
     keptOf o 0 = some p2 ∧ keptOf o 1 = none ∧ (∀ i < p2.cover, (p2.first + i) % o.start.length ∈ o.ranks) ∧ p2.first = (0 + 1) % o.start.length) ∧
    (let o := (running 1 fun o => { ringed o with live := [1, 3], got := [(2, ceData 2 1 1 false [7])], parts := [ceData 2 1 1 false [6]] }).2
     keptOf o 1 = some (ceData 2 1 1 false [6]) ∧
     (∀ range ∈ [[], [2]], ∀ r ∈ ((List.range 3).map fun i => (1 + 1 + i) % 3).filter (fun r => decide (r ∈ o.ranks ∧ r ∉ range)), r ≠ 0 →
        o.got.find? (fun p => p.1 == r && p.2.chunk == 1 && p.2.kind == .part) = some (r, ceData 2 1 1 false [7]))) := by
  decide +kernel

/-- Values of each element type at the ends of their ranges; numbers of binary16 and bfloat16. -/
theorem witness_Collectives_sums : ((2 ^ 31 : Nat) < 2 ^ 32 ∧ (2 ^ 64 - 1 : Nat) < 2 ^ 64) ∧
    (unpack .f32 0x7FC00000).isNan = true ∧ (unpack .f32 0x80000000).isNan = false ∧
    (∀ f ∈ [Fmt.bf16, .fp16], ∃ n m e, unpack f 0x7BFF = .num n m e) := by
  refine ⟨by decide, by decide +kernel, by decide +kernel, fun f hf => ?_⟩
  have : ∀ f ∈ [Fmt.bf16, .fp16], (match unpack f 0x7BFF with | .num .. => true | _ => false) = true := by decide +kernel
  have := this f hf
  revert this; cases unpack f 0x7BFF <;> simp

/-- The greatest number, infinity and a NaN of a format; nothing, and a pair that is not nothing, to sum. -/
theorem witness_ScalarFloatForms_values :
    (∀ f ∈ [Fmt.fp16, .bf16, .f32, .f64], (unpack f f.maxBits != .nan false && !(unpack f f.maxBits).isNan && unpack f f.maxBits != .inf false &&
      unpack f f.infBits == .inf false && (unpack f f.nanBits).isNan && unpack f 0 == unpack f 0 && (unpack f 0).isZero &&
      (unpack f (f.signed true f.infBits)) == .inf true) = true) ∧
    (∀ f ∈ [Fmt.fp16, .bf16, .e4m3, .e5m2], IsNum (unpack f 0x38)) ∧ ratOf (unpack .fp16 0x3C00) * ratOf (unpack .fp16 0x3C00) ≠ 0 := by
  refine ⟨by decide +kernel, fun f hf => ?_, ?_⟩
  · have : ∀ f ∈ [Fmt.fp16, .bf16, .e4m3, .e5m2], (match unpack f 0x38 with | .num .. => true | _ => false) = true := by decide +kernel
    have := this f hf
    revert this; cases unpack f 0x38 <;> simp [IsNum]
  · rw [show unpack .fp16 0x3C00 = .num false 1024 (-10) by decide +kernel]; norm_num [ratOf]

/-! ## Words and the step -/

theorem witness_SwarmWordsAreExact : Instr.wellFormed (.add 31 0 31 true) = true ∧ swarmWord (.add 31 0 31 true) = some 0x07E0F900 ∧
    (0x07E0F900 : Nat) < 2 ^ 32 ∧ decodeSwarm 0x07E0F900 = some (.add 31 0 31 true) := by decide +kernel

theorem witness_SlotWordsDecode : Instr.wellFormed (.loop 5 3 15 0x3FF) = true ∧ (slotWord (.loop 5 3 15 0x3FF)).isSome = true := by
  decide +kernel

/-- The word of an ADD, and one that decodes to nothing, placed at the pc; a timer that is due; an event on the agenda. -/
theorem witness_StepRunsTheDecoded :
    (∀ w ∈ [0x04A63800, 0], let s := modCtx (placeWord State.reset w) 0 fun c => { c with tvec := 0x80 }
      let s1 := beginCycle { s with turns := [] } 0
      s.due = [] ∧ s.agenda = [] ∧ s.turns = .core 0 [] :: [] ∧ (barrelPick s1 0 []).map Prod.fst = some 0 ∧ asyncDue s1 0 = none ∧
      handlerDue (ctxOf s1 0) = false ∧ boundaryHeld s1 0 = false ∧ (ctxOf s1 0).pc ≠ 0 ∧ (match fetchWord s1 0 with | .word v _ => v == w | _ => false) = true) ∧
    decodeSwarm 0x04A63800 = some (.add 5 6 7 false) ∧ decodeSwarm 0 = none ∧
    ({ base with due := [.driftTick 0] } : State).due = .driftTick 0 :: [] ∧
    (let s := { base with agenda := [.deviceReset], held := deferLimit }; s.due = [] ∧ s.agenda ≠ [] ∧ agendaPick s = some 0 ∧ s.agenda[0]? = some .deviceReset) := by
  decide +kernel

/-- The word given at the pc of slot 0, with f applied to the context: the instruction issues, is held, traps, holds the divider. -/
noncomputable def issueOf (w : Nat) (f : Ctx → Ctx) : Option (Bool × Bool × Bool × Bool) :=
  let s1 := beginCycle { modCtx (placeWord State.reset w) 0 f with turns := [] } 0
  match fetchWord s1 0, barrelPick s1 0 [] with
  | .word v t, some (i, b) =>
    let at_ := issued t 0 i b
    match decodeSwarm v with
    | some ins => match exec ins at_ with
      | .next u => if (coreOf t 0).divWait == [] && (ctxOf t 0).loads == [] && !heldUp u 0 then
          some (interlocked at_ 0 ins, trapped at_ u 0, (divCycles (ctxOf at_ 0) ins).isSome, true) else none
      | _ => none
    | none => none
  | _, _ => none

/-- An ADD; a DIV that completes, and one by zero; an ADD whose operand is not ready. -/
theorem witness_StepRunsTheDecoded_issue :
    issueOf 0x04A63800 id = some (false, false, false, true) ∧
    issueOf ((encodeInt (.div 5 6 7 false)).getD 0) (fun c => c.setX 7 3) = some (false, false, true, true) ∧
    issueOf ((encodeInt (.div 5 6 7 false)).getD 0) (fun c => { c with tvec := 0x80 }) = some (false, true, false, true) ∧
    issueOf 0x04A63800 (fun c => { c with busy := [(6, 1000)] }) = some (true, false, false, true) := by decide +kernel

/-- A bundle of one slot behind three NOPs in the instruction memory of anvil 0. -/
theorem witness_StepRunsTheDecoded_anvil :
    let s := { onAv id with mem := memWrite (onAv id).mem (imemKey 0 12) (leBytes 4 (encodeWord (.sli 2 5) + 2 ^ 31)) }
    let v := { s with av := 0 }; let c := icx v
    c.running = true ∧ (avOf s 0).switchEnd ≤ (avOf s 0).cyc ∧ c.readyAt ≤ (avOf s 0).cyc ∧
    (match fetchBundle v 0 c.pc with
      | .ok ss => (((List.range ss.length).zip ss).filter fun i => i.2.op != .nop && c.gateOk i.2.gate) ==
          [(3, { stop := true, unit := fld (encodeWord (.sli 2 5)) 27 4, gate := 0, op := .sli 2 5 })] && may v (.sli 2 5)
      | _ => false) = true := by decide +kernel

/-- Steps are taken from states whose memory is canonical. -/
theorem witness_StepKeepsMemoryCanonical : Safety.Inv base ∧ ∃ t, step base = .next t := by
  refine ⟨by simp only [Safety.Inv]; decide +kernel, ?_⟩
  have h : (match step base with | .next _ => true | _ => false) = true := by decide +kernel
  revert h
  cases step base <;> simp

end Sys2Proof.Tests
end

section
/-!
SUPPORT. Frames shared by the events of memory, power and bring-up: folds that keep a part of the state, what an event
record writes, and which part of a cluster a change leaves.
-/

namespace Sys2Proof.Machine

/-! ## Folds and lists -/

/-- A fold whose every step keeps a part of the state keeps it. -/
theorem foldl_keeps {σ β γ : Type} (π : σ → γ) (f : σ → β → σ) (h : ∀ s b, π (f s b) = π s) (l : List β) (s : σ) :
    π (l.foldl f s) = π s := by
  induction l generalizing s with
  | nil => rfl
  | cons b l ih => rw [List.foldl_cons, ih, h]

/-- A count that sticks at 16 bits. -/
theorem sat_16 (n : Nat) : sat n 16 = min n 65535 := rfl

/-! ## Memory without some of its bytes -/

theorem memGet_filter_kept {m : Mem} {p : Host.Cell → Bool} {a : Nat} (h : ∀ b, p (a, b) = true) :
    memGet (m.filter p) a = memGet m a := by
  simp only [memGet, fget_filter_ne m p a h]

theorem memGet_filter_dropped {m : Mem} {p : Host.Cell → Bool} {a : Nat} (h : ∀ b, p (a, b) = false) :
    memGet (m.filter p) a = 0 := by
  have hn : fget (m.filter p) a = none := by
    induction m with
    | nil => rfl
    | cons q t ih =>
      obtain ⟨k, w⟩ := q
      by_cases hk : k = a
      · subst hk; simp [h, ih]
      · by_cases hp : p (k, w) = true <;> simp [hp, fget, hk, ih]
  simp [memGet, hn]

theorem memRead_congr {m m' : Mem} {a n : Nat} (h : ∀ x, a ≤ x → x < a + n → memGet m' x = memGet m x) :
    memRead m' a n = memRead m a n := by
  induction n generalizing a with
  | zero => rfl
  | succ k ih => rw [memRead, memRead, h a (by omega) (by omega), ih fun x h1 h2 => h x (by omega) (by omega)]

/-- Reading a range byte by byte. -/
theorem map_memGet_eq_memRead (m : Mem) (a n : Nat) : (List.range n).map (fun i => memGet m (a + i)) = memRead m a n := by
  induction n generalizing a with
  | zero => rfl
  | succ k ih =>
    have e : (fun i => memGet m (a + i)) ∘ Nat.succ = fun i => memGet m (a + 1 + i) := by
      funext i; simp only [Function.comp_apply, Nat.succ_eq_add_one]; congr 1; omega
    rw [List.range_succ_eq_map, List.map_cons, List.map_map, e, ih]
    rfl

/-! ## Parts of the state that an operation keeps -/

/-- A part of the state and the bytes below host memory stand as before. -/
structure Keeps {α : Type} (π : State → α) (s t : State) : Prop where
  rest : π t = π s
  low : ∀ a < 2 ^ 48, memGet t.mem a = memGet s.mem a

namespace Keeps
variable {α β : Type} {π : State → α} {s t u : State}

theorem refl (s : State) : Keeps π s s := ⟨rfl, fun _ _ => rfl⟩

theorem trans (h : Keeps π s t) (h' : Keeps π t u) : Keeps π s u :=
  ⟨h'.rest.trans h.rest, fun a ha => (h'.low a ha).trans (h.low a ha)⟩

/-- What is kept of a part is kept. -/
theorem of_part (g : α → β) (h : Keeps π s t) : Keeps (fun x => g (π x)) s t := ⟨congrArg g h.rest, h.low⟩

/-- A change that leaves memory alone. -/
theorem of_mem (h : π t = π s) (hm : t.mem = s.mem) : Keeps π s t := ⟨h, fun a _ => by rw [hm]⟩

end Keeps

/-! ## Event records (R122, R123) -/

/-- The state without what an event record writes. -/
def unrecorded (s : State) : State := { s with mem := [], evq := {}, irqs := [] }

/-- An event record writes the queue, the ring in host memory and the count of interrupts alone. -/
theorem eventBytes_keeps (s : State) (bs : List Byte) : Keeps unrecorded s (eventBytes s bs) := by
  unfold eventBytes
  split
  · exact ⟨rfl, fun a ha => memGet_memWrite_out _ _ _ _ (.inl (by omega))⟩
  · split <;> exact .of_mem rfl rfl

/-- A record is held while the queue is disabled and fewer than 256 are held. -/
theorem eventBytes_held (s : State) (bs : List Byte) (he : s.evq.en = false) (hn : s.evq.held.length < 256) :
    eventBytes s bs = { s with evq := { s.evq with held := s.evq.held ++ [bs] } } := by
  simp [eventBytes, he, hn]

/-! ## Clusters -/

theorem dieOf_modDie_ne (s : State) (d j : Nat) (f : Die → Die) (h : j ≠ d) : dieOf (modDie s d f) j = dieOf s j := by
  simp [dieOf, modDie, fget_fset_ne _ _ _ _ h]

/-- A change of one cluster keeps what it keeps of that cluster, for every cluster. -/
theorem modCl_part {α : Type} (π : Cluster → α) (s : State) (k j : Nat) (f : Cluster → Cluster)
    (h : π (f (clOf s k)) = π (clOf s k)) : π (clOf (modCl s k f) j) = π (clOf s j) := by
  by_cases hj : j = k
  · subst hj; rw [clOf_modCl, h]
  · rw [clOf_modCl_ne _ _ _ _ hj]

theorem fget_map {α β : Type} (m : FMap α) (f : α → β) (k : Nat) :
    fget (m.map fun p => (p.1, f p.2)) k = (fget m k).map f := by
  induction m with
  | nil => rfl
  | cons p t ih => by_cases h : p.1 = k <;> simp [fget, h, ih]

/-- A change of every listed cluster keeps what it keeps of each. -/
theorem mapCl_part {α : Type} (π : Cluster → α) (s : State) (j : Nat) (f : Cluster → Cluster) (h : ∀ c, π (f c) = π c) :
    π (clOf { s with clusters := s.clusters.map fun p => (p.1, f p.2) } j) = π (clOf s j) := by
  simp only [clOf, fget_map]
  cases fget s.clusters j <;> simp [h]

end Sys2Proof.Machine
end

section
/-!
CERTIFICATES. Reset and bring-up (R43 to R46, R101, R102).
-/

namespace Sys2Proof.Safety

open Sys2Proof.Machine

/-- Settles O52: each value is the default of its field, and a unit that no table lists stands in its reset state. -/
theorem resetValues : Obligations.ResetValues :=
  ⟨rfl, rfl, rfl, rfl, fun _ => rfl, fun _ => ⟨rfl, rfl⟩, fun _ => ⟨rfl, rfl⟩, rfl, rfl, rfl, rfl, rfl, rfl, rfl,
    fun _ => ⟨rfl, rfl, rfl, rfl, rfl⟩, fun _ => ⟨rfl, rfl⟩, rfl⟩

end Sys2Proof.Safety

namespace Sys2Proof.Machine

/-! ## What the events of bring-up run -/

theorem exec_deviceReset (s : State) : exec .deviceReset s = execDeviceReset s := rfl
theorem exec_resetRelease (s : State) : exec .resetRelease s = execResetRelease s := rfl
theorem exec_bootAuth (s : State) (r : BootResult) : exec (.bootAuth r) s = execBootAuth r s := rfl
theorem exec_hbmTrainDone (s : State) (u : Option Nat) : exec (.hbmTrainDone u) s = execHbmTrainDone u s := rfl
theorem exec_devstatGo (s : State) : exec .devstatGo s = execDevstatGo s := rfl
theorem exec_fwcmd (s : State) (v : Word) : exec (.fwcmd v) s = execFwcmd v s := rfl
theorem exec_attcmd (s : State) (v : Word) : exec (.attcmd v) s = execAttcmd v s := rfl
theorem exec_attestationReportDone (s : State) : exec .attestationReportDone s = execAttestationReportDone s := rfl

/-! ## The first window (R23) -/

/-- A bellows at which nobody waits does nothing. -/
theorem bellows_of_no_reqs (s : State) (d : Nat) (h : (dieOf s d).reqs = []) : bellows s d = s := by
  rw [bellows, h]; rfl

/-- The first window of a die at whose bellows nobody waits. -/
theorem firstWindow_of_no_reqs (s : State) (d : Nat) (h : (dieOf s d).reqs = []) :
    firstWindow s d = modDie s d fun e => { e with level := ((s.watts * 500 : Nat) : Int), b := s.watts * 500, win := e.win + 1 } :=
  bellows_of_no_reqs _ _ (by simp [h])

/-- First windows of several dies write the table of dies alone: level and budget of each. -/
theorem firstWindows_eq (l : List Nat) (s : State) (h : ∀ d, (dieOf s d).reqs = []) :
    ∃ m, l.foldl firstWindow s = { s with dies := m } ∧
      ∀ d, (d ∈ l ∨ ((dieOf s d).level = ((s.watts * 500 : Nat) : Int) ∧ (dieOf s d).b = s.watts * 500)) →
        (dieOf { s with dies := m } d).level = ((s.watts * 500 : Nat) : Int) ∧ (dieOf { s with dies := m } d).b = s.watts * 500 := by
  induction l generalizing s with
  | nil => exact ⟨s.dies, rfl, fun d hd => hd.resolve_left List.not_mem_nil⟩
  | cons k l ih =>
    have e := firstWindow_of_no_reqs s k (h k)
    have hq : ∀ d, (dieOf (firstWindow s k) d).reqs = [] := fun d => by
      rw [e]
      by_cases hd : d = k
      · subst hd; simp [h]
      · rw [dieOf_modDie_ne _ _ _ _ hd, h]
    obtain ⟨m, hm, hl⟩ := ih (firstWindow s k) hq
    refine ⟨m, hm.trans (by rw [e]; rfl), fun d hd => ?_⟩
    rw [e] at hl
    refine hl d ?_
    by_cases hk : d = k
    · subst hk; right; simp
    · rw [dieOf_modDie_ne _ _ _ _ hk]
      simpa [hk] using hd

theorem bit_zero_eq_getLsbD (v : Word) : bit v.toNat 0 = v.getLsbD 0 := by
  rw [BitVec.getLsbD, Nat.testBit_zero, bit, fld, pow_zero, Nat.div_one, pow_one, beq_eq_decide]

end Sys2Proof.Machine

namespace Sys2Proof.Safety

open Sys2Proof.Machine

/-! ## The state machine of bring-up (R46) -/

/-- R43, R46: the release of reset starts the check of the image in flash, and the link trains. -/
theorem resetRelease_starts_auth {s : State} (h : s.devst = .reset) : Does .resetRelease s fun t => t.devst = .auth ∧
    (∃ o, t.agenda = s.agenda ++ [.bootAuth o]) ∧ t.linkRate ∈ [4, 5, 6] ∧ t.linkWidth ∈ [4, 8, 16] ∧ SameMem s t ∧
    t.ctxs = s.ctxs := by
  rw [Does, exec_resetRelease, execResetRelease, if_neg (by simp [h])]
  refine ⟨_, rfl, rfl, ⟨_, rfl⟩, ?_, ?_, fun _ => rfl, rfl⟩
  · have : (Config.freeWord s.fresh).toNat % 3 < 3 := Nat.mod_lt _ (by decide)
    simp only [startBoot, draw, later, List.mem_cons, List.not_mem_nil, or_false]
    omega
  · simp only [startBoot, draw, later]
    split
    · simp
    · split <;> simp

/-- R23, R46: an accepted image starts the GTC and the first window of every die. -/
theorem bootAuth_accepted {s : State} (h : s.devst = .auth) (hq : ∀ d, (dieOf s d).reqs = []) :
    Does (.bootAuth .accepted) s fun t => t.devst = .hbmTrain ∧ t.gtcRun = true ∧ t.gtc = s.gtc ∧
      t.fwBusy = false ∧ t.fwResult = 0 ∧ (∃ f, t.agenda = s.agenda ++ [.hbmTrainDone f]) ∧
      ∀ d < 4, (dieOf t d).level = ((s.watts * 500 : Nat) : Int) ∧ (dieOf t d).b = s.watts * 500 := by
  obtain ⟨m, hm, hl⟩ := firstWindows_eq (List.range 4)
    { s with devst := .hbmTrain, gtcRun := true, fwBusy := false, fwResult := 0, fresh := s.fresh + 1 } hq
  rw [Does, exec_bootAuth, execBootAuth, if_neg (by simp [h])]
  simp only [draw, hm]
  exact ⟨_, rfl, rfl, rfl, rfl, rfl, rfl, ⟨_, rfl⟩, fun d hd => hl d (.inl (List.mem_range.2 hd))⟩

/-- R43: a check that fails ends in BOOT_FAIL, with its reason. -/
theorem bootAuth_rejected {s : State} (h : s.devst = .auth) {r : BootResult} (hr : r ≠ .accepted) :
    exec (.bootAuth r) s = .next { s with
      devst := .bootFail, fwBusy := false, fwResult := if r = .badSignature then 1 else if r = .rollback then 2 else 3 } := by
  have hs : ¬s.devst ≠ .auth := by simp [h]
  cases r with
  | accepted => exact absurd rfl hr
  | badSignature | rollback | readError => exact if_neg hs

/-- R46: training brings HBM up at zero, under the key of slot 0, or fails at a unit. -/
theorem hbmTrainDone_ok {s : State} (h : s.devst = .hbmTrain) :
    Does (.hbmTrainDone none) s fun t => t.devst = .config ∧ t.poison = [] ∧ t.lineKey = [] ∧
      (∀ a, a < 2 ^ 40 → memGet t.mem a = 0) ∧ ∀ a, 2 ^ 40 ≤ a → memGet t.mem a = memGet s.mem a := by
  rw [Does, exec_hbmTrainDone, execHbmTrainDone, if_neg (by simp [h])]
  exact ⟨_, rfl, rfl, rfl, rfl, fun a ha => memGet_filter_dropped fun _ => by simpa using ha,
    fun a ha => memGet_filter_kept fun _ => by simpa using ha⟩

theorem hbmTrainDone_failed {s : State} (h : s.devst = .hbmTrain) (u : Nat) :
    exec (.hbmTrainDone (some u)) s = .next { s with devst := .failed, failsrc := trainSrc u } := by
  rw [exec_hbmTrainDone, execHbmTrainDone, if_neg (by simp [h])]

/-- R43, R101: a firmware load in BOOT_FAIL reads the image and starts the check again. -/
theorem fwcmd_loads {s : State} {v : Word} (h : s.devst = .bootFail) (hv : v.getLsbD 0 = true) :
    Does (.fwcmd v) s fun t => t.devst = .auth ∧ t.fwBusy = true ∧ (∃ o, t.agenda = s.agenda ++ [.bootAuth o]) ∧
      t.fwDigest = sha256 (memRead s.mem (2 ^ 48 + s.fwaddr) s.fwlen) ∧ SameMem s t := by
  rw [Does, exec_fwcmd, execFwcmd, if_neg (by simp [h]), bit_zero_eq_getLsbD, hv]
  exact ⟨_, rfl, rfl, rfl, ⟨_, rfl⟩, rfl, fun _ => rfl⟩

/-- R44: a report holds the nonce as it stands and what the rule lists. -/
theorem attcmd_reports {s : State} {v : Word} (hs : hostShut s = false) (hv : v.getLsbD 0 = true) (hb : s.attBusy = false) :
    Does (.attcmd v) s fun t => t.attBusy = true ∧ t.nonce = s.nonce ∧
      t.agenda = s.agenda ++ [.attestationReportDone] ∧ SameMem s t ∧ ∃ a : AttReport, t.report = (Config.report s.fresh a).take 1024 ∧
        a.nonce.take s.nonce.length = s.nonce ∧ a.firmware = s.fwDigest ∧ a.avCode = sha256 (Config.microcode 0) ∧
        a.swCode = sha256 (Config.microcode 1) ∧ a.hbmLocal = s.hbmLocal ∧ a.watts = s.watts ∧ a.rollback = Config.rollback := by
  rw [Does, exec_attcmd, execAttcmd, bit_zero_eq_getLsbD, hv, hb, hs]
  exact ⟨_, rfl, rfl, rfl, rfl, fun _ => rfl, reportNow s, rfl, by simp [reportNow], rfl, rfl, rfl, rfl, rfl, rfl⟩

theorem attcmd_ignored {s : State} {v : Word} (h : hostShut s = true ∨ v.getLsbD 0 = false ∨ s.attBusy = true) :
    exec (.attcmd v) s = .next s := by
  rw [exec_attcmd, execAttcmd, bit_zero_eq_getLsbD, if_pos (by rcases h with h | h | h <;> simp [h, -BitVec.getLsbD_eq_getElem])]

/-- Settles O44, by the one transition of the state machine that each event makes. -/
theorem bringUp : Obligations.BringUp := by
  intro s r src val
  refine ⟨?_, resetRelease_starts_auth, fun h => ⟨bootAuth_accepted h, bootAuth_rejected h⟩,
    fun h => ⟨fun hs => ?_, fun h8 h12 => ?_, hbmTrainDone_ok h⟩, fun h => ?_, fun h => ?_, fun h => ?_, fwcmd_loads,
    attcmd_reports, fun h => attcmd_ignored (h.imp_right .inl), fun h => ⟨attcmd_ignored (.inr (.inr h)), ?_⟩⟩
  case refine_1 =>
    have e : (fun c : Host.Cell => isHostKey c.1) = fun c => decide (2 ^ 48 ≤ c.1 ∧ c.1 < 2 ^ 52) := by
      funext c; simp [isHostKey]
    rw [exec_deviceReset, execDeviceReset, e]
  case refine_2 =>
    rw [hbmTrainDone_failed h, trainSrc, Nat.mod_eq_of_lt (by omega), if_pos hs]
  case refine_3 =>
    rw [hbmTrainDone_failed h, trainSrc, Nat.mod_eq_of_lt h12, if_neg (by omega)]
  case refine_4 => rw [exec_devstatGo, execDevstatGo, if_pos h]
  case refine_5 => rw [exec_devstatGo, execDevstatGo, if_neg h]
  case refine_6 => rw [exec_fwcmd, execFwcmd, if_pos h, badAccess, sat_16]
  case refine_7 => rw [exec_attestationReportDone, execAttestationReportDone, if_pos h]

end Sys2Proof.Safety
end

section
/-!
SUPPORT. What the finding of an error and an access at home keep (R39, R42, R215 to R217, R234), and what a store to a line
that the L2 holds leaves.
-/

namespace Sys2Proof.Machine

/-! ## Errors that an access finds (R39, R42) -/

/-- The state without what the finding of an error writes. -/
def undetected (s : State) : State :=
  { unrecorded s with poison := [], latent := [], latentL2 := [], eccLast := [] }

/-- An operation that keeps all that finding an error keeps: it writes no line, clock, directory or context. -/
abbrev Finds (s t : State) : Prop := Keeps undetected s t

theorem eventBytes_finds (s : State) (bs : List Byte) : Finds s (eventBytes s bs) :=
  (eventBytes_keeps s bs).of_part fun x => { x with poison := [], latent := [], latentL2 := [], eccLast := [] }

namespace Finds
variable {s t : State} (h : Finds s t)
include h

theorem home : t.home = s.home := (congrArg State.home h.rest :)
theorem sliceTs : t.sliceTs = s.sliceTs := (congrArg State.sliceTs h.rest :)
theorem ctxs : t.ctxs = s.ctxs := (congrArg State.ctxs h.rest :)
theorem hostDir : t.hostDir = s.hostDir := (congrArg State.hostDir h.rest :)
theorem backInv : t.backInv = s.backInv := (congrArg State.backInv h.rest :)
theorem gtc : t.gtc = s.gtc := (congrArg State.gtc h.rest :)
theorem hbmLocal : t.hbmLocal = s.hbmLocal := (congrArg State.hbmLocal h.rest :)
theorem keys : t.keys = s.keys := (congrArg State.keys h.rest :)

theorem lineKeyOf : lineKeyOf t = lineKeyOf s := by
  have e1 : t.lineKey = s.lineKey := (congrArg State.lineKey h.rest :)
  have e2 : t.resets = s.resets := (congrArg State.resets h.rest :)
  funext line; simp only [Machine.lineKeyOf, e1, e2]

end Finds

/-- A record of an error comes after a change of what finding an error writes. -/
theorem finds_event {s t : State} (bs : List Byte) (h : undetected t = undetected s) (hm : t.mem = s.mem) :
    Finds s (eventBytes t bs) := (Keeps.of_mem h hm).trans (eventBytes_finds t bs)

theorem eccCorrected_finds (s : State) (line y : Nat) : Finds s (eccCorrected s line y) := by
  unfold eccCorrected
  extract_lets ch quiet k
  split
  · split
    · exact .of_mem rfl rfl
    · exact .refl s
  · exact finds_event _ rfl rfl

theorem eccPoison_finds (s : State) (line y : Nat) : Finds s (eccPoison s line y) := finds_event _ rfl rfl

/-- Whether a line hides an error, and whether it is poisoned, an event record leaves as it is. -/
theorem eventBytes_lines (s : State) (bs : List Byte) :
    (eventBytes s bs).latent = s.latent ∧ (eventBytes s bs).poison = s.poison :=
  ⟨(congrArg State.latent (eventBytes_keeps s bs).rest :), (congrArg State.poison (eventBytes_keeps s bs).rest :)⟩

/-- A corrected error poisons nothing. -/
theorem eccCorrected_lines (s : State) (line y : Nat) :
    (eccCorrected s line y).latent = s.latent ∧ (eccCorrected s line y).poison = s.poison := by
  unfold eccCorrected
  extract_lets ch quiet k
  split
  · split <;> exact ⟨rfl, rfl⟩
  · exact eventBytes_lines _ _

/-- An uncorrectable error poisons its line. -/
theorem eccPoison_lines (s : State) (line y : Nat) :
    (eccPoison s line y).latent = s.latent ∧ (eccPoison s line y).poison = nins s.poison line := eventBytes_lines _ _

theorem hbmDetect_none {s : State} {line : Nat} (h : fget s.latent line = none) : hbmDetect s line = s := by
  simp [hbmDetect, h]

theorem hbmDetect_clean {s : State} {line : Nat} (h : fget s.latent line = some .clean) :
    hbmDetect s line = { s with latent := fdel s.latent line } := by simp [hbmDetect, h]

theorem hbmDetect_corrected {s : State} {line : Nat} {y : BitVec 32} (h : fget s.latent line = some (.corrected y)) :
    hbmDetect s line = eccCorrected { s with latent := fdel s.latent line } line y.toNat := by simp [hbmDetect, h]

theorem hbmDetect_uncorrectable {s : State} {line : Nat} {y : BitVec 32}
    (h : fget s.latent line = some (.uncorrectable y)) :
    hbmDetect s line = eccPoison { s with latent := fdel s.latent line } line y.toNat := by simp [hbmDetect, h]

theorem hbmDetect_finds (s : State) (line : Nat) : Finds s (hbmDetect s line) := by
  have hd : Finds s { s with latent := fdel s.latent line } := .of_mem rfl rfl
  rcases h : fget s.latent line with _ | (_ | y | y)
  · rw [hbmDetect_none h]; exact .refl s
  · rw [hbmDetect_clean h]; exact hd
  · rw [hbmDetect_corrected h]; exact hd.trans (eccCorrected_finds _ _ _)
  · rw [hbmDetect_uncorrectable h]; exact hd.trans (eccPoison_finds _ _ _)

theorem l2Detect_none {s : State} {line : Nat} (h : fget s.latentL2 line = none) : l2Detect s line = s := by
  simp [l2Detect, h]

theorem l2Detect_finds (s : State) (line : Nat) : Finds s (l2Detect s line) := by
  unfold l2Detect
  split
  · exact .refl s
  · split
    · exact .of_mem rfl rfl
    · exact finds_event _ rfl rfl
    · exact finds_event _ rfl rfl

theorem lineDetect_finds (s : State) (line : Nat) : Finds s (lineDetect s line) := by
  unfold lineDetect
  split
  · exact l2Detect_finds s line
  · split
    · exact hbmDetect_finds s line
    · exact .refl s

theorem lineDetect_none {s : State} {line : Nat} (h : fget s.latent line = none) (h2 : fget s.latentL2 line = none) :
    lineDetect s line = s := by
  simp [lineDetect, l2Detect_none h2, hbmDetect_none h]

/-- What an access under another key finds (R216). -/
theorem homeHit_finds (s : State) (line key : Nat) (h : Home) : Finds s (homeHit s line key h).2 := by
  unfold homeHit
  split
  · exact .refl s
  · refine Keeps.trans ?_ (hbmDetect_finds _ _)
    split
    · exact l2Detect_finds s line
    · exact .of_mem rfl rfl

/-- A line that stands under the key asked for is not fetched again. -/
theorem homeHit_same (s : State) (line : Nat) (h : Home) : homeHit s line h.key h = (h, s) := by simp [homeHit]

/-- A line of HBM under another key stands under the one asked for from then on, clean (R216). -/
theorem homeHit_rekeyed {s : State} {line key : Nat} {h : Home} (hk : h.key ≠ key) (hb : isHbm (64 * line) = true) :
    (homeHit s line key h).1 = { h with key := key, dirty := false } := by simp [homeHit, hk, hb]

/-! ## Accesses at home (R215 to R217, R234, R252) -/

/-- The state without what an access at home writes, memory apart. -/
def unhoused (s : State) : State :=
  { undetected s with home := [], sliceTs := [], seq := 0, agenda := [], rebaseActive := false, rebaseAgain := false, epoch := false }

/-- An access at home: it writes no context and nothing of the host, and no byte below host memory but those it names. -/
abbrev AtHome (s t : State) : Prop := Keeps unhoused s t

theorem Keeps.atHome {s t : State} (h : Finds s t) : AtHome s t :=
  h.of_part fun x => { x with home := [], sliceTs := [], seq := 0, agenda := [], rebaseActive := false, rebaseAgain := false, epoch := false }

/-- A line without a home has none to leave. -/
theorem l2Evict_none {s : State} {line : Nat} (h : fget s.home line = none) : l2Evict s line = s := by simp [l2Evict, h]

/-- What is found as a line leaves the L2: an error in dirty data. -/
def evictFinds (s : State) (line : Nat) (h : Home) : State :=
  let t := if h.dirty then l2Detect s line else { s with latentL2 := fdel s.latentL2 line }
  if isHbm (64 * line) then t else { t with poison := nrem t.poison line }

theorem evictFinds_finds (s : State) (line : Nat) (h : Home) : Finds s (evictFinds s line h) := by
  have ht : Finds s (if h.dirty then l2Detect s line else { s with latentL2 := fdel s.latentL2 line }) := by
    split
    · exact l2Detect_finds s line
    · exact .of_mem rfl rfl
  unfold evictFinds
  extract_lets t
  split
  · exact ht
  · exact ht.trans (.of_mem rfl rfl)

/-- A line that leaves the L2 takes the slice timestamp with it (R216). -/
theorem l2Evict_some {s : State} {line : Nat} {h : Home} (hh : fget s.home line = some h) :
    l2Evict s line = { evictFinds s line h with
      home := fdel (evictFinds s line h).home line,
      sliceTs := fset (evictFinds s line h).sliceTs (sliceOf s line)
        (Nat.max ((fget (evictFinds s line h).sliceTs (sliceOf s line)).getD 0) h.rts) } := by
  simp only [l2Evict, hh, evictFinds]

theorem l2Evict_atHome (s : State) (line : Nat) : AtHome s (l2Evict s line) := by
  cases hh : fget s.home line with
  | none => rw [l2Evict_none hh]; exact .refl s
  | some h => rw [l2Evict_some hh]; exact (evictFinds_finds s line h).atHome.trans (.of_mem rfl rfl)

theorem l2Room_atHome (s : State) (line cls : Nat) : AtHome s (l2Room s line cls) := by
  unfold l2Room
  extract_lets set
  split
  · exact .refl s
  · split
    · exact l2Evict_atHome s _
    · exact .refl s

theorem homeFor_atHome (s : State) (line cls key prio : Nat) : AtHome s (homeFor s line cls key prio).2 := by
  unfold homeFor
  extract_lets t
  have ht : AtHome s t := .of_mem rfl rfl
  split
  · exact ht.trans (homeHit_finds t line key _).atHome
  · exact (ht.trans (lineDetect_finds t line).atHome).trans (l2Room_atHome _ _ _)

theorem tsCheck_atHome (s : State) (ts : Nat) : AtHome s (tsCheck s ts) := by
  unfold tsCheck
  split
  · exact .refl s
  · split <;> exact .of_mem rfl rfl

/-- A timestamp that starts a rebase writes no line of the L2. -/
theorem tsCheck_home (s : State) (ts : Nat) : (tsCheck s ts).home = s.home ∧ (tsCheck s ts).mem = s.mem := by
  unfold tsCheck
  split
  · exact ⟨rfl, rfl⟩
  · split <;> exact ⟨rfl, rfl⟩

theorem setHome_atHome (s : State) (line : Nat) (h : Home) : AtHome s (setHome s line h) := by
  have hs : AtHome s { s with home := fset s.home line h } := .of_mem rfl rfl
  refine (hs.trans ?_).trans (tsCheck_atHome _ _)
  split
  · exact l2Evict_atHome _ _
  · exact .refl _

theorem dropLatent_finds (s : State) (line : Nat) (bs : List Byte) : Finds s (dropLatent s line bs) := by
  unfold dropLatent
  split <;> exact .of_mem rfl rfl

/-! ## Writes under a key (R45) -/

/-- The state without what a write under a key writes. -/
def unwritten (s : State) : State := { unhoused s with lineKey := [] }

theorem writeUnder_part (s : State) (key pa : Nat) (bs : List Byte) : unwritten (writeUnder s key pa bs) = unwritten s := by
  have hr : unwritten (rekeyLine s key (pa / 64)) = unwritten s := by
    unfold rekeyLine
    split
    · rfl
    · split <;> rfl
  refine Eq.trans ?_ hr
  unfold writeUnder
  extract_lets t u
  split <;> rfl

/-- What is written under a key stands there. -/
theorem writeUnder_mem (s : State) (key pa : Nat) (bs : List Byte) :
    (writeUnder s key pa bs).mem = memWrite (rekeyLine s key (pa / 64)).mem pa bs := by
  unfold writeUnder
  extract_lets t u
  split <;> rfl

/-- A line written under its own key is not written again (R216). -/
theorem rekeyLine_same {s : State} {key line : Nat} (h : fget s.keys key = some (lineKeyOf s line)) :
    rekeyLine s key line = s := by simp [rekeyLine, h]

/-- A write of a line under its own key changes memory, and what a whole line written clears. -/
theorem writeUnder_same {s : State} {key pa : Nat} (bs : List Byte) (h : fget s.keys key = some (lineKeyOf s (pa / 64))) :
    undetected (writeUnder s key pa bs) = undetected s ∧ (writeUnder s key pa bs).mem = memWrite s.mem pa bs := by
  simp only [writeUnder, rekeyLine_same h]
  split <;> exact ⟨rfl, rfl⟩

/-! ## Stores at home (R234) -/

/-- The timestamp and the place of a store at home. -/
theorem homeStore_mem (s : State) (p : Part) (pts : Nat) {bs : List Byte} (h : p.pa + bs.length ≤ 2 ^ 48) :
    memRead (homeStore s p pts bs).2.mem p.pa bs.length = bs ∧ unwritten (homeStore s p pts bs).2 = unwritten s := by
  have hx : AtHome s (homeFor (dropLatent s p.line bs) p.line p.cls p.key 1).2 :=
    (dropLatent_finds s p.line bs).atHome.trans (homeFor_atHome _ p.line p.cls p.key 1)
  simp only [homeStore]
  generalize homeFor (dropLatent s p.line bs) p.line p.cls p.key 1 = x at hx ⊢
  generalize Nat.max pts (x.1.rts + 1) = ts
  have hs := setHome_atHome (writeUnder x.2 p.key p.pa bs) p.line { x.1 with wts := ts, rts := ts, dirty := true }
  refine ⟨?_, ?_⟩
  · rw [memRead_congr fun a _ ha => hs.low a (by omega), writeUnder_mem, memRead_memWrite]
  · calc _ = unwritten (writeUnder x.2 p.key p.pa bs) := congrArg (fun t : State => { t with lineKey := [] }) hs.rest
      _ = unwritten x.2 := writeUnder_part _ _ _ _
      _ = unwritten s := congrArg (fun t : State => { t with lineKey := [] }) hx.rest

/-- The lines of a set are told by their numbers alone. -/
theorem l2SetOf_length_congr {s t : State} (line : Nat) (hk : t.home.map Prod.fst = s.home.map Prod.fst)
    (hl : t.hbmLocal = s.hbmLocal) : (l2SetOf t line).length = (l2SetOf s line).length := by
  have hsl : sliceOf t = sliceOf s := by
    funext l
    simp only [sliceOf, stackOf, hl]
  have hf (q : Nat → Bool) : (t.home.filter fun p => q p.1).length = (s.home.filter fun p => q p.1).length := by
    have e (m : FMap Home) : (m.filter fun p => q p.1).length = ((m.map Prod.fst).filter q).length := by
      rw [List.filter_map, List.length_map]; rfl
    rw [e, e, hk]
  simp only [l2SetOf, hsl, hf fun l => sliceOf s l == sliceOf s line]
  split
  · exact hf fun l => sliceOf s l == sliceOf s line
  · simp only [List.filter_filter]
    exact hf fun l => (Config.l2Set l % 4096 == Config.l2Set line % 4096) && (sliceOf s l == sliceOf s line)

theorem fset_keys {α : Type} (m : FMap α) (k : Nat) (v w : α) : (fset m k v).map Prod.fst = (fset m k w).map Prod.fst := by
  induction m with
  | nil => rfl
  | cons p t ih =>
    simp only [fset]
    split
    · simp [ih]
    · split <;> simp

/-- The home of a line that the L2 holds in a set with room for it. -/
theorem setHome_of_room {s : State} {line : Nat} {h : Home}
    (hr : (l2SetOf { s with home := fset s.home line h } line).length ≤ 16) :
    setHome s line h = tsCheck { s with home := fset s.home line h } h.rts := by
  simp only [setHome, if_neg (Nat.not_lt.2 hr)]

theorem homeFor_held {s : State} {line key : Nat} {h : Home} (hh : fget s.home line = some h) (hk : h.key = key)
    (cls prio : Nat) : homeFor s line cls key prio = ({ h with used := s.seq }, { s with seq := s.seq + 1 }) := by
  subst hk
  simp only [homeFor, hh, homeHit_same]

end Sys2Proof.Machine

namespace Sys2Proof.Safety

open Sys2Proof.Machine

/-- A store to a line that the L2 holds under its key: its timestamp lies above the line's rts, and no other byte of memory
changes. -/
theorem homeStore_held {s : State} {p : Part} {h : Home} (hp : HeldLine s p h) (pts : Nat) (bs : List Byte)
    (hn : bs.length = p.n) :
    (homeStore s p pts bs).1 = max pts (h.rts + 1) ∧ SameMemBut s (homeStore s p pts bs).2 p.pa p.n ∧
    ∃ g, fget (homeStore s p pts bs).2.home p.line = some g ∧ g.wts = max pts (h.rts + 1) ∧ g.rts = max pts (h.rts + 1) := by
  obtain ⟨-, hh, hk, hkey, -, -, -, -, -, hroom⟩ := hp
  have hd := dropLatent_finds s p.line bs
  have hdm : (dropLatent s p.line bs).mem = s.mem := by unfold dropLatent; split <;> rfl
  have hf := homeFor_held (s := dropLatent s p.line bs) (by rw [hd.home, hh]) hk p.cls 1
  simp only [homeStore, hf]
  generalize dropLatent s p.line bs = d at hd hdm hf ⊢
  obtain ⟨hw, hwm⟩ := writeUnder_same (s := { d with seq := d.seq + 1 }) (key := p.key) (pa := p.pa) bs
    (by rw [← hd.keys, ← hd.lineKeyOf] at hkey; exact hkey)
  generalize writeUnder { d with seq := d.seq + 1 } p.key p.pa bs = w at hw hwm ⊢
  have hwh : w.home = s.home := (congrArg State.home hw :).trans hd.home
  have hwl : w.hbmLocal = s.hbmLocal := (congrArg State.hbmLocal hw :).trans hd.hbmLocal
  have hroom' (g : Home) : (l2SetOf { w with home := fset w.home p.line g } p.line).length ≤ 16 :=
    Nat.le_trans (Nat.le_of_eq (l2SetOf_length_congr (s := { s with home := fset s.home p.line h }) p.line
      (by simp only [hwh]; exact fset_keys _ _ _ _) hwl)) hroom
  rw [setHome_of_room (hroom' _)]
  refine ⟨trivial, fun a ha => ?_, _, by rw [(tsCheck_home _ _).1]; exact fget_fset_self _ _ _, rfl, rfl⟩
  rw [(tsCheck_home _ _).2]
  show memGet w.mem a = _
  rw [hwm, memGet_memWrite_out _ _ _ _ (by omega)]
  exact congrArg (memGet · a) hdm

end Sys2Proof.Safety
end

section
/-!
CERTIFICATES. The scrubber, host accesses to device memory, back-invalidations and snoops (R41, R103 to R108, R216, R249).
-/

namespace Sys2Proof.Machine

/-! ## What the events of host memory run -/

theorem exec_hdmRead (s : State) (block off : Nat) : exec (.hdmRead block off) s = execHdmRead block off s := rfl
theorem exec_hdmWrite (s : State) (block off : Nat) (bs : List Byte) :
    exec (.hdmWrite block off bs) s = execHdmWrite block off bs s := rfl
theorem exec_birsp (s : State) (line : Nat) : exec (.birsp line) s = execBirsp line s := rfl
theorem exec_biTimeout (s : State) (line : Nat) : exec (.biTimeout line) s = execBiTimeout line s := rfl
theorem exec_hostSnoop (s : State) (line : Nat) (inv : Bool) : exec (.hostSnoop line inv) s = execHostSnoop line inv s := rfl

/-! ## Addresses (R17, R103) -/

/-- An address that a stack backs lies in HBM. -/
theorem lt_of_stackOf_isSome {s : State} {pa : Nat} (h : (stackOf s pa).isSome = true) : pa < 2 ^ 40 := by
  by_contra hp
  have h1 : ¬pa < 2 ^ 39 := by omega
  unfold stackOf at h
  extract_lets gib at h
  rw [if_neg h1, if_neg hp] at h
  cases h

/-- A decoder reaches HBM alone. -/
theorem hdmPa_lt {s : State} {hpa n pa : Nat} (h : hdmPa s hpa n = some pa) : pa < 2 ^ 40 := by
  simp only [hdmPa] at h
  split at h
  · split at h
    · cases h; exact lt_of_stackOf_isSome ‹_›
    · cases h
  · cases h

theorem isHbm_line {pa : Nat} (h : pa < 2 ^ 40) : isHbm (64 * (pa / 64)) = true := by
  simp only [isHbm, decide_eq_true_eq]; omega

theorem isHbm_of_isHostLine {line : Nat} (h : isHostLine line = true) : isHbm (64 * line) = false := by
  simp only [isHostLine, Bool.and_eq_true, decide_eq_true_eq] at h
  simp only [isHbm, decide_eq_false_iff_not]; omega

/-! ## Reads under a key (R45) -/

/-- What a range reads as depends on memory and keys alone. -/
theorem readUnder_congr {s t : State} (hm : t.mem = s.mem) (hk : t.keys = s.keys) (hl : lineKeyOf t = lineKeyOf s) :
    readUnder t = readUnder s := by
  funext key pa n
  simp only [readUnder, byteUnder, lineUnder, hm, hk, hl]

/-- A line read under the key it was written with reads as it stands. -/
theorem readUnder_line {s : State} {key pa : Nat} (hp : pa % 64 = 0) (hk : fget s.keys key = some (lineKeyOf s (pa / 64))) :
    readUnder s key pa 64 = memRead s.mem pa 64 := by
  rw [← map_memGet_eq_memRead]
  refine List.map_congr_left fun i hi => ?_
  have hi : i < 64 := List.mem_range.1 hi
  have hl : (pa + i) / 64 = pa / 64 := by omega
  simp only [byteUnder, hk, hl, if_true, ite_self]

/-! ## Back-invalidations (R105, R106) -/

/-- What waits for the answer of the host stands with the back-invalidation of the line; nothing else changes. -/
theorem biWait_eq (s : State) (line : Nat) (i : Instr) :
    ∃ b, biWait s line i = { s with backInv := fset s.backInv line b } ∧ i ∈ b.retry := by
  unfold biWait
  split <;> exact ⟨_, rfl, by simp⟩

/-- A reissue writes the table of back-invalidations alone. -/
theorem biReissue_eq (s : State) (line : Nat) : ∃ m, biReissue s line = { s with backInv := m } ∧
    ∀ b, fget s.backInv line = some b → fget m line = some { b with since := s.gtc, reported := false } := by
  unfold biReissue
  split
  case h_1 b hb => exact ⟨_, rfl, fun b' hb' => by cases hb.symm.trans hb'; exact fget_fset_self _ _ _⟩
  case h_2 hn => exact ⟨_, rfl, fun b hb => by cases hn.symm.trans hb⟩

/-! ## Lines under another key (R216) -/

/-- An operation that finds errors and writes homes. -/
abbrev FindsHome (s t : State) : Prop := Keeps (fun x => { undetected x with home := [] }) s t

theorem rekeyHome_findsHome (s : State) (line key : Nat) : FindsHome s (rekeyHome s line key) := by
  cases hh : fget s.home line with
  | none => simp only [rekeyHome, hh]; exact .refl s
  | some h =>
    simp only [rekeyHome, hh]
    split
    · exact .refl s
    · exact Keeps.trans (t := (homeHit s line key h).2)
        ((homeHit_finds s line key h).of_part fun x => { x with home := [] }) (.of_mem rfl rfl)

/-- A line of HBM that stands under another key stands under the one asked for; no other home changes. -/
theorem rekeyHome_none {s : State} {line : Nat} (key : Nat) (h : fget s.home line = none) : rekeyHome s line key = s := by
  simp [rekeyHome, h]

theorem rekeyHome_same {s : State} {line : Nat} {h : Home} (hh : fget s.home line = some h) : rekeyHome s line h.key = s := by
  simp [rekeyHome, hh]

theorem rekeyHome_home {s : State} {line key : Nat} {h : Home} (hh : fget s.home line = some h) (hk : h.key ≠ key)
    (hb : isHbm (64 * line) = true) : (rekeyHome s line key).home = fset s.home line { h with key := key, dirty := false } := by
  simp only [rekeyHome, hh, if_neg hk, homeHit_rekeyed hk hb, (homeHit_finds s line key h).home]

/-- With no error in the line, nothing is found as it passes under another key. -/
theorem rekeyHome_mem {s : State} {line : Nat} (key : Nat) (h : fget s.latent line = none) (h2 : fget s.latentL2 line = none) :
    (rekeyHome s line key).mem = s.mem := by
  have hd (t : State) (ht : t.latent = s.latent) : hbmDetect t line = t := hbmDetect_none (by rw [ht, h])
  unfold rekeyHome
  split
  · rfl
  · split
    · rfl
    · simp only [homeHit, l2Detect_none h2]
      split
      · rfl
      · split
        · rw [hd s rfl]
        · rw [hd { s with latentL2 := fdel s.latentL2 line } rfl]

/-! ## The host's own writes (R249) -/

/-- A host line that leaves the L2 is not poisoned, and nothing is found where no error waits in it. -/
theorem evictFinds_host {s : State} {line : Nat} (h : Home) (hl : isHbm (64 * line) = false) :
    line ∉ (evictFinds s line h).poison ∧ (fget s.latentL2 line = none → (evictFinds s line h).mem = s.mem) := by
  simp only [evictFinds, hl, Bool.false_eq_true, if_false]
  refine ⟨by simp [nrem], fun h2 => ?_⟩
  rw [l2Detect_none h2]
  split <;> rfl

theorem hostWrites_none {s : State} {line : Nat} (h : fget s.home line = none) :
    ∃ bs : List Byte, bs.length = 64 ∧
      hostWrites s line = { s with fresh := s.fresh + 1, mem := memWrite s.mem (64 * line) bs } := by
  refine ⟨(List.range 64).map fun i => Config.hostByte (64 * s.fresh + i), by simp, ?_⟩
  simp only [hostWrites, h, draw]

theorem hostWrites_some {s : State} {line : Nat} {h : Home} (hh : fget s.home line = some h) :
    let u := l2Evict { s with home := fset s.home line { h with rts := h.rts + 1 } } line
    ∃ bs : List Byte, bs.length = 64 ∧
      hostWrites s line = { u with fresh := u.fresh + 1, mem := memWrite u.mem (64 * line) bs } := by
  intro u
  refine ⟨(List.range 64).map fun i => Config.hostByte (64 * u.fresh + i), by simp, ?_⟩
  simp only [hostWrites, hh, draw, u]

end Sys2Proof.Machine

namespace Sys2Proof.Safety

open Sys2Proof.Machine

/-- R41: the scrubber reads a line, and what the line hides shows. -/
theorem patrolScrub_shows (s : State) (line : Nat) : Does (.patrolScrub line) s fun t =>
    t.scrub = line ∧ fget t.latent line = none ∧ t.home = s.home ∧ t.ctxs = s.ctxs ∧
    (∀ l, l ≠ line → fget t.latent l = fget s.latent l) ∧
    t.poison = match fget s.latent line with | some (.uncorrectable _) => nins s.poison line | _ => s.poison := by
  have hf := hbmDetect_finds { s with scrub := line } line
  refine ⟨_, rfl, (congrArg State.scrub hf.rest :), ?_⟩
  have hk : (hbmDetect { s with scrub := line } line).latent = fdel s.latent line →
      fget (hbmDetect { s with scrub := line } line).latent line = none ∧
      ∀ l, l ≠ line → fget (hbmDetect { s with scrub := line } line).latent l = fget s.latent l := fun e => by
    rw [e]; exact ⟨fget_fdel_self _ _, fun l hl => fget_fdel_ne _ _ _ hl⟩
  rcases h : fget s.latent line with _ | (_ | y | y)
  · rw [hbmDetect_none (s := { s with scrub := line }) h]
    exact ⟨h, rfl, rfl, fun _ _ => rfl, rfl⟩
  · obtain ⟨h1, h2⟩ := hk (by rw [hbmDetect_clean (s := { s with scrub := line }) h])
    exact ⟨h1, hf.home, hf.ctxs, h2, by rw [hbmDetect_clean (s := { s with scrub := line }) h]⟩
  · have e := hbmDetect_corrected (s := { s with scrub := line }) h
    obtain ⟨hl, hp⟩ := eccCorrected_lines { s with scrub := line, latent := fdel s.latent line } line y.toNat
    obtain ⟨h1, h2⟩ := hk (by rw [e, hl])
    exact ⟨h1, hf.home, hf.ctxs, h2, by rw [e, hp]⟩
  · have e := hbmDetect_uncorrectable (s := { s with scrub := line }) h
    obtain ⟨hl, hp⟩ := eccPoison_lines { s with scrub := line, latent := fdel s.latent line } line y.toNat
    obtain ⟨h1, h2⟩ := hk (by rw [e, hl])
    exact ⟨h1, hf.home, hf.ctxs, h2, by rw [e, hp]⟩

/-! ## Reads of the host (R104, R105) -/

theorem hdmRead_none {s : State} {block off : Nat}
    (h : hostShut s = true ∨ hdmPa s (hostAddr block off / 64 * 64) 64 = none) : exec (.hdmRead block off) s = .next s := by
  rw [exec_hdmRead, execHdmRead]
  rcases h with h | h <;> simp [h]

/-- A read that finds room in the directory. -/
theorem hdmRead_enters {s : State} {block off pa : Nat} (hs : hostShut s = false)
    (hp : hdmPa s (hostAddr block off / 64 * 64) 64 = some pa) (hv : dirVictim s (pa / 64) = none) :
    Does (.hdmRead block off) s fun t => pa / 64 ∈ t.hostDir ∧ (∀ l ∈ s.hostDir, l ∈ t.hostDir) ∧
      t.home = (match fget s.home (pa / 64) with
        | none => s.home
        | some h => if h.key = 0 then s.home else fset s.home (pa / 64) { h with key := 0, dirty := false }) ∧
      t.ctxs = s.ctxs ∧ (∀ b, fget s.backInv (pa / 64) = some b →
        fget t.backInv (pa / 64) = some { b with since := s.gtc, reported := false }) ∧
      (fget s.latent (pa / 64) = none → fget s.latentL2 (pa / 64) = none → SameMem s t ∧ t.hostRd = readUnder s 0 pa 64 ∧
        (pa % 64 = 0 → fget s.keys 0 = some (lineKeyOf s (pa / 64)) → t.hostRd = memRead s.mem pa 64)) := by
  have hd := lineDetect_finds s (pa / 64)
  have hu := (hd.of_part fun x => { x with home := [] }).trans (rekeyHome_findsHome (lineDetect s (pa / 64)) (pa / 64) 0)
  have hmem : fget s.latent (pa / 64) = none → fget s.latentL2 (pa / 64) = none →
      (rekeyHome (lineDetect s (pa / 64)) (pa / 64) 0).mem = s.mem := fun h h2 => by
    rw [lineDetect_none h h2, rekeyHome_mem 0 h h2]
  have hhome : (rekeyHome (lineDetect s (pa / 64)) (pa / 64) 0).home = (match fget s.home (pa / 64) with
      | none => s.home
      | some h => if h.key = 0 then s.home else fset s.home (pa / 64) { h with key := 0, dirty := false }) := by
    cases hh : fget s.home (pa / 64) with
    | none => rw [rekeyHome_none 0 (by rw [hd.home, hh]), hd.home]
    | some h =>
      have hh' : fget (lineDetect s (pa / 64)).home (pa / 64) = some h := by rw [hd.home, hh]
      by_cases hk : h.key = 0
      · have e := rekeyHome_same hh'
        rw [hk] at e
        simp only [e, if_pos hk, hd.home]
      · simp only [rekeyHome_home hh' hk (isHbm_line (hdmPa_lt hp)), if_neg hk, hd.home]
  rw [Does, exec_hdmRead, execHdmRead, if_neg (by simp [hs]), hp]
  simp only [hv]
  generalize rekeyHome (lineDetect s (pa / 64)) (pa / 64) 0 = u at hu hmem hhome ⊢
  obtain ⟨m, hm, hb⟩ := biReissue_eq u (pa / 64)
  have hdir : u.hostDir = s.hostDir := (congrArg State.hostDir hu.rest :)
  have hback : u.backInv = s.backInv := (congrArg State.backInv hu.rest :)
  have hgtc : u.gtc = s.gtc := (congrArg State.gtc hu.rest :)
  have hkeys : u.keys = s.keys := (congrArg State.keys hu.rest :)
  have hlk : lineKeyOf u = lineKeyOf s := by
    have e1 : u.lineKey = s.lineKey := (congrArg State.lineKey hu.rest :)
    have e2 : u.resets = s.resets := (congrArg State.resets hu.rest :)
    funext l; simp only [lineKeyOf, e1, e2]
  rw [hm]
  rw [hback, hgtc] at hb
  refine ⟨_, rfl, ?_, ?_, hhome, (congrArg State.ctxs hu.rest :), hb, fun h h2 => ?_⟩
  · simp only [hdir]
    split
    case isTrue hc => simpa using hc
    case isFalse => simp
  · intro l hl
    simp only [hdir]
    split
    · exact hl
    · exact List.mem_append_left _ hl
  · have hr : readUnder { u with backInv := m } 0 pa 64 = readUnder s 0 pa 64 :=
      congrFun (congrFun (congrFun (readUnder_congr (hmem h h2) hkeys hlk) 0) pa) 64
    exact ⟨fun a => congrArg (memGet · a) (hmem h h2), hr, fun h0 hk => hr.trans (readUnder_line h0 hk)⟩

/-- A read whose line finds its set of the directory full waits until a victim has gone. -/
theorem hdmRead_waits {s : State} {block off pa v : Nat} (hs : hostShut s = false)
    (hp : hdmPa s (hostAddr block off / 64 * 64) 64 = some pa) (hv : dirVictim s (pa / 64) = some v) :
    Does (.hdmRead block off) s fun t => t.hostDir = s.hostDir ∧ t.home = s.home ∧ SameMem s t ∧
      ∃ b, fget t.backInv v = some b ∧ .hdmRead block off ∈ b.retry := by
  obtain ⟨b, hb, hr⟩ := biWait_eq s v (.hdmRead block off)
  rw [Does, exec_hdmRead, execHdmRead, if_neg (by simp [hs]), hp]
  simp only [hv, hb]
  exact ⟨_, rfl, rfl, rfl, fun _ => rfl, b, fget_fset_self _ _ _, hr⟩

/-! ## Writes of the host (R104, R117) -/

theorem hdmWrite_none {s : State} {block off : Nat} {bs : List Byte}
    (h : hostShut s = true ∨ hdmPa s (hostAddr block off) bs.length = none) : exec (.hdmWrite block off bs) s = .next s := by
  rw [exec_hdmWrite, execHdmWrite]
  rcases h with h | h <;> simp [h]

theorem hdmWrite_misfit {s : State} {block off pa : Nat} {bs : List Byte} (hs : hostShut s = false)
    (hp : hdmPa s (hostAddr block off) bs.length = some pa) (h : bs = [] ∨ 64 < pa % 64 + bs.length) :
    exec (.hdmWrite block off bs) s = .next s := by
  rw [exec_hdmWrite, execHdmWrite, if_neg (by simp [hs]), hp]
  simp only
  rw [if_pos (by rcases h with h | h <;> simp [h])]

/-- The part of HBM that a write of the host names. -/
def hostPart (pa n : Nat) : Part := { pa := pa, n := n, at_ := 0, key := 0, cls := 0, sys := false }

/-- A write within a line: a store at home, HTS over its timestamp. -/
theorem hdmWrite_stores {s : State} {block off pa : Nat} {bs : List Byte} (hs : hostShut s = false)
    (hp : hdmPa s (hostAddr block off) bs.length = some pa) (h0 : bs ≠ []) (hn : pa % 64 + bs.length ≤ 64) :
    let x := homeStore s (hostPart pa bs.length) 0 bs
    ∃ m, exec (.hdmWrite block off bs) s = .next { x.2 with hts := max x.2.hts x.1, backInv := m } := by
  intro x
  obtain ⟨m, hm, -⟩ := biReissue_eq { x.2 with hts := max x.2.hts x.1 } (hostPart pa bs.length).line
  refine ⟨m, ?_⟩
  rw [exec_hdmWrite, execHdmWrite, if_neg (by simp [hs]), hp]
  simp only
  rw [if_neg (by simp [h0]; omega)]
  exact congrArg Host.Outcome.next hm

theorem hdmWrite_writes {s : State} {block off pa : Nat} {bs : List Byte} (hs : hostShut s = false)
    (hp : hdmPa s (hostAddr block off) bs.length = some pa) (h0 : bs ≠ []) (hn : pa % 64 + bs.length ≤ 64) :
    Does (.hdmWrite block off bs) s fun t => memRead t.mem pa bs.length = bs ∧ s.hts ≤ t.hts ∧ t.ctxs = s.ctxs := by
  obtain ⟨m, hm⟩ := hdmWrite_stores hs hp h0 hn
  have hlt := hdmPa_lt hp
  obtain ⟨hr, hu⟩ := homeStore_mem s (hostPart pa bs.length) 0 (bs := bs) (by simp only [hostPart]; omega)
  generalize homeStore s (hostPart pa bs.length) 0 bs = x at hm hr hu
  have hh : x.2.hts = s.hts := (congrArg State.hts hu :)
  exact ⟨_, hm, hr, hh ▸ Nat.le_max_left _ _, (congrArg State.ctxs hu :)⟩

theorem hdmWrite_held {s : State} {block off pa : Nat} {bs : List Byte} {h : Home} (hs : hostShut s = false)
    (hp : hdmPa s (hostAddr block off) bs.length = some pa) (h0 : bs ≠ []) (hn : pa % 64 + bs.length ≤ 64)
    (hl : HeldLine s (hostPart pa bs.length) h) : Does (.hdmWrite block off bs) s fun t =>
      memRead t.mem pa bs.length = bs ∧ SameMemBut s t pa bs.length ∧ t.hts = max s.hts (h.rts + 1) ∧
      ∃ g, fget t.home (pa / 64) = some g ∧ g.wts = h.rts + 1 ∧ g.rts = h.rts + 1 := by
  obtain ⟨m, hm⟩ := hdmWrite_stores hs hp h0 hn
  have hlt := hdmPa_lt hp
  obtain ⟨hr, hu⟩ := homeStore_mem s (hostPart pa bs.length) 0 (bs := bs) (by simp only [hostPart]; omega)
  obtain ⟨hts, hmem, g, hg, hw, hrt⟩ := homeStore_held hl 0 bs rfl
  generalize homeStore s (hostPart pa bs.length) 0 bs = x at hm hr hu hts hmem hg
  have hh : x.2.hts = s.hts := (congrArg State.hts hu :)
  rw [Nat.zero_max] at hts hw hrt
  exact ⟨_, hm, hr, hmem, by rw [hts, hh], g, hg, hw, hrt⟩

/-! ## Answers to back-invalidations (R105 to R107) -/

theorem birsp_none {s : State} {line : Nat} (h : fget s.backInv line = none) :
    exec (.birsp line) s = .next s ∧ exec (.biTimeout line) s = .next s := by
  simp [exec_birsp, execBirsp, exec_biTimeout, execBiTimeout, h]

theorem birsp_some {s : State} {line : Nat} {b : BackInv} (h : fget s.backInv line = some b) :
    exec (.birsp line) s = .next { s with backInv := fdel s.backInv line, hostDir := s.hostDir.filter (· != line),
                                          agenda := b.retry ++ s.agenda } := by
  simp only [exec_birsp, execBirsp, h]

theorem biTimeout_early {s : State} {line : Nat} {b : BackInv} (h : fget s.backInv line = some b)
    (ht : b.reported = true ∨ s.gtc < b.since + 1000000) : exec (.biTimeout line) s = .next s := by
  simp only [exec_biTimeout, execBiTimeout, h, if_pos ht]

/-- An answer that is late is recorded. -/
theorem biTimeout_records {s : State} {line : Nat} {b : BackInv} (h : fget s.backInv line = some b)
    (hr : b.reported = false) (ht : b.since + 1000000 ≤ s.gtc) : Does (.biTimeout line) s fun t =>
      fget t.backInv line = some { b with reported := true } ∧ t.hostDir = s.hostDir ∧ t.ctxs = s.ctxs ∧
      (s.evq.en = false → s.evq.held.length < 256 → t.evq.held = s.evq.held ++ [record 64 [(0, 8, s.gtc),
        (8, 2, unitSrc 2 (sliceOf s line)), (10, 2, s.devid), (12, 1, 0x25), (16, 8, 64 * line)]]) := by
  have hn : ¬(b.reported = true ∨ s.gtc < b.since + 1000000) := by simp [hr]; omega
  refine ⟨_, by simp only [exec_biTimeout, execBiTimeout, h, if_neg hn]; rfl, ?_⟩
  have hk := (eventBytes_keeps { s with backInv := fset s.backInv line { b with reported := true } }
    (record 64 ([(0, 8, s.gtc), (8, 2, unitSrc 2 (sliceOf s line)), (10, 2, s.devid), (12, 1, 0x25)] ++
      [(16, 8, 64 * line)]))).rest
  refine ⟨?_, (congrArg State.hostDir hk :), (congrArg State.ctxs hk :), fun he hl => ?_⟩
  · exact (congrArg (fget · line) (congrArg State.backInv hk :)).trans (fget_fset_self _ _ _)
  · exact congrArg (fun t : State => t.evq.held)
      (eventBytes_held { s with backInv := fset s.backInv line { b with reported := true } } _ he hl)

/-! ## Snoops (R108, R249) -/

theorem hostSnoop_foreign {s : State} {line : Nat} (h : isHostLine line = false) (inv : Bool) :
    exec (.hostSnoop line inv) s = .next s := by
  simp [exec_hostSnoop, execHostSnoop, h]

theorem hostSnoop_inv {s : State} {line : Nat} (h : isHostLine line = true) :
    exec (.hostSnoop line true) s = .next (hostWrites s line) := by
  simp [exec_hostSnoop, execHostSnoop, h]

theorem hostSnoop_inv_none {s : State} {line : Nat} (h : isHostLine line = true) (hh : fget s.home line = none) :
    Does (.hostSnoop line true) s fun t => fget t.home line = none ∧ SameMemBut s t (64 * line) 64 ∧ t.ctxs = s.ctxs := by
  obtain ⟨bs, hn, e⟩ := hostWrites_none hh
  exact ⟨_, (hostSnoop_inv h).trans (congrArg _ e), hh, fun a ha => memGet_memWrite_out _ _ _ _ (hn ▸ ha), rfl⟩

/-- SnpInv of a line that the L2 holds: the line leaves, its slice's timestamp above its rts. -/
theorem hostSnoop_inv_some {s : State} {line : Nat} {h : Home} (hl : isHostLine line = true) (hh : fget s.home line = some h) :
    Does (.hostSnoop line true) s fun t => fget t.home line = none ∧ line ∉ t.poison ∧ t.ctxs = s.ctxs ∧
      h.rts + 1 ≤ (fget t.sliceTs (sliceOf s line)).getD 0 ∧ (fget s.latentL2 line = none → SameMemBut s t (64 * line) 64) := by
  obtain ⟨bs, hn, e⟩ := hostWrites_some hh
  rw [l2Evict_some (fget_fset_self _ _ _)] at e
  have hf := evictFinds_finds { s with home := fset s.home line { h with rts := h.rts + 1 } } line { h with rts := h.rts + 1 }
  obtain ⟨hpo, hme⟩ := evictFinds_host (s := { s with home := fset s.home line { h with rts := h.rts + 1 } })
    { h with rts := h.rts + 1 } (isHbm_of_isHostLine hl)
  refine ⟨_, (hostSnoop_inv hl).trans (congrArg _ e), fget_fdel_self _ _, hpo, hf.ctxs, ?_, fun h2 a ha => ?_⟩
  · show _ ≤ (fget (fset _ (sliceOf s line) _) (sliceOf s line)).getD 0
    rw [fget_fset_self]
    exact Nat.le_max_right _ _
  · refine (memGet_memWrite_out _ _ _ _ (hn ▸ ha)).trans (congrArg (memGet · a) (hme h2))

/-- Settles O32, event by event. -/
theorem hostMemory : Obligations.HostMemory := fun s line block off bs =>
  ⟨patrolScrub_shows s line, hdmRead_none, fun _ hs hp => ⟨hdmRead_enters hs hp, fun _ => hdmRead_waits hs hp⟩,
    hdmWrite_none, fun _ hs hp => hdmWrite_misfit hs hp,
    fun _ _ hs hp h0 hn => ⟨hdmWrite_writes hs hp h0 hn, hdmWrite_held hs hp h0 hn⟩,
    birsp_none, fun _ hb => ⟨birsp_some hb, biTimeout_early hb, biTimeout_records hb⟩,
    hostSnoop_foreign,
    fun hl hh => ⟨by simp [exec_hostSnoop, execHostSnoop, hl, hh], hostSnoop_inv_none hl hh⟩,
    fun h hl hh => ⟨by simp [exec_hostSnoop, execHostSnoop, hl, hh], hostSnoop_inv_some hl hh⟩⟩

end Sys2Proof.Safety
end

section
/-!
SUPPORT. Clock steps, boosts and idle notices: the part of the state that they keep, and the boost that each cluster of a die
receives (R20, R32, R136, R153 to R155).
-/

namespace Sys2Proof.Machine

/-! ## What changes of clock steps and notices keep -/

/-- The state without its clusters and its agenda. -/
def unclocked (s : State) : State := { s with clusters := [], agenda := [] }

theorem dieOf_of_unclocked {s t : State} (h : unclocked t = unclocked s) (d : Nat) : dieOf t d = dieOf s d :=
  congrArg (fun m => (fget m d).getD ({} : Die)) (congrArg State.dies h :)

theorem ctxOf_of_unclocked {s t : State} (h : unclocked t = unclocked s) (n : Nat) : ctxOf t n = ctxOf s n :=
  congrArg (fun m => (fget m n).getD ({} : Ctx)) (congrArg State.ctxs h :)

theorem coreOf_of_unclocked {s t : State} (h : unclocked t = unclocked s) (k : Nat) : coreOf t k = coreOf s k :=
  congrArg (fun m => (fget m k).getD ({} : Core)) (congrArg State.cores h :)

theorem mem_of_unclocked {s t : State} (h : unclocked t = unclocked s) : t.mem = s.mem := (congrArg State.mem h :)

theorem ctxs_of_unclocked {s t : State} (h : unclocked t = unclocked s) : t.ctxs = s.ctxs := (congrArg State.ctxs h :)

theorem gtc_of_unclocked {s t : State} (h : unclocked t = unclocked s) : t.gtc = s.gtc := (congrArg State.gtc h :)

section Parts
variable {α : Type} (π : Cluster → α)

/-- Ordering a step writes the order of the cluster and the agenda. -/
theorem orderStep_unclocked (s : State) (cl : Nat) : unclocked (orderStep s cl) = unclocked s := by
  unfold orderStep
  extract_lets c t u
  split
  · rfl
  · split <;> rfl

theorem orderStep_part (h : ∀ c o, π { c with order := o } = π c) (s : State) (cl j : Nat) :
    π (clOf (orderStep s cl) j) = π (clOf s j) := by
  unfold orderStep
  extract_lets c t u
  have hu : π (clOf u j) = π (clOf s j) := modCl_part π s cl j _ (h _ _)
  split
  · rfl
  · split <;> exact hu

/-- A step that heat takes is taken from what the cap allows (R32). -/
theorem dropStep_base (s : State) (cl : Nat) : (clOf (dropStep s cl) cl).base = min (clOf s cl).base (clOf s cl).cap - 1 := by
  refine (orderStep_part (·.base) (fun _ _ => rfl) _ _ _).trans ?_
  rw [clOf_modCl]

theorem dropStep_unclocked (s : State) (cl : Nat) : unclocked (dropStep s cl) = unclocked s := orderStep_unclocked _ _

/-- Idle notices write what a cluster has told, and the agenda. -/
theorem idleNoticesFor_unclocked (s : State) (cl : Nat) (gs : List Nat) : unclocked (idleNoticesFor s cl gs) = unclocked s :=
  foldl_keeps unclocked _ (fun t g => by extract_lets some?; split <;> rfl) gs s

theorem idleNotices_unclocked (s : State) (n : Nat) : unclocked (idleNotices s n) = unclocked s :=
  idleNoticesFor_unclocked _ _ _

theorem idleNotices_part (h : ∀ c x, π { c with told := x } = π c) (s : State) (n j : Nat) :
    π (clOf (idleNotices s n) j) = π (clOf s j) :=
  foldl_keeps (fun t => π (clOf t j)) _ (fun t g => by
    extract_lets some?
    split
    · rfl
    · exact modCl_part π t (slotCl n) j (fun c => { c with told := if some? then nins c.told g else nrem c.told g }) (h _ _)) _ s

end Parts

/-! ## Clusters of a die -/

theorem mem_dieClusters {d k : Nat} : k ∈ dieClusters d ↔ clDie k = d ∧ clusterOk k = true := by
  simp only [dieClusters, clDie, List.mem_filter, List.mem_map, List.mem_range]
  refine and_congr_left fun _ => ⟨?_, fun h => ⟨k % 64, by omega, by omega⟩⟩
  rintro ⟨i, hi, rfl⟩
  omega

/-! ## The boost of a cluster (R154, R155) -/

/-- The steps that the boosts in force give a cluster. -/
def stepsOf (s : State) (d j : Nat) : Nat := (allBoosts s).foldl (fun m p => max m (boostSteps s d p.1 p.2 j)) 0

/-- A cluster takes a boost, and the change of its step is ordered. -/
def setBoost (s : State) (k n : Nat) : State :=
  if n = (clOf s k).boost then s else orderStep (modCl s k fun c => { c with boost := n }) k

/-- A die's bellows ends the boosts of its hot clusters, and then gives each cluster its steps. -/
theorem boostDie_eq (s : State) (d : Nat) : boostDie s d =
    (dieClusters d).foldl (fun t k => setBoost t k (stepsOf (endHotBoosts s d) d k)) (endHotBoosts s d) := rfl

theorem setBoost_unclocked (s : State) (k n : Nat) : unclocked (setBoost s k n) = unclocked s := by
  unfold setBoost
  split
  · rfl
  · exact orderStep_unclocked _ _

theorem setBoost_part {α : Type} (π : Cluster → α) (h : ∀ c o b, π { c with order := o, boost := b } = π c)
    (s : State) (k n j : Nat) : π (clOf (setBoost s k n) j) = π (clOf s j) := by
  unfold setBoost
  split
  · rfl
  · exact (orderStep_part π (fun c o => h c o c.boost) _ _ _).trans (modCl_part π s k j _ (h _ (clOf s k).order n))

theorem setBoost_boost (s : State) (k n j : Nat) :
    (clOf (setBoost s k n) j).boost = if j = k then n else (clOf s j).boost := by
  unfold setBoost
  split
  · split
    · subst_vars; rfl
    · rfl
  · rw [orderStep_part (·.boost) (fun _ _ => rfl)]
    split
    · subst_vars; rw [clOf_modCl]
    · rw [clOf_modCl_ne _ _ _ _ ‹_›]

/-- Each listed cluster takes its boost, and no other. -/
theorem setBoosts_boost (g : Nat → Nat) (l : List Nat) (s : State) (j : Nat) :
    (clOf (l.foldl (fun t k => setBoost t k (g k)) s) j).boost = if j ∈ l then g j else (clOf s j).boost := by
  induction l generalizing s with
  | nil => rfl
  | cons k l ih =>
    rw [List.foldl_cons, ih, setBoost_boost]
    by_cases hl : j ∈ l
    · simp [hl]
    · by_cases hk : j = k
      · subst hk; simp [hl]
      · simp [hl, hk]

theorem endHotBoosts_unclocked (s : State) (d : Nat) : unclocked (endHotBoosts s d) = unclocked s := by
  unfold endHotBoosts
  extract_lets hot
  split <;> rfl

theorem endHotBoosts_part {α : Type} (π : Cluster → α)
    (h : ∀ (c : Cluster) (e : BoostRec → NSet), π { c with boosts := c.boosts.map fun b => { b with ended := e b } } = π c)
    (s : State) (d j : Nat) : π (clOf (endHotBoosts s d) j) = π (clOf s j) := by
  unfold endHotBoosts
  extract_lets hot
  split
  · rfl
  · exact mapCl_part π s j (fun c => { c with boosts := c.boosts.map fun b => { b with ended := hot.foldl nins b.ended } })
      fun c => h c _

theorem boostDie_unclocked (s : State) (d : Nat) : unclocked (boostDie s d) = unclocked s :=
  (foldl_keeps unclocked _ (fun t k => setBoost_unclocked t k _) _ _).trans (endHotBoosts_unclocked s d)

/-- Boosts change a cluster's boost, its order, and for which clusters its boosts have ended. -/
theorem boostDie_part {α : Type} (π : Cluster → α) (h : ∀ c o b, π { c with order := o, boost := b } = π c)
    (h' : ∀ (c : Cluster) (e : BoostRec → NSet), π { c with boosts := c.boosts.map fun b => { b with ended := e b } } = π c)
    (s : State) (d j : Nat) : π (clOf (boostDie s d) j) = π (clOf s j) :=
  (foldl_keeps (fun t => π (clOf t j)) _ (fun t k => setBoost_part π h t k _ j) _ _).trans (endHotBoosts_part π h' s d j)

theorem boostAll_unclocked (s : State) : unclocked (boostAll s) = unclocked s :=
  foldl_keeps unclocked _ boostDie_unclocked _ _

theorem boostAll_part {α : Type} (π : Cluster → α) (h : ∀ c o b, π { c with order := o, boost := b } = π c)
    (h' : ∀ (c : Cluster) (e : BoostRec → NSet), π { c with boosts := c.boosts.map fun b => { b with ended := e b } } = π c)
    (s : State) (j : Nat) : π (clOf (boostAll s) j) = π (clOf s j) :=
  foldl_keeps (fun t => π (clOf t j)) _ (fun t d => boostDie_part π h h' t d j) _ _

/-! ## Which boosts bear on a cluster -/

/-- What of a boost in force bears on the steps of a cluster. -/
def boostSig (j : Nat) (q : Nat × BoostRec) : Nat × Nat × Nat × Bool := (q.1, q.2.off, q.2.group, q.2.ended.contains j)

/-- The boosts in force as a cluster sees them. -/
def boostSigs (j : Nat) (s : State) : List (Nat × Nat × Nat × Bool) := (allBoosts s).map (boostSig j)

theorem boostSteps_of_sig {s t : State} (h : unclocked t = unclocked s) {j : Nat} {q r : Nat × BoostRec}
    (hs : boostSig j r = boostSig j q) (d : Nat) : boostSteps t d r.1 r.2 j = boostSteps s d q.1 q.2 j := by
  obtain ⟨c, b⟩ := q
  obtain ⟨c', b'⟩ := r
  simp only [boostSig, Prod.mk.injEq] at hs
  obtain ⟨rfl, ho, hg, he⟩ := hs
  have hc : t.ctxs = s.ctxs := ctxs_of_unclocked h
  have hst : stragglers t d b.group = stragglers s d b.group := by simp only [stragglers, hc]
  have hsl : sleepers t c' b.off b.group = sleepers s c' b.off b.group := by simp only [sleepers, waiting, ctxOf, hc]
  rw [boostSteps, boostSteps, dieOf_of_unclocked h, ho, hg, he, hst, hsl]

theorem foldl_max_le {α : Type} (f : α → Nat) (l : List α) (a n : Nat) :
    l.foldl (fun m p => max m (f p)) a ≤ n ↔ a ≤ n ∧ ∀ p ∈ l, f p ≤ n := by
  induction l generalizing a with
  | nil => simp
  | cons p l ih => simp [ih, and_assoc]

/-- The steps of a cluster depend on the set of boosts that it sees. -/
theorem stepsOf_congr {s t : State} (h : unclocked t = unclocked s) {j : Nat}
    (hs : ∀ x, x ∈ boostSigs j t ↔ x ∈ boostSigs j s) (d : Nat) : stepsOf t d j = stepsOf s d j := by
  have le {u v : State} (hu : unclocked v = unclocked u) (hv : ∀ x, x ∈ boostSigs j v → x ∈ boostSigs j u) :
      stepsOf v d j ≤ stepsOf u d j := by
    refine (foldl_max_le _ _ _ _).2 ⟨Nat.zero_le _, fun r hr => ?_⟩
    obtain ⟨q, hq, e⟩ := List.mem_map.1 (hv _ (List.mem_map_of_mem hr))
    rw [boostSteps_of_sig hu e.symm]
    exact ((foldl_max_le _ _ _ _).1 (Nat.le_refl (stepsOf u d j))).2 q hq
  exact Nat.le_antisymm (le h fun x => (hs x).1) (le h.symm fun x => (hs x).2)

theorem mem_of_fget {α : Type} {m : FMap α} {k : Nat} {v : α} (h : fget m k = some v) : (k, v) ∈ m := by
  induction m with
  | nil => cases h
  | cons p t ih =>
    obtain ⟨a, w⟩ := p
    simp only [fget] at h
    split at h
    · cases h; subst_vars; exact List.mem_cons_self
    · exact List.mem_cons_of_mem _ (ih h)

/-- Writing a cluster back with the boosts it has adds none and loses none. -/
theorem mem_boosts_fset (m : FMap Cluster) (k : Nat) (v : Cluster) (h : v.boosts = ((fget m k).getD {}).boosts)
    (c : Nat) (b : BoostRec) : (∃ w, (c, w) ∈ fset m k v ∧ b ∈ w.boosts) ↔ ∃ w, (c, w) ∈ m ∧ b ∈ w.boosts := by
  induction m with
  | nil => simp [fset, h]
  | cons p t ih =>
    obtain ⟨a, w⟩ := p
    simp only [fset]
    split
    next hlt =>
      have ih := ih (by rw [h, fget, if_neg (Nat.ne_of_lt hlt)])
      simp only [List.mem_cons, or_and_right, exists_or, ih]
    next hge =>
      split
      next heq =>
        subst heq
        have hw : v.boosts = w.boosts := by simpa [fget] using h
        simp only [List.mem_cons, or_and_right, exists_or, Prod.mk.injEq, and_assoc, exists_and_left, exists_eq_left, hw]
      next hne =>
        refine ⟨?_, fun ⟨x, hx, hb⟩ => ⟨x, List.mem_cons_of_mem _ hx, hb⟩⟩
        rintro ⟨x, hx, hb⟩
        rcases List.mem_cons.1 hx with hx | hx
        · obtain ⟨rfl, rfl⟩ := Prod.mk.inj hx
          rw [h] at hb
          cases hg : fget ((a, w) :: t) c with
          | none => rw [hg] at hb; cases hb
          | some y => rw [hg] at hb; exact ⟨y, mem_of_fget hg, hb⟩
        · exact ⟨x, hx, hb⟩

theorem mem_allBoosts {s : State} {c : Nat} {b : BoostRec} :
    (c, b) ∈ allBoosts s ↔ ∃ w, (c, w) ∈ s.clusters ∧ b ∈ w.boosts := by
  simp [allBoosts]

theorem mem_boostSigs {s t : State} (h : ∀ q, q ∈ allBoosts t ↔ q ∈ allBoosts s) (j : Nat) (x : Nat × Nat × Nat × Bool) :
    x ∈ boostSigs j t ↔ x ∈ boostSigs j s := by
  simp only [boostSigs, List.mem_map, h]

theorem mem_allBoosts_modCl {s : State} {k : Nat} {f : Cluster → Cluster} (h : (f (clOf s k)).boosts = (clOf s k).boosts)
    (q : Nat × BoostRec) : q ∈ allBoosts (modCl s k f) ↔ q ∈ allBoosts s := by
  obtain ⟨c, b⟩ := q
  rw [mem_allBoosts, mem_allBoosts]
  exact mem_boosts_fset _ _ _ h c b

theorem mem_allBoosts_orderStep (s : State) (cl : Nat) (q : Nat × BoostRec) :
    q ∈ allBoosts (orderStep s cl) ↔ q ∈ allBoosts s := by
  unfold orderStep
  extract_lets c t u
  have hu : q ∈ allBoosts u ↔ q ∈ allBoosts s := mem_allBoosts_modCl rfl q
  split
  · rfl
  · split <;> exact hu

theorem mem_allBoosts_setBoosts (g : Nat → Nat) (l : List Nat) (s : State) (q : Nat × BoostRec) :
    q ∈ allBoosts (l.foldl (fun t k => setBoost t k (g k)) s) ↔ q ∈ allBoosts s := by
  induction l generalizing s with
  | nil => rfl
  | cons k l ih =>
    rw [List.foldl_cons, ih]
    unfold setBoost
    split
    · rfl
    · rw [mem_allBoosts_orderStep, mem_allBoosts_modCl rfl]

theorem mem_nins {m : NSet} {k j : Nat} : j ∈ nins m k ↔ j = k ∨ j ∈ m := by
  induction m with
  | nil => simp [nins]
  | cons a t ih =>
    simp only [nins]
    split
    · simp only [List.mem_cons, ih]; tauto
    · split
      · subst_vars; simp
      · simp

theorem mem_foldl_nins {l m : List Nat} {j : Nat} : j ∈ l.foldl nins m ↔ j ∈ l ∨ j ∈ m := by
  induction l generalizing m with
  | nil => simp
  | cons k l ih => rw [List.foldl_cons, ih, mem_nins, List.mem_cons]; tauto

/-- Heat in a die ends boosts for its own clusters alone. -/
theorem endHotBoosts_sigs {s : State} {d j : Nat} (hj : j ∉ dieClusters d) :
    boostSigs j (endHotBoosts s d) = boostSigs j s := by
  unfold endHotBoosts
  extract_lets hot
  split
  · rfl
  · have hh : j ∉ hot := fun h => hj (List.mem_filter.1 h).1
    have he (m : NSet) : (hot.foldl nins m).contains j = m.contains j := by
      rw [Bool.eq_iff_iff, List.contains_iff_mem, List.contains_iff_mem, mem_foldl_nins]; simp [hh]
    simp only [boostSigs, allBoosts, List.flatMap_map, List.map_flatMap, List.map_map]
    congr 1
    funext p
    congr 1
    funext b
    simp only [Function.comp_apply, boostSig, he]

theorem boostDie_sigs {s : State} {d j : Nat} (hj : j ∉ dieClusters d) (x : Nat × Nat × Nat × Bool) :
    x ∈ boostSigs j (boostDie s d) ↔ x ∈ boostSigs j s := by
  rw [boostDie_eq, mem_boostSigs (mem_allBoosts_setBoosts _ _ _), endHotBoosts_sigs hj]

/-- A cluster of the die has the steps that the boosts in force give it. -/
theorem boostDie_boost {s : State} {d j : Nat} (hj : j ∈ dieClusters d) :
    (clOf (boostDie s d) j).boost = stepsOf (boostDie s d) d j := by
  have hu : unclocked (boostDie s d) = unclocked (endHotBoosts s d) :=
    (boostDie_unclocked s d).trans (endHotBoosts_unclocked s d).symm
  have hs : ∀ x, x ∈ boostSigs j (boostDie s d) ↔ x ∈ boostSigs j (endHotBoosts s d) := by
    rw [boostDie_eq]; exact mem_boostSigs (mem_allBoosts_setBoosts _ _ _) j
  rw [stepsOf_congr hu hs, boostDie_eq, setBoosts_boost, if_pos hj]

/-- A cluster of another die keeps its boost. -/
theorem boostDie_boost_other {s : State} {d j : Nat} (hj : j ∉ dieClusters d) :
    (clOf (boostDie s d) j).boost = (clOf s j).boost := by
  rw [boostDie_eq, setBoosts_boost, if_neg hj]
  exact endHotBoosts_part (·.boost) (fun _ _ => rfl) s d j

/-- After the bellows of several dies have worked out their boosts, a cluster of one of them has its steps. -/
theorem boostDies_boost {j d : Nat} (hj : j ∈ dieClusters d) (l : List Nat) (s : State)
    (h : d ∈ l ∨ (clOf s j).boost = stepsOf s d j) :
    (clOf (l.foldl boostDie s) j).boost = stepsOf (l.foldl boostDie s) d j := by
  induction l generalizing s with
  | nil => exact h.resolve_left List.not_mem_nil
  | cons e l ih =>
    refine ih (boostDie s e) ?_
    by_cases hd : d = e
    · subst hd; exact .inr (boostDie_boost hj)
    · have ho : j ∉ dieClusters e := fun hm => hd ((mem_dieClusters.1 hj).1.symm.trans (mem_dieClusters.1 hm).1)
      refine h.imp (fun hm => (List.mem_cons.1 hm).resolve_left hd) fun hs => ?_
      rw [boostDie_boost_other ho, hs, stepsOf_congr (boostDie_unclocked s e) (boostDie_sigs ho)]

/-- Once all bellows have worked out their boosts, every cluster has its steps (R155). -/
theorem boostAll_boost (s : State) {j : Nat} (hj : j < 256) (hc : clusterOk j = true) :
    (clOf (boostAll s) j).boost = stepsOf (boostAll s) (clDie j) j :=
  boostDies_boost (mem_dieClusters.2 ⟨rfl, hc⟩) _ _ (.inl (List.mem_range.2 (by simp only [clDie]; omega)))

end Sys2Proof.Machine
end

section
/-!
CERTIFICATES. Windows, grants, clock steps, the ranking table, heat, boosts, owed interrupts and bridge errors (R14, R20 to
R32, R122, R154, R155).
-/

namespace Sys2Proof.Machine

/-! ## What the events of power and heat run -/

theorem exec_windowBoundary (s : State) (d : Nat) : exec (.windowBoundary d) s = execWindowBoundary d s := rfl
theorem exec_grantEnd (s : State) (h : Holder) : exec (.grantEnd h) s = execGrantEnd h s := rfl
theorem exec_clockStepChangeDone (s : State) (cl : Nat) : exec (.clockStepChangeDone cl) s = execClockStepChangeDone cl s := rfl
theorem exec_thermalTableRefresh (s : State) (d : Nat) (temps : List (Nat × Nat)) :
    exec (.thermalTableRefresh d temps) s = execThermalTableRefresh d temps s := rfl
theorem exec_thermalSlotDisable (s : State) (core temp : Nat) :
    exec (.thermalSlotDisable core temp) s = execThermalSlotDisable core temp s := rfl
theorem exec_thermalSlotEnable (s : State) (core temp : Nat) :
    exec (.thermalSlotEnable core temp) s = execThermalSlotEnable core temp s := rfl
theorem exec_boost (s : State) (cl off : Nat) : exec (.boost cl off) s = execBoost cl off s := rfl
theorem exec_release (s : State) (cl off : Nat) : exec (.release cl off) s = execRelease cl off s := rfl
theorem exec_moderationIntervalExpiry (s : State) (q : Nat) :
    exec (.moderationIntervalExpiry q) s = execModerationIntervalExpiry q s := rfl
theorem exec_bridgeReplay (s : State) (d : Nat) (o : BridgeOutcome) : exec (.bridgeReplay d o) s = execBridgeReplay d o s := rfl

/-! ## Meters and windows (R23, R35) -/

/-- The meters of a die and its clusters count on by free amounts, and a window's metering changes no other part of a die. -/
theorem meterWindow_keeps (s : State) (d : Nat) : (meterWindow s d).mem = s.mem ∧ (meterWindow s d).ctxs = s.ctxs ∧
    (∃ x, dieOf (meterWindow s d) d = { dieOf s d with meter := x }) ∧ ∀ j, j ≠ d → dieOf (meterWindow s d) j = dieOf s j := by
  have hc (l : List Nat) (t : State) : ∃ m f,
      l.foldl (fun u c => let (f, v) := draw u; meterCl v c (Config.energy f)) t = { t with clusters := m, fresh := f } := by
    induction l generalizing t with
    | nil => exact ⟨_, _, rfl⟩
    | cons c l ih =>
      obtain ⟨m, f, h⟩ := ih (meterCl (draw t).2 c (Config.energy t.fresh))
      exact ⟨m, f, h⟩
  obtain ⟨m, f, h⟩ := hc (dieClusters d) s
  simp only [meterWindow, h]
  exact ⟨rfl, rfl, ⟨_, dieOf_modDie _ _ _⟩, fun j hj => dieOf_modDie_ne _ _ _ _ hj⟩

/-- Energy is read off the meters of the clusters and the die. -/
theorem dieEnergy_congr {s t : State} {d : Nat} (hc : ∀ j, (clOf t j).meter = (clOf s j).meter)
    (hd : (dieOf t d).meter = (dieOf s d).meter) : dieEnergy t d = dieEnergy s d := by
  simp only [dieEnergy, hc, hd]

/-! ## Slots of a core (R31) -/

/-- A change of a core that leaves which of its slots are off leaves which slots are on. -/
theorem slotOn_congr {s t : State} (h : ∀ k, (coreOf t k).off = (coreOf s k).off) (n : Nat) : slotOn t n = slotOn s n := by
  simp only [slotOn, h]

theorem modCore_part {α : Type} (π : Core → α) (s : State) (k j : Nat) (f : Core → Core)
    (h : π (f (coreOf s k)) = π (coreOf s k)) : π (coreOf (modCore s k f) j) = π (coreOf s j) := by
  by_cases hj : j = k
  · subst hj; rw [coreOf_modCore, h]
  · rw [coreOf_modCore_ne _ _ _ _ hj]

/-- The slot that heat would take lies in the core. -/
theorem slotCore_of_hotSlot {s : State} {core n : Nat} (h : hotSlot s core = some n) : slotCore n = core := by
  obtain ⟨i, -, rfl⟩ := List.mem_map.1 (List.mem_of_find?_eq_some h)
  simp only [slotCore]
  omega

theorem hotSlot_congr {s t : State} (hc : t.ctxs = s.ctxs) (h : ∀ k, (coreOf t k).off = (coreOf s k).off) (core : Nat) :
    hotSlot t core = hotSlot s core := by
  simp only [hotSlot, slotOn_congr h, ctxOf, hc]

theorem givingUp_congr {s t : State} (hc : t.ctxs = s.ctxs) (core : Nat) : givingUp t core = givingUp s core := by
  simp only [givingUp, ctxOf, hc]

/-- The state in which heat or its absence acts on a core: its temperature is noted, and the boosts of its die are worked out
again (R31, R32, R155). -/
def heated (s : State) (core temp : Nat) : State :=
  boostDie (modCore s core fun k => { k with temp := temp }) (clDie (core / 8))

theorem heated_unclocked (s : State) (core temp : Nat) :
    unclocked (heated s core temp) = unclocked (modCore s core fun k => { k with temp := temp }) := boostDie_unclocked _ _

theorem heated_part {α : Type} (π : Cluster → α) (h : ∀ c o b, π { c with order := o, boost := b } = π c)
    (h' : ∀ (c : Cluster) (e : BoostRec → NSet), π { c with boosts := c.boosts.map fun b => { b with ended := e b } } = π c)
    (s : State) (core temp j : Nat) : π (clOf (heated s core temp) j) = π (clOf s j) := boostDie_part π h h' _ _ j

theorem coreOf_heated (s : State) (core temp : Nat) :
    coreOf (heated s core temp) core = { coreOf s core with temp := temp } := by
  rw [coreOf_of_unclocked (heated_unclocked s core temp), coreOf_modCore]

theorem heated_off (s : State) (core temp k : Nat) : (coreOf (heated s core temp) k).off = (coreOf s k).off := by
  rw [coreOf_of_unclocked (heated_unclocked s core temp)]
  exact modCore_part (·.off) s core k _ rfl

theorem mem_heated (s : State) (core temp : Nat) : (heated s core temp).mem = s.mem :=
  (mem_of_unclocked (heated_unclocked s core temp)).trans rfl

theorem ctxs_heated (s : State) (core temp : Nat) : (heated s core temp).ctxs = s.ctxs :=
  (ctxs_of_unclocked (heated_unclocked s core temp)).trans rfl

theorem gtc_heated (s : State) (core temp : Nat) : (heated s core temp).gtc = s.gtc :=
  (gtc_of_unclocked (heated_unclocked s core temp)).trans rfl

theorem dieOf_heated (s : State) (core temp d : Nat) : dieOf (heated s core temp) d = dieOf s d :=
  (dieOf_of_unclocked (heated_unclocked s core temp) d).trans rfl

theorem ctxOf_heated (s : State) (core temp n : Nat) : ctxOf (heated s core temp) n = ctxOf s n :=
  (ctxOf_of_unclocked (heated_unclocked s core temp) n).trans rfl

/-- What heat does where a core reads above THERM.HOT and has given up no slot of late (R31, R32). -/
theorem thermalSlotDisable_acts {s : State} {core temp : Nat} (hc : clusterOk (core / 8) = true)
    (hh : (dieOf s (clDie (core / 8))).hot < temp) (hu : ∀ u, (coreOf s core).lastOff = some u → u + 100000 ≤ s.gtc) :
    let u := heated s core temp
    let t := modCore u core fun k => { k with lastOff := some s.gtc }
    (12 ≤ offCount (coreOf u core) → exec (.thermalSlotDisable core temp) s = .next (dropStep t (core / 8))) ∧
    (offCount (coreOf u core) < 12 → givingUp u core = true → exec (.thermalSlotDisable core temp) s = .next u) ∧
    ∀ n, offCount (coreOf u core) < 12 → givingUp u core = false → hotSlot u core = some n →
      ((ctxOf t n).active = false → exec (.thermalSlotDisable core temp) s = .next (idleNotices (disableSlot t n) n)) ∧
      ((ctxOf t n).active = true → (ctxOf t n).preempt = none →
        exec (.thermalSlotDisable core temp) s = .next (displace t n)) := by
  intro u t
  have hk : (coreOf u core).lastOff = (coreOf s core).lastOff := by
    show (coreOf (heated s core temp) core).lastOff = _
    rw [coreOf_heated]
  have hg : u.gtc = s.gtc := gtc_heated s core temp
  have hd : (dieOf u (clDie (core / 8))).hot < temp := (dieOf_heated s core temp _).symm ▸ hh
  generalize ho : exec (.thermalSlotDisable core temp) s = o
  rw [exec_thermalSlotDisable, execThermalSlotDisable] at ho
  extract_lets s1 u' k soon t' at ho
  have hs : soon = false := by
    change (match (coreOf u core).lastOff with | some g => decide (u.gtc < g + 100000) | none => false) = false
    cases hl : (coreOf s core).lastOff with
    | none => rw [hk, hl]
    | some g => rw [hk, hl, hg]; simpa using hu g hl
  have ht : t' = t := congrArg (fun g => modCore u core fun k => { k with lastOff := some g }) hg
  rw [if_neg (by simp [hc]), if_neg (by rw [hs, Bool.or_false, decide_eq_true_eq, Nat.not_le]; exact hd), ht] at ho
  refine ⟨fun h => ?_, fun h hgu => ?_, fun n h hgu hn => ?_⟩
  · exact ho.symm.trans (if_pos h)
  · exact ho.symm.trans ((if_neg (Nat.not_le.2 h)).trans (if_pos hgu))
  · have hn' : hotSlot u' core = some n := hn
    have hgu' : ¬givingUp u' core = true := by rw [show givingUp u' core = false from hgu]; decide
    replace ho := ho.symm.trans ((if_neg (Nat.not_le.2 h)).trans (if_neg hgu'))
    rw [hn'] at ho
    refine ⟨fun ha => ?_, fun ha hp => ?_⟩
    · exact ho.trans (if_pos (by simp [ha]))
    · exact ho.trans ((if_neg (by simp [ha])).trans (if_neg (by simp [hp])))

/-! ## A slot given back (R32) -/

theorem lowest_eq_some {n k : Nat} {p : Nat → Bool} (hk : k < n) (hp : p k = true) (hl : ∀ j < k, p j = false) :
    lowest n p = some k :=
  List.find?_range_eq_some.2 ⟨hp, List.mem_range.2 hk, fun j hj => by simp [hl j hj]⟩

/-- A core takes a disabled slot back. -/
def slotBack (u : State) (core i : Nat) : State :=
  idleNotices (modCore u core fun k =>
    { k with off := k.off &&& ~~~(BitVec.ofNat 16 (2 ^ i)), lastOn := some u.gtc }) (core * 16 + i)

/-- A cluster takes a step back for a core. -/
def stepBack (t : State) (core now : Nat) : State :=
  orderStep (modCl (modCore t core fun k => { k with lastRegain := some now }) (core / 8) fun c =>
    { c with base := c.base + 1, heat := c.heat - 1 }) (core / 8)

/-- What a core that reads below THERM.HOT − 5 gets back (R32): a slot, if it got none of late, and a step for its cluster, if
it got none of late and heat holds the cluster down. -/
theorem thermalSlotEnable_acts {s : State} {core temp : Nat} (hc : clusterOk (core / 8) = true)
    (hh : temp + 5 < (dieOf s (clDie (core / 8))).hot) :
    let u := heated s core temp
    ∃ t, (t = u ∨ ∃ i, t = slotBack u core i) ∧
      (∀ k, lowest 16 (fun i => (coreOf u core).off.getLsbD i) = some k →
        (∀ g, (coreOf u core).lastOn = some g → g + 1000000 ≤ u.gtc) → t = slotBack u core k) ∧
      (exec (.thermalSlotEnable core temp) s = .next t ∨
        exec (.thermalSlotEnable core temp) s = .next (stepBack t core u.gtc)) ∧
      ((∀ g, (coreOf u core).lastRegain = some g → g + 1000000 ≤ u.gtc) →
        (clOf t (core / 8)).base < (clOf t (core / 8)).cap →
        exec (.thermalSlotEnable core temp) s = .next (stepBack t core u.gtc)) := by
  intro u
  have hd : ¬(dieOf u (clDie (core / 8))).hot ≤ temp + 5 := by
    rw [show dieOf u = dieOf s from funext (dieOf_heated s core temp)]; omega
  generalize ho : exec (.thermalSlotEnable core temp) s = o
  rw [exec_thermalSlotEnable, execThermalSlotEnable] at ho
  extract_lets s1 u' k ready t t' at ho
  rw [if_neg (by simp [hc])] at ho
  replace ho := ho.symm.trans (if_neg hd)
  have hr (x : Option Nat) (hx : ∀ g, x = some g → g + 1000000 ≤ u.gtc) : ready x = true := by
    cases x with
    | none => rfl
    | some g => exact decide_eq_true (hx g rfl)
  refine ⟨t, ?_, fun i hi hon => ?_, ?_, fun hre hb => ?_⟩
  · simp only [t]
    split
    · split
      · exact .inr ⟨_, rfl⟩
      · exact .inl rfl
    · exact .inl rfl
  · have hi' : lowest 16 (fun i => k.off.getLsbD i) = some i := hi
    simp only [t, hi', hr k.lastOn hon, if_true]
    rfl
  · by_cases h : (ready k.lastRegain && decide ((clOf t (core / 8)).base < (clOf t (core / 8)).cap)) = true
    · exact .inr (ho.trans (if_pos h))
    · exact .inl (ho.trans (if_neg h))
  · exact ho.trans (if_pos (by rw [hr k.lastRegain hre, Bool.true_and]; exact decide_eq_true hb))

/-! ## Moves of a context -/

/-- A context that starts to move: its origin notes it, its cells pause, and a marker goes out on every class (R151, R201). -/
theorem startMove_keeps (s : State) (n dst : Nat) :
    (startMove s n dst).mem = s.mem ∧ (startMove s n dst).cores = s.cores ∧
    (ctxOf (startMove s n dst) n).moving = some ([0, 1, 2, 3], dst) ∧
    ∀ k < 4, .flushMarker (nameOf (ctxOf s n)) k ∈ (startMove s n dst).agenda := by
  unfold startMove
  extract_lets name e t u
  have hl (v : State) : (List.range 4).foldl (fun w k => later w (.flushMarker name k)) v =
      { v with agenda := v.agenda ++ (List.range 4).map (.flushMarker name ·) } := by
    simp [List.range_succ, later]
  rw [hl]
  refine ⟨rfl, rfl, ?_, fun k hk => List.mem_append_right _ (List.mem_map_of_mem (List.mem_range.2 hk))⟩
  show (ctxOf u n).moving = _
  simp only [u, ctxOf_modCtx]

theorem fwdEntry_congr {s t : State} (h : ∀ j, (clOf t j).fwd = (clOf s j).fwd) (name : Nat) :
    fwdEntry t name = fwdEntry s name := by
  simp only [fwdEntry, h]

end Sys2Proof.Machine

namespace Sys2Proof.Safety

open Sys2Proof.Machine

/-! ## Windows and grants -/

/-- R22, R23, R35: the level refills by the budget, less what was drawn without a grant in the window that ends. -/
theorem windowBoundary_refills {s : State} {d : Nat} (hd : d < 4) (hr : s.gtcRun = true) (hq : ∀ j, (dieOf s j).reqs = []) :
    Does (.windowBoundary d) s fun t => SameMem s t ∧ t.ctxs = s.ctxs ∧
      (dieOf t d).level = min (dieOf s d).level ((s.watts * 500 / 2 : Nat) : Int) + (s.watts * 500 : Nat) -
        ((dieEnergy t d - (dieOf s d).mark - Config.admitted s.fresh : Nat) : Int) ∧
      (dieOf t d).b = s.watts * 500 ∧ (dieOf t d).mark = dieEnergy t d ∧ (dieOf t d).win = (dieOf s d).win + 1 ∧
      ∀ j, j ≠ d → dieOf t j = dieOf s j := by
  obtain ⟨hm, hc, ⟨x, hx⟩, hne⟩ := meterWindow_keeps { s with fresh := s.fresh + 1 } d
  rw [Does, exec_windowBoundary, execWindowBoundary, if_neg (by simp [hr]; omega)]
  simp only [draw]
  generalize meterWindow { s with fresh := s.fresh + 1 } d = w at hm hc hx hne
  generalize hv : modDie w d _ = v
  have hu := boostDie_unclocked v d
  have hv' := dieOf_modDie w d fun e => { e with
    level := min e.level ((s.watts * 500 / 2 : Nat) : Int) + (s.watts * 500 : Nat) - (unadmitted w d s.fresh : Int),
    b := s.watts * 500, win := e.win + 1, mark := dieEnergy w d }
  rw [hv] at hv'
  have he : dieEnergy (boostDie v d) d = dieEnergy w d :=
    dieEnergy_congr (fun j => (boostDie_part (·.meter) (fun _ _ _ => rfl) (fun _ _ => rfl) v d j).trans (by rw [← hv]; rfl))
      (by rw [dieOf_of_unclocked hu, hv'])
  refine ⟨_, rfl, ?_⟩
  rw [bellows_of_no_reqs _ _ (by rw [dieOf_of_unclocked hu, hv', hx]; exact hq d), he, dieOf_of_unclocked hu, hv', hx, unadmitted, hx]
  refine ⟨fun a => ?_, ?_, rfl, rfl, rfl, rfl, fun j hj => ?_⟩
  · rw [mem_of_unclocked hu, ← hv]; exact congrArg (memGet · a) hm
  · rw [ctxs_of_unclocked hu, ← hv]; exact hc
  · rw [dieOf_of_unclocked hu, ← hv, dieOf_modDie_ne _ _ _ _ hj]; exact hne j hj

theorem windowBoundary_none {s : State} {d : Nat} (h : 4 ≤ d ∨ s.gtcRun = false) :
    exec (.windowBoundary d) s = .next s := by
  rw [exec_windowBoundary, execWindowBoundary, if_pos (by simpa using h)]

/-- What a grant leaves returns to a die at which nobody waits. -/
theorem returnEu_of_no_reqs {s : State} {d : Nat} (left : Nat) (h : (dieOf s d).reqs = []) :
    returnEu s d left = modDie s d fun e => { e with level := e.level + left } :=
  bellows_of_no_reqs _ _ (by rw [dieOf_modDie]; exact h)

/-- R26: a swarm context's grant ends, and what it left goes back to its die. -/
theorem grantEnd_ctx {s : State} {n : Nat} {g : Grant} (hq : ∀ j, (dieOf s j).reqs = [])
    (hg : (ctxOf s n).grant = some g) (he : g.endCyc ≤ holderCyc s (.ctx n)) : exec (.grantEnd (.ctx n)) s =
      .next (modDie (modCtx s n fun c => { c with grant := none }) (clDie (slotCl n)) fun e => { e with level := e.level + g.left }) := by
  simp only [exec_grantEnd, execGrantEnd, hg, decide_eq_true he, if_true, endGrant]
  exact congrArg _ (returnEu_of_no_reqs g.left (hq (clDie (slotCl n))))

/-- R26: an anvil context's grant ends. -/
theorem grantEnd_anvil {s : State} {n k : Nat} {g : Grant} (hq : ∀ j, (dieOf s j).reqs = [])
    (hg : (avCtx (avOf s n) k).grant = some g) (he : g.endCyc ≤ holderCyc s (.anvil n k)) : exec (.grantEnd (.anvil n k)) s =
      .next (modDie (modAvCtx s n k fun c => { c with grant := none }) (clDie (n / 2)) fun e => { e with level := e.level + g.left }) := by
  simp only [exec_grantEnd, execGrantEnd, hg, decide_eq_true he, if_true, endGrant]
  exact congrArg _ (returnEu_of_no_reqs (s := modAvCtx s n k _) g.left (hq (clDie (n / 2))))

/-- R20: an ordered step takes effect. -/
theorem clockStepChangeDone_takes {s : State} {cl k : Nat} (h : (clOf s cl).order = some k) :
    exec (.clockStepChangeDone cl) s = .next (modCl s cl fun c => { c with cur := k, order := none }) := by
  simp only [exec_clockStepChangeDone, execClockStepChangeDone, modCl, h]

/-! ## The ranking table (R30) -/

theorem thermalTableRefresh_ranks {s : State} {d : Nat} {temps : List (Nat × Nat)} (hd : d < 4) (ht : ∀ p ∈ temps, p.2 < 256) :
    Does (.thermalTableRefresh d temps) s fun t =>
      let own := temps.filter fun p => clusterOk p.1 && clDie p.1 == d
      (dieOf t d).ranks.length = min 16 own.length ∧ (dieOf t d).ranks.Pairwise (fun x y => x.temp ≤ y.temp) ∧
      (∀ r ∈ (dieOf t d).ranks, (r.cluster, r.temp) ∈ own ∧ r.free = min 31 (idleSlots s r.cluster).length) ∧
      (∀ p ∈ own, (∀ r ∈ (dieOf t d).ranks, r.cluster ≠ p.1) → ∀ r ∈ (dieOf t d).ranks, r.temp ≤ p.2) ∧ SameMem s t := by
  refine ⟨_, by rw [exec_thermalTableRefresh, execThermalTableRefresh, if_neg (by omega)], ?_⟩
  extract_lets own
  beta_reduce
  rw [dieOf_modDie]
  have hs : (own.mergeSort fun a b => decide (a.2 ≤ b.2)).Pairwise fun a b => a.2 ≤ b.2 := by
    have h := List.pairwise_mergeSort (le := fun a b : Nat × Nat => decide (a.2 ≤ b.2))
      (fun a b c hab hbc => by simp only [decide_eq_true_eq] at *; omega)
      (fun a b => by simp only [Bool.or_eq_true, decide_eq_true_eq]; omega) own
    exact h.imp fun h => of_decide_eq_true h
  have hm {p : Nat × Nat} : p ∈ own.mergeSort (fun a b => decide (a.2 ≤ b.2)) ↔ p ∈ own := List.mem_mergeSort
  have hmod {p : Nat × Nat} (hp : p ∈ own) : p.2 % 256 = p.2 := Nat.mod_eq_of_lt (ht p (List.mem_filter.1 hp).1)
  have hlen : (own.mergeSort fun a b => decide (a.2 ≤ b.2)).length = own.length := List.length_mergeSort own
  generalize own.mergeSort (fun a b => decide (a.2 ≤ b.2)) = l at hs hm hlen
  have htake {p : Nat × Nat} (hp : p ∈ l.take 16) : p ∈ own := hm.1 (List.mem_of_mem_take hp)
  refine ⟨by simp [hlen], ?_, ?_, ?_, fun _ => rfl⟩
  · rw [List.pairwise_map]
    refine (hs.sublist (List.take_sublist 16 l)).imp_of_mem fun ha hb h => ?_
    rw [hmod (htake ha), hmod (htake hb)]
    exact h
  · intro r hr
    obtain ⟨p, hp, rfl⟩ := List.mem_map.1 hr
    exact ⟨by rw [hmod (htake hp)]; exact htake hp, rfl⟩
  · intro p hp hout r hr
    obtain ⟨q, hq, rfl⟩ := List.mem_map.1 hr
    have hd : p ∈ l.drop 16 := by
      have h := hm.2 hp
      rw [← List.take_append_drop 16 l] at h
      exact (List.mem_append.1 h).resolve_left fun h => hout _ (List.mem_map_of_mem h) rfl
    rw [← List.take_append_drop 16 l, List.pairwise_append] at hs
    rw [hmod (htake hq)]
    exact hs.2.2 q hq p hd

end Sys2Proof.Safety
end

section
/-!
CERTIFICATES. Heat, boosts, owed interrupts and bridge errors (R14, R31, R32, R122, R154, R155).
-/

namespace Sys2Proof.Safety

open Sys2Proof.Machine

/-! ## Heat (R31, R32) -/

section Heat
variable {s : State} {core temp : Nat}

/-- A core too hot gives up no slot while one of it is being given up. -/
theorem thermalSlotDisable_waits (hc : clusterOk (core / 8) = true) (hh : (dieOf s (clDie (core / 8))).hot < temp)
    (hu : ∀ u, (coreOf s core).lastOff = some u → u + 100000 ≤ s.gtc) (ho : offCount (coreOf s core) < 12)
    (hg : givingUp s core = true) : Does (.thermalSlotDisable core temp) s fun t => SameMem s t ∧ t.ctxs = s.ctxs ∧
      (coreOf t core).off = (coreOf s core).off ∧ (coreOf t core).lastOff = (coreOf s core).lastOff := by
  obtain ⟨-, hw, -⟩ := thermalSlotDisable_acts hc hh hu
  refine ⟨_, hw (by rw [coreOf_heated]; exact ho) (by rw [givingUp_congr (ctxs_heated s core temp)]; exact hg),
    fun a => by rw [mem_heated], ctxs_heated s core temp, ?_, ?_⟩ <;> rw [coreOf_heated]

/-- Past twelve slots a cluster loses a clock step. -/
theorem thermalSlotDisable_slows (hc : clusterOk (core / 8) = true) (hh : (dieOf s (clDie (core / 8))).hot < temp)
    (hu : ∀ u, (coreOf s core).lastOff = some u → u + 100000 ≤ s.gtc) (ho : 12 ≤ offCount (coreOf s core)) :
    Does (.thermalSlotDisable core temp) s fun t => SameMem s t ∧
      (clOf t (core / 8)).base = min (clOf s (core / 8)).base (clOf s (core / 8)).cap - 1 ∧
      (coreOf t core).off = (coreOf s core).off := by
  obtain ⟨hd, -, -⟩ := thermalSlotDisable_acts hc hh hu
  refine ⟨_, hd (by rw [coreOf_heated]; exact ho), ?_⟩
  generalize ht : modCore (heated s core temp) core (fun k => { k with lastOff := some s.gtc }) = t
  have hcl (j : Nat) : clOf t j = clOf (heated s core temp) j := by rw [← ht]; rfl
  have hp {α : Type} (π : Cluster → α) := heated_part π (s := s) (core := core) (temp := temp) (j := core / 8)
  refine ⟨fun a => ?_, ?_, ?_⟩
  · rw [mem_of_unclocked (dropStep_unclocked t _), ← ht]
    exact congrArg (memGet · a) (mem_heated s core temp)
  · rw [dropStep_base, hcl]
    exact congrArg₂ (fun b c => min b c - 1) (hp (·.base) (fun _ _ _ => rfl) fun _ _ => rfl)
      (hp (·.cap) (fun _ _ _ => rfl) fun _ _ => rfl)
  · rw [coreOf_of_unclocked (dropStep_unclocked t _), ← ht, coreOf_modCore]
    exact heated_off s core temp core

/-- The slot heat takes is disabled at once where no context is on it. -/
theorem thermalSlotDisable_disables {n : Nat} (hc : clusterOk (core / 8) = true) (hh : (dieOf s (clDie (core / 8))).hot < temp)
    (hu : ∀ u, (coreOf s core).lastOff = some u → u + 100000 ≤ s.gtc) (ho : offCount (coreOf s core) < 12)
    (hg : givingUp s core = false) (hn : hotSlot s core = some n) (ha : (ctxOf s n).active = false) :
    Does (.thermalSlotDisable core temp) s fun t => SameMem s t ∧
      (coreOf t core).off = (coreOf s core).off ||| BitVec.ofNat 16 (2 ^ (n % 16)) ∧
      (coreOf t core).lastOff = some s.gtc := by
  obtain ⟨-, -, hd⟩ := thermalSlotDisable_acts hc hh hu
  obtain ⟨hd, -⟩ := hd n (by rw [coreOf_heated]; exact ho) (by rw [givingUp_congr (ctxs_heated s core temp)]; exact hg)
    (by rw [hotSlot_congr (ctxs_heated s core temp) (heated_off s core temp)]; exact hn)
  refine ⟨_, hd ((congrArg Ctx.active (ctxOf_heated s core temp n)).trans ha), ?_⟩
  generalize ht : modCore (heated s core temp) core (fun k => { k with lastOff := some s.gtc }) = t
  have hk : coreOf (idleNotices (disableSlot t n) n) core =
      { coreOf s core with temp := temp, lastOff := some s.gtc, off := (coreOf s core).off ||| BitVec.ofNat 16 (2 ^ (n % 16)) } := by
    rw [coreOf_of_unclocked (idleNotices_unclocked _ n), disableSlot, slotCore_of_hotSlot hn, coreOf_modCore, ← ht, coreOf_modCore,
      coreOf_heated]
  refine ⟨fun a => ?_, by rw [hk], by rw [hk]⟩
  rw [mem_of_unclocked (idleNotices_unclocked _ n), ← ht]
  exact congrArg (memGet · a) (mem_heated s core temp)

/-- A context on the slot heat takes starts to move to the coolest cluster with room. -/
theorem displace_eq_startMove {t : State} {n : Nat} {r : Rank} (hf : fwdEntry t (nameOf (ctxOf t n)) ≠ none)
    (hr : (dieOf t (clDie (slotCl n))).ranks.find? (fun r => decide (1 ≤ r.free) && r.cluster != slotCl n) = some r) :
    displace t n = startMove t n r.cluster := by
  simp only [displace, hr]
  exact if_pos (by simp [Option.isSome_iff_ne_none.2 hf])

theorem thermalSlotDisable_moves {n : Nat} {r : Rank} (hc : clusterOk (core / 8) = true)
    (hh : (dieOf s (clDie (core / 8))).hot < temp) (hu : ∀ u, (coreOf s core).lastOff = some u → u + 100000 ≤ s.gtc)
    (ho : offCount (coreOf s core) < 12) (hg : givingUp s core = false) (hn : hotSlot s core = some n)
    (ha : (ctxOf s n).active = true) (hp : (ctxOf s n).preempt = none) (hf : fwdEntry s (nameOf (ctxOf s n)) ≠ none)
    (hr : (dieOf s (clDie (core / 8))).ranks.find? (fun r => decide (1 ≤ r.free) && r.cluster != slotCl n) = some r) :
    Does (.thermalSlotDisable core temp) s fun t => SameMem s t ∧ (ctxOf t n).moving = some ([0, 1, 2, 3], r.cluster) ∧
      (coreOf t core).off = (coreOf s core).off ∧ ∀ j < 4, .flushMarker (nameOf (ctxOf s n)) j ∈ t.agenda := by
  obtain ⟨-, -, hd⟩ := thermalSlotDisable_acts hc hh hu
  obtain ⟨-, hd⟩ := hd n (by rw [coreOf_heated]; exact ho) (by rw [givingUp_congr (ctxs_heated s core temp)]; exact hg)
    (by rw [hotSlot_congr (ctxs_heated s core temp) (heated_off s core temp)]; exact hn)
  refine ⟨_, hd ((congrArg Ctx.active (ctxOf_heated s core temp n)).trans ha)
    ((congrArg Ctx.preempt (ctxOf_heated s core temp n)).trans hp), ?_⟩
  have hcl : slotCl n = core / 8 := by
    have := slotCore_of_hotSlot hn
    simp only [slotCore, slotCl] at *
    omega
  generalize ht : modCore (heated s core temp) core (fun k => { k with lastOff := some s.gtc }) = t
  have hx : ctxOf t n = ctxOf s n := by rw [← ht]; exact ctxOf_heated s core temp n
  have hd : dieOf t (clDie (slotCl n)) = dieOf s (clDie (core / 8)) := by rw [hcl, ← ht]; exact dieOf_heated s core temp _
  have hfwd : fwdEntry t (nameOf (ctxOf t n)) = fwdEntry s (nameOf (ctxOf s n)) := by
    rw [hx, ← ht]
    exact fwdEntry_congr (heated_part (·.fwd) (fun _ _ _ => rfl) (fun _ _ => rfl) s core temp) _
  rw [displace_eq_startMove (by rw [hfwd]; exact hf) (by rw [hd]; exact hr)]
  obtain ⟨hm, hk, hmv, hag⟩ := startMove_keeps t n r.cluster
  refine ⟨fun a => ?_, hmv, ?_, fun j hj => hx ▸ hag j hj⟩
  · rw [hm, ← ht]
    exact congrArg (memGet · a) (mem_heated s core temp)
  · have ho : (coreOf (startMove t n r.cluster) core).off = (coreOf t core).off :=
      congrArg (fun m => ((fget m core).getD ({} : Core)).off) hk
    rw [ho, ← ht, coreOf_modCore]
    exact heated_off s core temp core

theorem mem_slotBack (u : State) (core i : Nat) : (slotBack u core i).mem = u.mem :=
  (mem_of_unclocked (idleNotices_unclocked _ _)).trans rfl

theorem coreOf_slotBack (u : State) (core i : Nat) : coreOf (slotBack u core i) core =
    { coreOf u core with off := (coreOf u core).off &&& ~~~(BitVec.ofNat 16 (2 ^ i)), lastOn := some u.gtc } := by
  rw [slotBack, coreOf_of_unclocked (idleNotices_unclocked _ _), coreOf_modCore]

theorem slotBack_part {α : Type} (π : Cluster → α) (h : ∀ c x, π { c with told := x } = π c) (u : State) (core i j : Nat) :
    π (clOf (slotBack u core i) j) = π (clOf u j) :=
  idleNotices_part π h _ _ j

theorem mem_stepBack (t : State) (core now : Nat) : (stepBack t core now).mem = t.mem :=
  (mem_of_unclocked (orderStep_unclocked _ _)).trans rfl

theorem coreOf_stepBack (t : State) (core now : Nat) :
    coreOf (stepBack t core now) core = { coreOf t core with lastRegain := some now } := by
  rw [stepBack, coreOf_of_unclocked (orderStep_unclocked _ _)]
  show coreOf (modCore t core fun k => { k with lastRegain := some now }) core = _
  rw [coreOf_modCore]

theorem stepBack_base (t : State) (core now : Nat) :
    (clOf (stepBack t core now) (core / 8)).base = (clOf t (core / 8)).base + 1 := by
  rw [stepBack, orderStep_part (·.base) (fun _ _ => rfl), clOf_modCl]
  rfl

/-- The lowest slot that a cool core has disabled comes back. -/
theorem thermalSlotEnable_enables {k : Nat} (hc : clusterOk (core / 8) = true) (hh : temp + 5 < (dieOf s (clDie (core / 8))).hot)
    (hk : k < 16) (hb : (coreOf s core).off.getLsbD k = true) (hl : ∀ j < k, (coreOf s core).off.getLsbD j = false)
    (ho : ∀ u, (coreOf s core).lastOn = some u → u + 1000000 ≤ s.gtc) :
    Does (.thermalSlotEnable core temp) s fun t => SameMem s t ∧ (coreOf t core).lastOn = some s.gtc ∧
      (coreOf t core).off = (coreOf s core).off &&& ~~~(BitVec.ofNat 16 (2 ^ k)) := by
  obtain ⟨t, -, ht, he, -⟩ := thermalSlotEnable_acts hc hh
  have hko := coreOf_heated s core temp
  have hg := gtc_heated s core temp
  have ht := ht k (by rw [hko]; exact lowest_eq_some hk hb hl) (by rw [hko, hg]; exact ho)
  have hm (a : Nat) : memGet t.mem a = memGet s.mem a := by rw [ht, mem_slotBack, mem_heated]
  have hc : coreOf t core = { coreOf s core with
      temp := temp, off := (coreOf s core).off &&& ~~~(BitVec.ofNat 16 (2 ^ k)), lastOn := some s.gtc } := by
    rw [ht, coreOf_slotBack, hko, hg]
  rcases he with he | he
  · exact ⟨_, he, hm, by rw [hc], by rw [hc]⟩
  · exact ⟨_, he, fun a => by rw [mem_stepBack]; exact hm a, by rw [coreOf_stepBack, hc], by rw [coreOf_stepBack, hc]⟩

/-- A cool core's cluster regains a clock step. -/
theorem thermalSlotEnable_regains (hc : clusterOk (core / 8) = true) (hh : temp + 5 < (dieOf s (clDie (core / 8))).hot)
    (hr : ∀ u, (coreOf s core).lastRegain = some u → u + 1000000 ≤ s.gtc)
    (hb : (clOf s (core / 8)).base < (clOf s (core / 8)).cap) :
    Does (.thermalSlotEnable core temp) s fun t => SameMem s t ∧ (clOf t (core / 8)).base = (clOf s (core / 8)).base + 1 := by
  obtain ⟨t, hw, -, -, he⟩ := thermalSlotEnable_acts hc hh
  have hp {α : Type} (π : Cluster → α) (h : ∀ c o b, π { c with order := o, boost := b } = π c)
      (h' : ∀ (c : Cluster) (e : BoostRec → NSet), π { c with boosts := c.boosts.map fun b => { b with ended := e b } } = π c)
      (h'' : ∀ c x, π { c with told := x } = π c) : π (clOf t (core / 8)) = π (clOf s (core / 8)) := by
    rw [← heated_part π h h' s core temp]
    rcases hw with rfl | ⟨i, rfl⟩
    · rfl
    · exact slotBack_part π h'' _ _ _ _
  have hbase := hp (·.base) (fun _ _ _ => rfl) (fun _ _ => rfl) fun _ _ => rfl
  have hcap := hp (·.cap) (fun _ _ _ => rfl) (fun _ _ => rfl) fun _ _ => rfl
  have hm : t.mem = s.mem := by
    rw [← mem_heated s core temp]
    rcases hw with rfl | ⟨i, rfl⟩
    · rfl
    · exact mem_slotBack _ _ _
  refine ⟨_, he (by rw [coreOf_heated, gtc_heated]; exact hr) (by rw [hbase, hcap]; exact hb),
    fun a => by rw [mem_stepBack, hm], ?_⟩
  rw [stepBack_base, hbase]

end Heat

/-! ## Boosts (R154, R155) -/

/-- The state without its cores. -/
def coreless (s : State) : State := { s with cores := [] }

/-- Gating writes the cores alone. -/
theorem gateCores_coreless (s : State) : coreless (gateCores s) = coreless s := by
  unfold gateCores
  extract_lets ks asleep
  exact foldl_keeps coreless (fun t k => modCore t k fun c => { c with gated := true }) (fun _ _ => rfl) _ s

theorem boost_comes {s : State} {cl off : Nat} (hon : boostOn s cl off = true) (hnew : ∀ p ∈ (clOf s cl).boosts, p.off ≠ off) :
    Does (.boost cl off) s fun t =>
      (∀ j < 256, clusterOk j = true → (clOf t j).boost = stepsOf t (clDie j) j) ∧ SameMem s t ∧ t.ctxs = s.ctxs ∧
      (clOf t cl).boosts.map (fun p => (p.off, p.group)) =
        (clOf s cl).boosts.map (fun p => (p.off, p.group)) ++ [(off, fld (barGet s cl off) 64 8)] := by
  have hany : (clOf s cl).boosts.any (·.off == off) = false := by simpa using hnew
  rw [Does, exec_boost, execBoost, if_neg (by simp [hon, hany])]
  extract_lets g
  generalize hv : modCl s cl _ = v
  have hg := gateCores_coreless v
  refine ⟨_, rfl, fun j => boostAll_boost _, fun a => ?_, ?_, ?_⟩
  · have hm : (gateCores v).mem = v.mem := (congrArg State.mem hg :)
    rw [mem_of_unclocked (boostAll_unclocked _), hm, ← hv]; rfl
  · have hc : (gateCores v).ctxs = v.ctxs := (congrArg State.ctxs hg :)
    rw [ctxs_of_unclocked (boostAll_unclocked _), hc, ← hv]; rfl
  · rw [boostAll_part (fun c => c.boosts.map fun p => (p.off, p.group)) (fun _ _ _ => rfl) (fun _ _ => by simp [Function.comp_def])]
    have hc : clOf (gateCores v) cl = clOf v cl := congrArg (fun m => (fget m cl).getD ({} : Cluster)) (congrArg State.clusters hg :)
    rw [hc, ← hv, clOf_modCl, List.map_append]
    rfl

theorem release_goes {s : State} {cl off : Nat} (hon : boostOn s cl off = false) : Does (.release cl off) s fun t =>
    (∀ j < 256, clusterOk j = true → (clOf t j).boost = stepsOf t (clDie j) j) ∧ SameMem s t ∧ t.ctxs = s.ctxs ∧
    (clOf t cl).boosts.map (·.off) = ((clOf s cl).boosts.filter (·.off != off)).map (·.off) := by
  rw [Does, exec_release, execRelease, if_neg (by simp [hon])]
  generalize hv : modCl s cl _ = v
  refine ⟨_, rfl, fun j => boostAll_boost _, fun a => ?_, ?_, ?_⟩
  · rw [mem_of_unclocked (boostAll_unclocked _), ← hv]; rfl
  · rw [ctxs_of_unclocked (boostAll_unclocked _), ← hv]; rfl
  · rw [boostAll_part (fun c => c.boosts.map (·.off)) (fun _ _ _ => rfl) (fun _ _ => by simp [Function.comp_def]), ← hv, clOf_modCl]

/-! ## Interrupts and bridges (R14, R122) -/

/-- An interrupt that moderation holds back no longer is signalled. -/
theorem hostQ_signal_due {s : State} {h : HostQ} (hu : ∀ u, h.lastIrq = some u → u + h.moderate * 1000 ≤ s.gtc) :
    HostQ.signal s h = ({ h with lastIrq := some s.gtc, owedIrq := false }, fset s.irqs h.vector ((fget s.irqs h.vector).getD 0 + 1)) := by
  unfold HostQ.signal
  refine if_pos ?_
  rw [Bool.or_eq_true]
  right
  split
  · rfl
  · exact decide_eq_true (hu _ ‹_›)

theorem moderationIntervalExpiry_signals {s : State} {q : Nat} {h : HostQ} (hh : h = if q = 0 then s.evq else s.fsq) (hq : q < 2)
    (ho : h.owedIrq = true) (hu : ∀ u, h.lastIrq = some u → u + h.moderate * 1000 ≤ s.gtc) (hn : h.lastIrq = none → h.moderate = 0) :
    Does (.moderationIntervalExpiry q) s fun t => t.irqs = fset s.irqs h.vector ((fget s.irqs h.vector).getD 0 + 1) ∧
      (if q = 0 then t.evq else t.fsq) = { h with owedIrq := false, lastIrq := some s.gtc } ∧ SameMem s t ∧ t.ctxs = s.ctxs := by
  have hdue : h.lastIrq.getD 0 + h.moderate * 1000 ≤ s.gtc := by
    cases hl : h.lastIrq with
    | none => simp [hn hl]
    | some u => exact hu u hl
  rw [Does, exec_moderationIntervalExpiry, execModerationIntervalExpiry]
  rw [← hh, if_neg (by simp [ho]; omega), hostQ_signal_due hu]
  by_cases h0 : q = 0
  · subst h0; exact ⟨_, rfl, rfl, rfl, fun _ => rfl, rfl⟩
  · simp only [if_neg h0]; exact ⟨_, rfl, rfl, rfl, fun _ => rfl, rfl⟩

/-- The record of a bridge error. -/
def bridgeRecord (s : State) (d : Nat) (o : BridgeOutcome) : List Byte :=
  record 64 [(0, 8, s.gtc), (8, 2, unitSrc 10 d), (10, 2, s.devid), (12, 1, 4),
    (13, 1, if o = .replayed then 0 else 2), (14, 2, 1), (40, 4, d), (44, 4, (Config.syndrome s.fresh).toNat)]

/-- A bridge error is reported, and one that is not contained stops the device. -/
theorem exec_bridgeReplay_eq {s : State} {d : Nat} (hd : d < 4) (o : BridgeOutcome) : exec (.bridgeReplay d o) s =
    .next (eventBytes { s with fresh := s.fresh + 1, stopped := s.stopped || decide (o = .uncontained) } (bridgeRecord s d o)) := by
  rw [exec_bridgeReplay, execBridgeReplay, if_neg (by omega)]
  cases o with
  | replayed => simp [draw, bridgeRecord]
  | uncontained => simp [draw, bridgeRecord]

theorem bridgeReplay_reports {s : State} {d : Nat} (hd : d < 4) (o : BridgeOutcome) : Does (.bridgeReplay d o) s fun t =>
    (t.stopped = true ↔ s.stopped = true ∨ o = .uncontained) ∧ t.ctxs = s.ctxs ∧
    (s.evq.en = false → s.evq.held.length < 256 → s.evq.dropped = 0 → t.evq.held = s.evq.held ++ [bridgeRecord s d o]) := by
  refine ⟨_, exec_bridgeReplay_eq hd o, ?_⟩
  generalize hu : State.mk .. = u
  have hs : u.stopped = (s.stopped || decide (o = .uncontained)) := by rw [← hu]
  have hc : u.ctxs = s.ctxs := by rw [← hu]
  have hq : u.evq = s.evq := by rw [← hu]
  have hk := (eventBytes_keeps u (bridgeRecord s d o)).rest
  refine ⟨?_, ?_, fun he hl _ => ?_⟩
  · have he : (eventBytes u (bridgeRecord s d o)).stopped = u.stopped := (congrArg State.stopped hk :)
    rw [he, hs]; simp
  · exact (congrArg State.ctxs hk :).trans hc
  · rw [eventBytes_held u _ (hq ▸ he) (hq ▸ hl), hq]

end Sys2Proof.Safety
end

section
/-!
CERTIFICATES. The markers and the image of a migration (R151, R201).
-/

namespace Sys2Proof.Machine

theorem exec_flushMarker (s : State) (o k : Nat) : exec (.flushMarker o k) s = execFlushMarker o k s := rfl
theorem exec_imageInstall (s : State) (o : Nat) : exec (.imageInstall o) s = execImageInstall o s := rfl

/-! ## A context stands down for its move (R201) -/

/-- A slot that is found by a name holds the active context of that name. -/
theorem holds_of_whereIs {s : State} {o n : Nat} (h : whereIs s o = some n) :
    (ctxOf s n).active = true ∧ (ctxOf s n).dying = false ∧ nameOf (ctxOf s n) = o := by
  have hh : holds s n o = true := by
    unfold whereIs at h
    extract_lets own at h
    split at h
    · exact Option.some.inj h ▸ ‹_›
    · split at h
      · split at h
        · exact Option.some.inj h ▸ ‹_›
        · cases h
      · cases h
  simpa [holds, and_assoc] using hh

theorem endGrant_none {s : State} {n : Nat} (h : (ctxOf s n).grant = none) : endGrant s (.ctx n) = s := by
  simp only [endGrant, h]

/-- A context that waits for nothing and holds no grant only withdraws its requests and pauses. -/
theorem standDown_eq {s : State} {n : Nat} (hw : (ctxOf s n).wait = .none) (hg : (ctxOf s n).grant = none) :
    standDown s n = pauseOf (withdraw s (clDie (slotCl n)) (.ctx n)) n := by
  simp [standDown, hw, endGrant_none hg, Wait.byPreempt, Wait.byHandler]

/-- A cluster in which the cells that a context owns have paused. -/
def cellsPaused (name : Nat) (c : Cluster) : Cluster :=
  { c with
    cells := c.cells.map fun e =>
      if e.2.owner = name ∧ e.2.st = .opn ∧ e.2.dlv then (e.1, { e.2 with dlp := true }) else e }

/-- A pause writes the context and the cells it owns. -/
theorem ctxOf_pauseOf_self (s : State) (n : Nat) : ctxOf (pauseOf s n) n = { ctxOf s n with dlPaused := true } :=
  ctxOf_modCtx _ _ _

theorem ctxOf_pauseOf_ne {s : State} {n j : Nat} (h : j ≠ n) : ctxOf (pauseOf s n) j = ctxOf s j :=
  ctxOf_modCtx_ne _ _ _ _ h

theorem pauseOf_part {α : Type} (π : Cluster → α) (h : ∀ c x, π { c with cells := x } = π c) (s : State) (n j : Nat) :
    π (clOf (pauseOf s n) j) = π (clOf s j) :=
  mapCl_part π s j (cellsPaused (nameOf (ctxOf s n))) fun c => h c _

/-- A pause leaves which slots are idle. -/
theorem idleSlots_pauseOf (s : State) (n dst : Nat) : idleSlots (pauseOf s n) dst = idleSlots s dst := by
  have hi : idle (pauseOf s n) = idle s := by
    funext j
    have ha : (ctxOf (pauseOf s n) j).active = (ctxOf s j).active := by
      by_cases hj : j = n
      · subst hj; rw [ctxOf_pauseOf_self]
      · rw [ctxOf_pauseOf_ne hj]
    simp only [idle, ha]
    rfl
  simp only [idleSlots, hi]

/-! ## The image lands -/

/-- No commands of a copy engine, none saved. -/
theorem tePreempt_of_no_te {s : State} {cl : Nat} (o : Nat) (h : (clOf s cl).te = []) : tePreempt s cl o = s := by
  simp [tePreempt, h]

/-- A slot takes the image of another, and its core keeps of the other's copies what it may. -/
def landed (t : State) (n m : Nat) : State :=
  modCore (modCtx t m fun slot => slot.moved (ctxOf t n)) (slotCore m) fun k =>
    { k with l1d := freshCopies (ctxOf t n) k.l1d, l1i := freshCopies (ctxOf t n) k.l1i }

/-- A context that has left its slot. -/
def Ctx.left (d : Ctx) : Ctx :=
  { d.applyGrp with
    active := false, wait := .none, waitSince := none, parked := false, moving := none, lastIssue := none, readySince := none }

/-- A slot that its context has left is empty and disabled. -/
def vacated (t : State) (n : Nat) : State :=
  disableSlot (modCore (modCtx t n Ctx.left) (slotCore n) fun k => k.applyBits (n % 16)) n

/-- The entries for a name once its context has come to a slot. -/
def fwdHere (o m : Nat) (p : Nat × Fwd) : Nat × Fwd :=
  if p.2.of o then (p.1, { p.2 with here := m, moving := false }) else p

/-- The origin of a name forwards to the slot that its context has come to. -/
def originForwards (t : State) (o m : Nat) : State :=
  modCl t (o / 128 % 256) fun c => { c with fwd := c.fwd.map (fwdHere o m) }

theorem ctxOf_landed (t : State) (n m : Nat) : ctxOf (landed t n m) m = (ctxOf t m).moved (ctxOf t n) :=
  ctxOf_modCtx t m fun slot => slot.moved (ctxOf t n)

theorem ctxOf_vacated (t : State) (n : Nat) : ctxOf (vacated t n) n = (ctxOf t n).left := ctxOf_modCtx _ _ _

theorem ctxOf_vacated_ne {t : State} {n m : Nat} (h : m ≠ n) : ctxOf (vacated t n) m = ctxOf t m := ctxOf_modCtx_ne _ _ _ _ h

theorem mem_landed (t : State) (n m : Nat) : (landed t n m).mem = t.mem := rfl

theorem mem_vacated (t : State) (n : Nat) : (vacated t n).mem = t.mem := rfl

theorem clusters_landed (t : State) (n m : Nat) : (landed t n m).clusters = t.clusters := rfl

theorem clusters_vacated (t : State) (n : Nat) : (vacated t n).clusters = t.clusters := rfl

theorem clOf_vacated_landed (t : State) (n m j : Nat) : clOf (vacated (landed t n m) n) j = clOf t j := by
  simp only [clOf, clusters_vacated, clusters_landed]

theorem vacated_off (t : State) (n : Nat) : (coreOf (vacated t n) (slotCore n)).off.getLsbD (n % 16) = true := by
  rw [vacated, disableSlot, coreOf_modCore, BitVec.getLsbD_or, BitVec.getLsbD_ofNat, Nat.testBit_two_pow_self]
  simp [Nat.mod_lt]

/-- The entry for a name stands under the name still. -/
theorem fwdHere_of (o m : Nat) (p : Nat × Fwd) : (fwdHere o m p).2.of o = p.2.of o := by
  unfold fwdHere
  split <;> rfl

theorem fwdEntry_originForwards {t : State} {o : Nat} {f : Fwd} (m : Nat) (h : fwdEntry t o = some f) :
    fwdEntry (originForwards t o m) o = some { f with here := m, moving := false } := by
  obtain ⟨p, hp, rfl⟩ := Option.map_eq_some_iff.1 h
  have ho : p.2.of o = true := List.find?_some (p := fun q : Nat × Fwd => q.2.of o) hp
  have hc : (fun q : Nat × Fwd => q.2.of o) ∘ fwdHere o m = fun q => q.2.of o := funext (fwdHere_of o m)
  rw [fwdEntry, originForwards, clOf_modCl]
  dsimp only
  rw [List.find?_map, hc, hp]
  simp [fwdHere, ho]

/-! ## What waits at the origin and at the old place -/

theorem spilledFor_of_no_spill {s : State} (h : ∀ j, (clOf s j).spill = []) (cl name : Nat) : spilledFor s cl name = [] := by
  simp [spilledFor, h, inOrder]

theorem refill_of_no_spill {s : State} (h : ∀ j, (clOf s j).spill = []) (n name k : Nat) : refill s n name k = s := by
  cases k with
  | zero => rfl
  | succ k => simp [refill, spilledFor_of_no_spill h]

theorem spillFollows_of_no_spill {s : State} {old : Nat} (h : (clOf s old).spill = []) (dst org name : Nat) :
    spillFollows s old dst org name = s := by
  simp [spillFollows, h]

theorem forwardHeld_of_no_spill {s : State} {org : Nat} (h : (clOf s org).spill = []) (dst name : Nat) :
    forwardHeld s dst org name = s := by
  simp [forwardHeld, h]

/-- Commands that follow a context to its new cluster write the clusters' engines, tags and the agenda. -/
theorem moveCmds_keeps (s : State) (old new name : Nat) (c : Ctx) :
    (moveCmds s old new name c).mem = s.mem ∧ (moveCmds s old new name c).ctxs = s.ctxs ∧
    (moveCmds s old new name c).cores = s.cores ∧ ∀ j, (clOf (moveCmds s old new name c) j).fwd = (clOf s j).fwd := by
  generalize ht : moveCmds s old new name c = t
  unfold moveCmds at ht
  generalize preemptedOf s old name = q at ht
  obtain ⟨ids, cmds⟩ := q
  dsimp -zeta only at ht
  extract_lets base num u queued v follow w at ht
  have hf (j : Nat) : (clOf v j).fwd = (clOf s j).fwd := (modCl_part (·.fwd) _ _ _ _ rfl).trans (modCl_part (·.fwd) _ _ _ _ rfl)
  split at ht <;> subst ht <;> exact ⟨rfl, rfl, rfl, hf⟩

/-! ## The event -/

/-- The state once an image has come to a slot and its origin knows, before what waits for it follows. -/
def imageHome (t : State) (n m o : Nat) : State := originForwards (vacated (landed t n m) n) o m

theorem mem_imageHome (t : State) (n m o : Nat) : (imageHome t n m o).mem = t.mem :=
  (mem_vacated (landed t n m) n).trans (mem_landed t n m)

theorem ctxOf_imageHome_new {t : State} {n m : Nat} (h : m ≠ n) (o : Nat) :
    ctxOf (imageHome t n m o) m = (ctxOf t m).moved (ctxOf t n) := by
  rw [imageHome, originForwards, ctxOf_modCl, ctxOf_vacated_ne h, ctxOf_landed]

theorem imageHome_old_inactive (t : State) (n m o : Nat) : (ctxOf (imageHome t n m o) n).active = false := by
  rw [imageHome, originForwards, ctxOf_modCl, ctxOf_vacated]
  rfl

theorem imageHome_off (t : State) (n m o : Nat) : (coreOf (imageHome t n m o) (slotCore n)).off.getLsbD (n % 16) = true :=
  vacated_off (landed t n m) n

theorem imageHome_spill (t : State) (n m o j : Nat) : (clOf (imageHome t n m o) j).spill = (clOf t j).spill := by
  rw [imageHome, originForwards, modCl_part (·.spill), clOf_vacated_landed]
  rfl

theorem fwdEntry_imageHome {t : State} {o : Nat} {f : Fwd} (n m : Nat) (h : fwdEntry t o = some f) :
    fwdEntry (imageHome t n m o) o = some { f with here := m, moving := false } := by
  have hf := (fwdEntry_congr (fun j => congrArg Cluster.fwd (clOf_vacated_landed t n m j)) o).trans h
  exact fwdEntry_originForwards m hf

/-- What waits for a context follows it, and the clusters are told what has become idle. -/
def imageFollowed (t : State) (c : Ctx) (n m dst o : Nat) : State :=
  idleNotices (idleNotices (moveCmds (forwardHeld (refill (spillFollows t (slotCl n) dst (o / 128 % 256) o) m o 8) dst
    (o / 128 % 256) o) (slotCl n) dst o c) n) m

/-- A list that is not empty has an element at each remainder of its length. -/
theorem getD_mod_mem {l : List Nat} (h : l ≠ []) (k d : Nat) : l.getD (k % l.length) d ∈ l := by
  have hk : k % l.length < l.length := Nat.mod_lt _ (List.length_pos_iff.2 h)
  rw [List.getD_eq_getElem l d hk]
  exact List.getElem_mem hk

/-- An image that may leave goes to an idle slot of the cluster chosen, one that the implementation picks (R151, R201). -/
theorem imageInstall_lands {s : State} {o n dst : Nat} (hw : whereIs s o = some n) (hm : (ctxOf s n).moving = some ([], dst))
    (hl : mayLeave (ctxOf s n) = true) (hs : (ctxOf (standDown s n) n).sb = []) (hi : idleSlots (standDown s n) dst ≠ []) :
    ∃ m ∈ idleSlots (standDown s n) dst,
      let t := tePreempt (draw (standDown s n)).2 (slotCl n) o
      exec (.imageInstall o) s = .next (imageFollowed (imageHome t n m o) (ctxOf t n) n m dst o) := by
  refine ⟨_, getD_mod_mem hi (Config.victim (standDown s n).fresh) 0, ?_⟩
  intro t
  rw [exec_imageInstall, execImageInstall, hw]
  simp only [hm, hl, Bool.not_true, Bool.false_eq_true, if_false, hs, List.isEmpty_nil]
  generalize hf : idleSlots (standDown s n) dst = free at hi ⊢
  cases free with
  | nil => exact absurd rfl hi
  | cons a l => rfl

/-- Following changes neither memory nor slots nor what an origin knows, where nothing is spilled. -/
theorem imageFollowed_keeps {t : State} (h : ∀ j, (clOf t j).spill = []) (c : Ctx) (n m dst o : Nat) :
    (imageFollowed t c n m dst o).mem = t.mem ∧ (∀ k, ctxOf (imageFollowed t c n m dst o) k = ctxOf t k) ∧
    (∀ k, coreOf (imageFollowed t c n m dst o) k = coreOf t k) ∧
    ∀ j, (clOf (imageFollowed t c n m dst o) j).fwd = (clOf t j).fwd := by
  rw [imageFollowed, spillFollows_of_no_spill (h _), refill_of_no_spill h, forwardHeld_of_no_spill (h _)]
  obtain ⟨hm, hc, hk, hf⟩ := moveCmds_keeps t (slotCl n) dst o c
  generalize moveCmds t (slotCl n) dst o c = u at hm hc hk hf
  have hu := (idleNotices_unclocked (idleNotices u n) m).trans (idleNotices_unclocked u n)
  refine ⟨(mem_of_unclocked hu).trans hm, fun k => ?_, fun k => ?_, fun j => ?_⟩
  · rw [ctxOf_of_unclocked hu, ctxOf, hc]; rfl
  · rw [coreOf_of_unclocked hu, coreOf, hk]; rfl
  · rw [idleNotices_part (·.fwd) (fun _ _ => rfl), idleNotices_part (·.fwd) (fun _ _ => rfl)]; exact hf j

end Sys2Proof.Machine

namespace Sys2Proof.Safety

open Sys2Proof.Machine

/-! ## Markers (R151) -/

section Marker
variable {s : State} {n o k dst : Nat} {l : List Nat}

/-- The marker of a class, with others still out. -/
theorem flushMarker_leaves (hw : whereIs s o = some n) (hm : (ctxOf s n).moving = some (l, dst)) (hl : l.filter (· != k) ≠ []) :
    exec (.flushMarker o k) s = .next (modCtx s n fun c => { c with moving := some (l.filter (· != k), dst) }) := by
  simp only [exec_flushMarker, execFlushMarker, hw, hm]
  exact if_neg fun h => hl h.2

/-- The last marker. -/
theorem flushMarker_last (hw : whereIs s o = some n) (hm : (ctxOf s n).moving = some ([k], dst)) :
    exec (.flushMarker o k) s = .next (later (modCtx s n fun c => { c with moving := some ([], dst) }) (.imageInstall o)) := by
  simp only [exec_flushMarker, execFlushMarker, hw, hm]
  simp

end Marker

/-! ## The image (R201) -/

/-- What a context takes with it. -/
def SameImage (e c : Ctx) : Prop :=
  e.active = true ∧ nameOf e = nameOf c ∧ e.pc = c.pc ∧ (∀ r, e.getX r = c.getX r) ∧ e.v = c.v ∧ e.m = c.m ∧ e.priv = c.priv ∧
    e.tl = c.tl ∧ e.asid = c.asid ∧ e.cls = c.cls ∧ e.pts = c.pts ∧ e.mts = c.mts ∧ e.mrts = c.mrts ∧ e.mailbox = c.mailbox

theorem sameImage_moved (slot c : Ctx) (h : c.active = true) : SameImage (slot.moved { c with dlPaused := true }) c :=
  ⟨h, rfl, rfl, fun _ => rfl, rfl, rfl, rfl, rfl, rfl, rfl, rfl, rfl, rfl, rfl⟩

theorem imageInstall_moves {s : State} {o n dst : Nat} {f : Fwd} (hw : whereIs s o = some n)
    (hm : (ctxOf s n).moving = some ([], dst)) (hwait : (ctxOf s n).wait = .none) (hld : (ctxOf s n).loads = [])
    (hsb : (ctxOf s n).sb = []) (hg : (ctxOf s n).grant = none) (hte : (clOf s (slotCl n)).te = [])
    (hsp : ∀ j, (clOf s j).spill = []) (hi : idleSlots s dst ≠ []) (hf : fwdEntry s o = some f) :
    Does (.imageInstall o) s fun t => ∃ m ∈ idleSlots s dst, SameMem s t ∧ SameImage (ctxOf t m) (ctxOf s n) ∧
      (ctxOf t n).active = false ∧ (coreOf t (slotCore n)).off.getLsbD (n % 16) = true ∧
      fwdEntry t o = some { f with here := m, moving := false } := by
  obtain ⟨ha, hdy, -⟩ := holds_of_whereIs hw
  have hsd := standDown_eq hwait hg
  have hctx : ctxOf (standDown s n) n = { ctxOf s n with dlPaused := true } := by rw [hsd, ctxOf_pauseOf_self]; rfl
  have hcl {α : Type} (π : Cluster → α) (h : ∀ c x, π { c with cells := x } = π c) (j : Nat) :
      π (clOf (standDown s n) j) = π (clOf s j) := by rw [hsd, pauseOf_part π h]; rfl
  have hidle : idleSlots (standDown s n) dst = idleSlots s dst := by rw [hsd, idleSlots_pauseOf]; rfl
  have hmem : (standDown s n).mem = s.mem := by rw [hsd]; rfl
  obtain ⟨m, hmi, he⟩ := imageInstall_lands hw hm (by simp [mayLeave, hm, ha, hdy, atBoundary, hld, hwait])
    (by rw [hctx]; exact hsb) (by rw [hidle]; exact hi)
  rw [hidle] at hmi
  have hne : m ≠ n := by
    rintro rfl
    have := (List.mem_filter.1 hmi).2
    simp [Machine.idle, ha] at this
  generalize standDown s n = u at hctx hcl hmem he
  rw [tePreempt_of_no_te (s := (draw u).2) o ((hcl (·.te) (fun _ _ => rfl) _).trans hte)] at he
  generalize hv : (draw u).2 = v at he
  replace he : exec (.imageInstall o) s = .next (imageFollowed (imageHome v n m o) (ctxOf v n) n m dst o) := he
  have hvc (j : Nat) : ctxOf v j = ctxOf u j := by rw [← hv]; rfl
  have hvk (j : Nat) : clOf v j = clOf u j := by rw [← hv]; rfl
  have hspill (j : Nat) : (clOf (imageHome v n m o) j).spill = [] := by
    rw [imageHome_spill, hvk]
    exact (hcl (·.spill) (fun _ _ => rfl) j).trans (hsp j)
  have hfv : fwdEntry v o = some f :=
    (fwdEntry_congr (fun j => (congrArg Cluster.fwd (hvk j)).trans (hcl (·.fwd) (fun _ _ => rfl) j)) o).trans hf
  have hmv : v.mem = s.mem := by rw [← hmem, ← hv]; rfl
  obtain ⟨km, kc, kk, kf⟩ := imageFollowed_keeps hspill (ctxOf v n) n m dst o
  refine ⟨_, he, m, hmi, fun a => ?_, ?_, ?_, ?_, ?_⟩
  · rw [km, mem_imageHome, hmv]
  · rw [kc, ctxOf_imageHome_new hne, hvc n, hctx]
    exact sameImage_moved _ _ ha
  · rw [kc, imageHome_old_inactive]
  · rw [kk, imageHome_off]
  · rw [fwdEntry_congr kf, fwdEntry_imageHome n m hfv]

end Sys2Proof.Safety
end

section
/-!
CERTIFICATES. Power, heat and migration (R14, R20 to R32, R122, R151, R154, R155, R201).
-/

namespace Sys2Proof.Safety

open Sys2Proof.Machine

/-- Settles O43: each event by its lemma. -/
theorem powerHeatAndMigration : Obligations.PowerHeatAndMigration := by
  unfold Obligations.PowerHeatAndMigration
  refine ⟨fun s d n k cl off core temp q temps g o => ?_, fun s n o k dst l f => ?_⟩
  · intro e b c y h boosted quiet
    refine ⟨windowBoundary_refills, windowBoundary_none, grantEnd_ctx, fun hq _ => grantEnd_anvil hq, clockStepChangeDone_takes,
      thermalTableRefresh_ranks, ?_, ?_, boost_comes, release_goes, moderationIntervalExpiry_signals rfl,
      fun hd => bridgeReplay_reports hd o⟩
    · rintro hc hh hu rfl
      refine ⟨fun ho hg hn => ⟨thermalSlotDisable_disables hc hh hu ho hg hn, fun ha hp hf hr => ?_⟩,
        thermalSlotDisable_waits hc hh hu, thermalSlotDisable_slows hc hh hu⟩
      exact thermalSlotDisable_moves hc hh hu ho hg hn ha hp hf hr
    · rintro hc hh rfl
      exact ⟨thermalSlotEnable_enables hc hh, thermalSlotEnable_regains hc hh⟩
  · intro c cl hw hm
    refine ⟨fun _ hl => flushMarker_leaves hw hm hl, ?_, ?_⟩
    · rintro rfl
      exact flushMarker_last hw hm
    · rintro rfl - - hwait hld hsb - hg hte - hsp hi - hf
      obtain ⟨t, ht, m, hmi, hsame, himage, hrest⟩ := imageInstall_moves hw hm hwait hld hsb hg hte hsp hi hf
      exact ⟨t, ht, m, hmi, hsame, by simpa only [SameImage, and_assoc] using And.intro himage hrest⟩

end Sys2Proof.Safety
end

section
/-!
SUPPORT. Ports and view slots after an update, what decides a route, and the step of each event of the fabric.
-/

namespace Sys2Proof.Machine

/-! ## Units after an update, and other units -/

/-- Only what a change makes of the view slot matters. -/
theorem modView_congr {s : State} {n : Nat} {f g : ViewSlot → ViewSlot} (h : f (viewOf s n) = g (viewOf s n)) :
    modView s n f = modView s n g := by
  simp only [modView, h]

theorem portOf_modPort_ne {s : State} {p q : Nat} (f : Port → Port) (h : q ≠ p) : portOf (modPort s p f) q = portOf s q := by
  simp [portOf, modPort, fget_fset_ne _ _ _ _ h]

theorem viewOf_modView_ne {s : State} {n k : Nat} (f : ViewSlot → ViewSlot) (h : k ≠ n) :
    viewOf (modView s n f) k = viewOf s k := by
  simp [viewOf, modView, fget_fset_ne _ _ _ _ h]

@[simp] theorem viewOf_modPort (s : State) (p n : Nat) (f : Port → Port) : viewOf (modPort s p f) n = viewOf s n := rfl
@[simp] theorem portOf_modView (s : State) (n p : Nat) (f : ViewSlot → ViewSlot) : portOf (modView s n f) p = portOf s p := rfl
@[simp] theorem portOf_later (s : State) (i : Instr) (p : Nat) : portOf (later s i) p = portOf s p := rfl

/-- A change of one port keeps what it keeps of that port, for every port. -/
theorem modPort_part {α : Type} (π : Port → α) {s : State} {p : Nat} {f : Port → Port}
    (h : π (f (portOf s p)) = π (portOf s p)) (q : Nat) : π (portOf (modPort s p f) q) = π (portOf s q) := by
  by_cases hq : q = p
  · subst hq; rw [portOf_modPort, h]
  · rw [portOf_modPort_ne _ hq]


/-! ## Routes (R58, R59) -/

/-- A route rests on the table and on the states of the ports alone. -/
theorem routeOf_congr {s t : State} (hr : t.routes = s.routes) (hp : ∀ q, (portOf t q).st = (portOf s q).st) :
    routeOf t = routeOf s := by
  funext dev
  simp only [routeOf, hr, hp]

/-- A route leads to a port that is neither DOWN nor FAILED. -/
theorem live_of_routeOf {s : State} {dev q : Nat} (h : routeOf s dev = some (some q)) :
    (portOf s q).st ≠ .down ∧ (portOf s q).st ≠ .failed := by
  have key (r : Nat) (hr : (!match (portOf s r).st with | .down | .failed => true | _ => false) = true) :
      (portOf s r).st ≠ .down ∧ (portOf s r).st ≠ .failed := by
    cases hst : (portOf s r).st <;> simp [hst] at hr ⊢
  unfold routeOf at h
  extract_lets e p alt dead at h
  split at h
  · cases h
  · split at h
    · obtain rfl : p = q := by simpa using h
      exact key _ ‹_›
    · split at h
      · rename_i hb
        obtain rfl : alt = q := by simpa using h
        simp only [Bool.and_eq_true] at hb
        exact key _ hb.2
      · simp at h

theorem portOf_txPut (s : State) (p : Nat) (k : Packet) :
    portOf (txPut s p k) p = { portOf s p with txq := (portOf s p).txq ++ [k] } := portOf_modPort _ _ _

theorem portOf_txPut_ne {s : State} {p q : Nat} (k : Packet) (h : q ≠ p) : portOf (txPut s p k) q = portOf s q :=
  portOf_modPort_ne _ h

/-! ## What the events of the fabric run -/

theorem exec_flitReceive (s : State) (p : Nat) (bs : List Byte) : exec (.flitReceive p bs) s = execFlitReceive p bs s := rfl
theorem exec_replayRequest (s : State) (p seq : Nat) : exec (.replayRequest p seq) s = execReplayRequest p seq s := rfl

end Sys2Proof.Machine
end

section
/-!
SUPPORT. What the loss of a port's packets leaves of the ports and of the held event records (R56, R71, R72, R123): no step
on the way from a lost packet to its trap, its kill or its dead letter writes more of a port than its queue, and none queues a
packet at a port that is DOWN or FAILED.
-/

namespace Sys2Proof.Machine

/-- Ports keep all but packets that live ones queue, and held event records stand while the queue is disabled. -/
structure LinksKept (s t : State) : Prop where
  port : ∀ q, ∃ l, portOf t q = { portOf s q with txq := l }
  dead : ∀ q, (portOf s q).st = .down ∨ (portOf s q).st = .failed → portOf t q = portOf s q
  held : s.evq.en = false → t.evq.en = false ∧ s.evq.held <+: t.evq.held

namespace LinksKept
variable {s t u : State}

theorem st (h : LinksKept s t) (q : Nat) : (portOf t q).st = (portOf s q).st := by
  obtain ⟨l, e⟩ := h.port q
  rw [e]

/-- A change of neither ports nor the event queue. -/
theorem of_eq (hp : t.ports = s.ports) (he : t.evq = s.evq) : LinksKept s t where
  port q := ⟨(portOf s q).txq, by simp only [portOf, hp]⟩
  dead q _ := by simp only [portOf, hp]
  held h := by rw [he]; exact ⟨h, List.prefix_refl _⟩

theorem refl (s : State) : LinksKept s s := of_eq rfl rfl

/-- What keeps the ports and records of a state keeps those of one that has the same. -/
theorem after (h : LinksKept t u) (hp : t.ports = s.ports) (he : t.evq = s.evq) : LinksKept s u where
  port q := by
    obtain ⟨l, e⟩ := h.port q
    exact ⟨l, by rw [e]; simp only [portOf, hp]⟩
  dead q hq := by
    have e : portOf t q = portOf s q := by simp only [portOf, hp]
    rw [← e] at hq ⊢
    exact h.dead q hq
  held hs := by
    rw [← he] at hs ⊢
    exact h.held hs

theorem trans (h : LinksKept s t) (h' : LinksKept t u) : LinksKept s u where
  port q := by
    obtain ⟨l, e⟩ := h.port q
    obtain ⟨l', e'⟩ := h'.port q
    exact ⟨l', by rw [e', e]⟩
  dead q hq := (h'.dead q (by rwa [h.st])).trans (h.dead q hq)
  held he := by
    obtain ⟨h1, p1⟩ := h.held he
    obtain ⟨h2, p2⟩ := h'.held h1
    exact ⟨h2, p1.trans p2⟩

theorem foldl {β : Type} {f : State → β → State} (h : ∀ s b, LinksKept s (f s b)) (l : List β) (s : State) :
    LinksKept s (l.foldl f s) := by
  induction l generalizing s with
  | nil => exact refl s
  | cons b l ih => exact (h s b).trans (ih _)

end LinksKept

/-! ## Records, packets, messages -/

theorem eventBytes_ports (s : State) (bs : List Byte) : (eventBytes s bs).ports = s.ports :=
  (congrArg State.ports (eventBytes_keeps s bs).rest :)

/-- Records are held, or dropped once too many are, while the queue is disabled (R123). -/
theorem eventBytes_evq (s : State) (bs : List Byte) (h : s.evq.en = false) :
    (eventBytes s bs).evq.en = false ∧ s.evq.held <+: (eventBytes s bs).evq.held := by
  unfold eventBytes
  rw [if_neg (by simp [h])]
  split
  · exact ⟨h, List.prefix_append _ _⟩
  · exact ⟨h, List.prefix_refl _⟩

theorem eventBytes_links (s : State) (bs : List Byte) : LinksKept s (eventBytes s bs) where
  port q := ⟨(portOf s q).txq, by simp only [portOf, eventBytes_ports]⟩
  dead q _ := by simp only [portOf, eventBytes_ports]
  held := eventBytes_evq s bs

theorem event_links (s : State) (src type : Nat) (fs : List (Nat × Nat × Nat)) : LinksKept s (event s src type fs) :=
  eventBytes_links s _

theorem eventSoon_links (s : State) (b : Bool) (src type : Nat) (fs : List (Nat × Nat × Nat)) :
    LinksKept s (eventSoon s b src type fs) := by
  unfold eventSoon
  extract_lets bs
  split
  · exact { port := (LinksKept.refl s).port, dead := (LinksKept.refl s).dead, held := fun h => ⟨h, List.prefix_append _ _⟩ }
  · exact eventBytes_links s bs

/-- A packet that a route leads to a port joins the queue of a live one. -/
theorem txPut_links {s : State} {dev p : Nat} (h : routeOf s dev = some (some p)) (k : Packet) : LinksKept s (txPut s p k) where
  port q := by
    by_cases hq : q = p
    · subst hq; exact ⟨_, portOf_txPut s q k⟩
    · exact ⟨_, portOf_txPut_ne k hq⟩
  dead q hq := by
    refine portOf_txPut_ne k fun e => ?_
    obtain ⟨h1, h2⟩ := live_of_routeOf h
    subst e
    exact hq.elim h1 h2
  held := (LinksKept.refl s).held

theorem deadLetter_links (s : State) (cl dest sender : Nat) (w : Word) : LinksKept s (deadLetter s cl dest sender w) :=
  LinksKept.after (event_links _ _ _ _) rfl rfl

theorem bounce_links (s : State) (cl dest : Nat) (m : Msg) (reason : Nat) : LinksKept s (bounce s cl dest m reason) := by
  unfold bounce
  extract_lets w w₁ b
  split
  · exact deadLetter_links _ _ _ _ _
  · split
    · exact .of_eq rfl rfl
    · split
      · split
        · exact txPut_links ‹_› _
        · exact deadLetter_links _ _ _ _ _
      · exact .of_eq rfl rfl

/-! ## The bellows and the copy engines -/

theorem tryGrant_wires (s : State) (d : Nat) (r : AdReq) : (tryGrant s d r).ports = s.ports ∧ (tryGrant s d r).evq = s.evq := by
  unfold tryGrant
  extract_lets die a fits
  split
  · unfold giveGrant
    extract_lets g
    split <;> exact ⟨rfl, rfl⟩
  · exact ⟨rfl, rfl⟩

theorem bellows_links (s : State) (d : Nat) : LinksKept s (bellows s d) :=
  .foldl (fun t r => .of_eq (tryGrant_wires t d r).1 (tryGrant_wires t d r).2) _ s

theorem returnEu_links (s : State) (d left : Nat) : LinksKept s (returnEu s d left) :=
  LinksKept.after (bellows_links _ _) rfl rfl

theorem endGrant_links (s : State) (h : Holder) : LinksKept s (endGrant s h) := by
  cases h with
  | ctx n =>
    simp only [endGrant]
    split
    · exact .refl s
    · exact LinksKept.after (returnEu_links _ _ _) rfl rfl
  | anvil av k =>
    simp only [endGrant]
    split
    · exact .refl s
    · exact LinksKept.after (returnEu_links _ _ _) rfl rfl
  | te cl id =>
    simp only [endGrant]
    split
    · exact .refl s
    · split
      · exact .refl s
      · exact LinksKept.after (returnEu_links _ _ _) rfl rfl

theorem teGo_links (s : State) (cl : Nat) : LinksKept s (teGo s cl) := by
  unfold teGo
  split <;> exact .of_eq rfl rfl

theorem teLeave_links (s : State) (cl : Nat) (m : TeCmd) : LinksKept s (teLeave s cl m) := by
  unfold teLeave
  have h := endGrant_links s (.te cl m.id)
  generalize endGrant s (.te cl m.id) = e at h ⊢
  exact h.trans ((teGo_links _ _).after rfl rfl)

theorem teRefused_links (s : State) (cl id cause : Nat) : LinksKept s (teRefused s cl id cause).1 := by
  unfold teRefused
  split
  · exact .refl s
  · exact (teLeave_links s cl _).trans (.of_eq rfl rfl)
  · exact .of_eq rfl rfl

/-! ## The end of an activation -/

theorem idleNotices_links (s : State) (n : Nat) : LinksKept s (idleNotices s n) :=
  .of_eq (congrArg State.ports (idleNotices_unclocked s n) :) (congrArg State.evq (idleNotices_unclocked s n) :)

theorem barWaiters_links (s : State) (cl off n : Nat) : LinksKept s (barWaiters s cl off n) := by
  unfold barWaiters boostCheck
  extract_lets w g members on was
  split
  · exact .of_eq rfl rfl
  · split <;> exact .of_eq rfl rfl

theorem leaveWait_links (s : State) (n : Nat) : LinksKept s (leaveWait s n) := by
  unfold leaveWait
  extract_lets t
  have ht : LinksKept s t := .of_eq rfl rfl
  split
  · extract_lets w
    split
    · exact ht.trans (barWaiters_links _ _ _ _)
    · exact ht
  · exact .of_eq rfl rfl
  · split <;> exact .of_eq rfl rfl
  · exact .of_eq rfl rfl
  · exact .of_eq rfl rfl
  · split <;> exact .of_eq rfl rfl
  · exact .of_eq rfl rfl
  · exact .of_eq rfl rfl
  · exact ht

theorem bounceAll_links (s : State) (n name : Nat) : LinksKept s (bounceAll s n name) :=
  LinksKept.after (.foldl (fun u m => bounce_links u _ _ m 0) _ _) rfl rfl

theorem unpause_links (s : State) (n : Nat) : LinksKept s (unpause s n) := by
  unfold unpause
  split <;> exact .of_eq rfl rfl

theorem endEffects_links (s : State) (n : Nat) : LinksKept s (endEffects s n) := by
  have h := (leaveWait_links s n).trans (bounceAll_links _ n (nameOf (ctxOf s n)))
  unfold endEffects
  extract_lets name t1 t2 t3 t4
  have h2 : LinksKept s t2 := h
  clear_value t2
  have h3 := h2.trans (endGrant_links t2 (.ctx n))
  subst t4 t3
  generalize endGrant t2 (.ctx n) = e at h3 ⊢
  have h4 := h3.trans ((unpause_links (freeRestarts (withdraw e (clDie (slotCl n)) (.ctx n)) name) n).after rfl rfl)
  generalize unpause (freeRestarts (withdraw e (clDie (slotCl n)) (.ctx n)) name) n = u at h4 ⊢
  exact h4.trans (.of_eq rfl rfl)

theorem killRecord_links (s : State) (n cause tval epc : Nat) : LinksKept s (killRecord s n cause tval epc) :=
  (eventSoon_links (draw s).2 _ _ _ _).after rfl rfl

theorem killMessage_links (s : State) (n cause : Nat) : LinksKept s (killMessage s n cause) := by
  unfold killMessage
  extract_lets c
  split <;> exact .of_eq rfl rfl

theorem killSaved_links (s : State) (n cause tval : Nat) : LinksKept s (killSaved s n cause tval) := by
  unfold killSaved
  split
  · exact .refl s
  · extract_lets name img q g t1 t2 t3 cl held t4 t5
    have h2 : LinksKept s t2 := LinksKept.after (event_links _ _ _ _) rfl rfl
    have h3 : LinksKept t2 t3 := by
      subst t3
      split <;> exact .of_eq rfl rfl
    have h5 : LinksKept t3 t5 := LinksKept.after (.foldl (fun u m => bounce_links u _ _ m 0) _ _) rfl rfl
    clear_value t2 t3 t5
    exact (h2.trans (h3.trans h5)).trans (LinksKept.after (idleNotices_links _ _) rfl rfl)

theorem refill_links (s : State) (n name k : Nat) : LinksKept s (refill s n name k) := by
  induction k generalizing s with
  | zero => exact .refl s
  | succ k ih =>
    unfold refill
    split
    · exact .refl s
    · split
      · exact .refl s
      · exact LinksKept.after (ih _) rfl rfl

theorem l2Detect_links (s : State) (line : Nat) : LinksKept s (l2Detect s line) := by
  unfold l2Detect
  split
  · exact .refl s
  · split
    · exact .of_eq rfl rfl
    · exact LinksKept.after (eventBytes_links _ _) rfl rfl
    · exact LinksKept.after (eventBytes_links _ _) rfl rfl

theorem eccCorrected_links (s : State) (line y : Nat) : LinksKept s (eccCorrected s line y) := by
  unfold eccCorrected
  extract_lets ch quiet k
  split
  · split <;> exact .of_eq rfl rfl
  · exact LinksKept.after (eventBytes_links _ _) rfl rfl

theorem hbmDetect_links (s : State) (line : Nat) : LinksKept s (hbmDetect s line) := by
  unfold hbmDetect
  split
  · exact .refl s
  · split
    · exact .of_eq rfl rfl
    · exact LinksKept.after (eccCorrected_links _ _ _) rfl rfl
    · exact LinksKept.after (eventBytes_links _ _) rfl rfl

theorem lineDetect_links (s : State) (line : Nat) : LinksKept s (lineDetect s line) := by
  unfold lineDetect
  split
  · exact l2Detect_links s line
  · split
    · exact hbmDetect_links s line
    · exact .refl s

theorem imageWait_links (s : State) (line n : Nat) : LinksKept s (imageWait s line n) := by
  unfold imageWait
  split <;> exact .of_eq rfl rfl

theorem resumeSaved_links (s : State) (n : Nat) : LinksKept s (resumeSaved s n) := by
  unfold resumeSaved
  split
  · exact .refl s
  · split
    · exact .refl s
    · extract_lets a u name
      have hu : LinksKept s u := .foldl (fun v i => lineDetect_links v _) _ s
      clear_value u
      split
      · exact imageWait_links _ _ _
      · split
        · exact hu.trans ((killSaved_links _ _ _ _).after rfl rfl)
        · rename_i c src t1 t2 t3 cl _ _ _
          have h2 : LinksKept s t2 := hu.trans ((refill_links t1 n name 8).after rfl rfl)
          have h3 : LinksKept t2 t3 := by
            subst t3
            split
            · split <;> exact .of_eq rfl rfl
            · exact .refl _
          clear_value t2 t3
          refine (h2.trans h3).trans ?_
          generalize preemptedOf t3 cl name = x
          obtain ⟨ids, cmds⟩ := x
          dsimp only
          split <;> exact .of_eq rfl rfl

theorem activate_links (s : State) (n : Nat) (r : LRec) : LinksKept s (activate s n r) := by
  unfold activate
  extract_lets pc t u
  have hu : LinksKept t u := by
    subst u
    split
    · exact .refl _
    · split
      · exact LinksKept.after (event_links _ _ _ _) rfl rfl
      · exact .of_eq rfl rfl
  exact (hu.trans (idleNotices_links _ _)).after rfl rfl

theorem startChosen_links (s : State) (n : Nat) (r : LRec) : LinksKept s (startChosen s n r) := by
  unfold startChosen
  split
  · have h : LinksKept s (launchDiscard (lqDrop s r.seq) 0x16 r) := LinksKept.after (event_links _ _ _ _) rfl rfl
    exact (h.trans (resumeSaved_links _ _)).trans (idleNotices_links _ _)
  · exact LinksKept.after (activate_links _ _ _) rfl rfl

theorem finishIdle_links (s : State) (n : Nat) : LinksKept s (finishIdle s n) := by
  unfold finishIdle
  extract_lets c t1 t2 t3
  have h3 : LinksKept s t3 := .of_eq rfl rfl
  clear_value t3
  split
  · exact (h3.trans (idleNotices_links _ _)).trans (startChosen_links _ _ _)
  · exact (h3.trans (resumeSaved_links _ _)).trans (idleNotices_links _ _)

theorem killCtx_links (s : State) (n cause tval epc : Nat) : LinksKept s (killCtx s n cause tval epc) := by
  unfold killCtx
  extract_lets name t1 t2 t3
  have h1 : LinksKept s t1 := (killRecord_links s n cause tval epc).trans (killMessage_links _ _ _)
  clear_value t1
  have h2 := h1.trans (endEffects_links t1 n)
  subst t3 t2
  generalize endEffects t1 n = e at h2 ⊢
  have h3 : LinksKept s (modCtx (bumpGen e name) n fun c => { c with dying := true }) := h2.trans (.of_eq rfl rfl)
  split
  · exact h3.trans (finishIdle_links _ _)
  · exact h3

theorem takeTrapAt_links (s : State) (n : Nat) (t : Trap) : LinksKept s (takeTrapAt s n t) := by
  unfold takeTrapAt
  extract_lets c epc w
  split
  · exact (leaveWait_links s n).trans (killCtx_links _ _ _ _ _)
  · exact .of_eq rfl rfl

/-! ## AMOs of a saved context -/

theorem writeUnder_links (s : State) (key pa : Nat) (bs : List Byte) : LinksKept s (writeUnder s key pa bs) := by
  have hr : LinksKept s (rekeyLine s key (pa / 64)) := by
    unfold rekeyLine
    split
    · exact .refl s
    · split <;> exact .of_eq rfl rfl
  unfold writeUnder
  extract_lets t u
  split <;> exact hr.trans (.of_eq rfl rfl)

theorem amoSettled_links (s : State) (n : Nat) : LinksKept s (amoSettled s n) := by
  unfold amoSettled
  split
  · exact .refl s
  · extract_lets a t1 t2
    have h1 : LinksKept s t1 := writeUnder_links s 0 a _
    clear_value t1
    have h2 : LinksKept s t2 := h1.trans (.of_eq rfl rfl)
    clear_value t2
    split
    · exact h2
    · exact (h2.trans (resumeSaved_links _ _)).trans (idleNotices_links _ _)

theorem imageTrap_links (s : State) (n cause tval : Nat) : LinksKept s (imageTrap s n cause tval) := by
  unfold imageTrap
  extract_lets a q put st tl w t1 t2 t3 t4
  split
  · exact killSaved_links _ _ _ _
  · have hput (t : State) (o v : Nat) : LinksKept t (put t o v) := writeUnder_links _ _ _ _
    clear_value put
    exact (((((hput s _ _).trans (hput _ _ _)).trans (hput _ _ _)).trans (hput _ _ _)).trans (hput _ _ _)).trans
      (amoSettled_links _ _)

theorem amoTrapped_links (s : State) (tag : Nat) (r : TagRec) (cause tval : Nat) :
    LinksKept s (amoTrapped s tag r cause tval) := by
  unfold amoTrapped
  split
  · split
    · split
      · exact takeTrapAt_links _ _ _
      · exact .refl s
    · exact .refl s
  · exact imageTrap_links _ _ _ _
  · exact .refl s

/-! ## What a port loses -/

/-- An answered tag is free, and copy engines may look at their queues again: nothing else changes. -/
theorem tagDone_eq (s : State) (tag : Nat) (r : TagRec) :
    ∃ l, tagDone s tag r = { s with tags := fdel s.tags tag, agenda := l } := by
  have h (l : List (Nat × Cluster)) (u : State) : ∃ a, l.foldl (fun t k => teKick t k.1) u = { u with agenda := a } := by
    induction l generalizing u with
    | nil => exact ⟨u.agenda, rfl⟩
    | cons k l ih =>
      have hk : ∃ a, teKick u k.1 = { u with agenda := a } := by
        unfold teKick
        split
        · exact ⟨u.agenda, rfl⟩
        · exact ⟨_, rfl⟩
      obtain ⟨a, ha⟩ := hk
      obtain ⟨b, hb⟩ := ih (teKick u k.1)
      exact ⟨b, by rw [List.foldl_cons, hb, ha]⟩
  exact h _ _

theorem unackedDown_links (s : State) (name : Nat) : LinksKept s (unackedDown s name) := by
  unfold unackedDown
  split
  · exact .of_eq rfl rfl
  · split <;> exact .of_eq rfl rfl
  · exact .refl s

theorem noteLost_links (s : State) (name dev : Nat) : LinksKept s (noteLost s name dev) := by
  unfold noteLost
  split
  · exact .of_eq rfl rfl
  · split <;> exact .of_eq rfl rfl
  · exact .refl s

theorem lostTag_links (s : State) (tag : Nat) (r : TagRec) : LinksKept s (lostTag s tag r) := by
  have hd : LinksKept s (tagDone s tag r) := by
    obtain ⟨l, e⟩ := tagDone_eq s tag r
    rw [e]; exact .of_eq rfl rfl
  have hw (t : State) (dev : Nat) : LinksKept t (lostWrite t r.issuer dev) :=
    (unackedDown_links _ _).trans (noteLost_links _ _ _)
  unfold lostTag
  extract_lets t
  refine hd.trans ?_
  split
  · exact hw _ _
  · exact hw _ _
  · rename_i cl id _
    have hr := teRefused_links t cl id 0x15
    split <;> rename_i u he <;> rw [he] at hr
    · exact hr
    · exact hr.trans (noteLost_links _ _ _)
  · exact amoTrapped_links _ _ _ _ _

theorem lostMsg_links (s : State) (k : Packet) : LinksKept s (lostMsg s k) := by
  unfold lostMsg
  split
  · exact .refl s
  · exact deadLetter_links _ _ _ _ _

/-- A port without its queues. -/
def Port.emptied (q : Port) : Port := { q with replay := [], txq := [], waited := [0, 0, 0, 0], resend := none, ask := false }

/-- A port that gives up its queues empties them, and what is lost with them touches no more of the ports. -/
theorem dropPort_links (s : State) (p : Nat) : LinksKept (modPort s p Port.emptied) (dropPort s p) :=
  (LinksKept.foldl (fun u k => lostMsg_links u k) _ _).trans (.foldl (fun u (x : Nat × TagRec) => lostTag_links u x.1 x.2) _ _)

end Sys2Proof.Machine
end

section
/-!
SUPPORT. A port enters a state (R53, R56, R62): what it and the others are then, and the record that says so.
-/

namespace Sys2Proof.Machine

/-- A port that enters a state notes the time, and a retraining is counted (R53, R54). -/
def Port.entered (gtc : Nat) (st : PortSt) (q : Port) : Port :=
  { q with st := st, since := gtc, retrains := if st = .retrain then sat (q.retrains + 1) 8 else q.retrains }

/-- The record of a change of state (R53, R124). -/
def linkRecord (s : State) (p : Nat) (st : PortSt) : List Byte :=
  record 64 [(0, 8, s.gtc), (8, 2, unitSrc 5 p), (10, 2, s.devid), (12, 1, 0x10), (16, 1, p),
    (17, 1, (portOf s p).st.code), (18, 1, st.code), (20, 2, (portOf s p).peer)]

/-- A port has entered a state and its record is written. -/
def linkNoted (s : State) (p : Nat) (st : PortSt) : State :=
  eventBytes (modPort s p (Port.entered s.gtc st)) (linkRecord s p st)

/-- The port that leads to the parent goes out of UP: the counter runs free from then on (R62). -/
def orphaned (s : State) (p : Nat) (t : State) : State :=
  if (portOf s p).st = .up ∧ s.gtcEn ∧ s.gtcParent = p then
    { t with gtcLost := true, gtcSynced := false, gtcExchanges := 0, slew := 0, syncSince := none }
  else t

/-- A port that goes out of service from one state to another gives up its queues (R56). -/
def givesUp (old new : PortSt) : Prop := new = .failed ∨ (new = .down ∧ (old = .up ∨ old = .retrain))

theorem event_eq_linkRecord (s : State) (p : Nat) (st : PortSt) :
    event (modPort s p (Port.entered s.gtc st)) (unitSrc 5 p) 0x10 [(16, 1, p), (17, 1, (portOf s p).st.code), (18, 1, st.code),
      (20, 2, (portOf (modPort s p (Port.entered s.gtc st)) p).peer)] = linkNoted s p st := by
  rw [portOf_modPort]
  rfl

theorem linkTo_eq_of_keeps {s : State} {p : Nat} {st : PortSt} (h : ¬givesUp (portOf s p).st st) :
    linkTo s p st = wakeIf (orphaned s p (linkNoted s p st)) (· == .fenceSys) := by
  rw [← event_eq_linkRecord]
  exact congrArg (wakeIf · (· == .fenceSys)) (if_neg h)

theorem linkTo_eq_of_givesUp {s : State} {p : Nat} {st : PortSt} (h : givesUp (portOf s p).st st) :
    linkTo s p st = wakeIf (dropPort (orphaned s p (linkNoted s p st)) p) (· == .fenceSys) := by
  rw [← event_eq_linkRecord]
  exact congrArg (wakeIf · (· == .fenceSys)) (if_pos h)

theorem orphaned_wires (s : State) (p : Nat) (t : State) : (orphaned s p t).ports = t.ports ∧ (orphaned s p t).evq = t.evq := by
  unfold orphaned
  split <;> exact ⟨rfl, rfl⟩

theorem portOf_linkNoted (s : State) (p : Nat) (st : PortSt) : portOf (linkNoted s p st) p = (portOf s p).entered s.gtc st := by
  rw [linkNoted, portOf, eventBytes_ports]
  exact portOf_modPort _ _ _

theorem portOf_linkNoted_ne {s : State} {p q : Nat} (st : PortSt) (h : q ≠ p) : portOf (linkNoted s p st) q = portOf s q := by
  rw [linkNoted, portOf, eventBytes_ports]
  exact portOf_modPort_ne _ h

/-- The record goes to the held ones while the queue is disabled and there is room (R123). -/
theorem linkNoted_held {s : State} (p : Nat) (st : PortSt) (he : s.evq.en = false) (hn : s.evq.held.length < 256) :
    (linkNoted s p st).evq.en = false ∧ (linkNoted s p st).evq.held = s.evq.held ++ [linkRecord s p st] := by
  rw [linkNoted, eventBytes_held (modPort s p (Port.entered s.gtc st)) _ he hn]
  exact ⟨he, rfl⟩

/-! ## What a port is in its new state -/

theorem portOf_orphaned (s : State) (p q : Nat) (t : State) : portOf (orphaned s p t) q = portOf t q := by
  simp only [portOf, (orphaned_wires s p t).1]

theorem portOf_wakeIf (s : State) (f : Wait → Bool) (p : Nat) : portOf (wakeIf s f) p = portOf s p := rfl

theorem portOf_linkTo_of_keeps {s : State} {p : Nat} {st : PortSt} (h : ¬givesUp (portOf s p).st st) :
    portOf (linkTo s p st) p = (portOf s p).entered s.gtc st := by
  rw [linkTo_eq_of_keeps h, portOf_wakeIf, portOf_orphaned, portOf_linkNoted]

/-- Giving up its queues touches no other field of a port's or record held. -/
theorem dropPort_orphaned_links (s : State) (p : Nat) (st : PortSt) :
    LinksKept (modPort (linkNoted s p st) p Port.emptied) (dropPort (orphaned s p (linkNoted s p st)) p) := by
  obtain ⟨hp, he⟩ := orphaned_wires s p (linkNoted s p st)
  refine (dropPort_links _ p).after ?_ he
  simp only [modPort, portOf, hp]

theorem portOf_linkTo_of_givesUp {s : State} {p : Nat} {st : PortSt} (h : givesUp (portOf s p).st st) :
    portOf (linkTo s p st) p = ((portOf s p).entered s.gtc st).emptied := by
  have hd : portOf (modPort (linkNoted s p st) p Port.emptied) p = ((portOf s p).entered s.gtc st).emptied := by
    rw [portOf_modPort, portOf_linkNoted]
  rw [linkTo_eq_of_givesUp h, portOf_wakeIf, (dropPort_orphaned_links s p st).dead p, hd]
  rw [hd]
  show st = .down ∨ st = .failed
  exact h.elim .inr fun h => .inl h.1

/-- No other port changes its state. -/
theorem linkTo_st_ne {s : State} {p q : Nat} (st : PortSt) (hq : q ≠ p) : (portOf (linkTo s p st) q).st = (portOf s q).st := by
  by_cases h : givesUp (portOf s p).st st
  · rw [linkTo_eq_of_givesUp h, portOf_wakeIf, (dropPort_orphaned_links s p st).st, portOf_modPort_ne _ hq, portOf_linkNoted_ne st hq]
  · rw [linkTo_eq_of_keeps h, portOf_wakeIf, portOf_orphaned, portOf_linkNoted_ne st hq]

/-- The record of the change stands among those held. -/
theorem linkTo_held {s : State} (p : Nat) (st : PortSt) (he : s.evq.en = false) (hn : s.evq.held.length < 256) :
    s.evq.held ++ [linkRecord s p st] <+: (linkTo s p st).evq.held := by
  obtain ⟨hen, hh⟩ := linkNoted_held p st he hn
  rw [← hh]
  by_cases h : givesUp (portOf s p).st st
  · rw [linkTo_eq_of_givesUp h]
    exact ((dropPort_orphaned_links s p st).held hen).2
  · rw [linkTo_eq_of_keeps h]
    show _ <+: (orphaned s p (linkNoted s p st)).evq.held
    rw [(orphaned_wires _ _ _).2]

end Sys2Proof.Machine

namespace Sys2Proof.Safety

open Sys2Proof.Machine

/-- A port enters a state: its time, its record, and the others' states. -/
theorem linkTo_goes (s : State) (p : Nat) (st : PortSt) : LinkGoes s (linkTo s p st) p st (portOf s p).peer := by
  have hp : (portOf (linkTo s p st) p).st = st ∧ (portOf (linkTo s p st) p).since = s.gtc := by
    by_cases h : givesUp (portOf s p).st st
    · rw [portOf_linkTo_of_givesUp h]; exact ⟨rfl, rfl⟩
    · rw [portOf_linkTo_of_keeps h]; exact ⟨rfl, rfl⟩
  exact ⟨hp.1, hp.2, fun q hq => linkTo_st_ne st hq, fun he hn _ => linkTo_held p st he hn⟩

/-- The same, where the event first writes other fields of the port. -/
theorem linkTo_modPort_goes {s : State} {p : Nat} {f : Port → Port} (hf : (f (portOf s p)).st = (portOf s p).st) (st : PortSt) :
    LinkGoes s (linkTo (modPort s p f) p st) p st (f (portOf s p)).peer := by
  obtain ⟨h1, h2, h3, h4⟩ := linkTo_goes (modPort s p f) p st
  rw [portOf_modPort, hf] at h4
  refine ⟨h1, h2, fun q hq => ?_, h4⟩
  rw [h3 q hq, portOf_modPort_ne f hq]

end Sys2Proof.Safety
end


section
/-!
CERTIFICATES. Packets as bytes, and flits received (R48 to R52, R58, R59).
-/

namespace Sys2Proof.Machine

/-! ## A packet as bytes (R51) -/

/-- A packet that a header can name: each field in its range, data in whole units, no body of the CE. -/
structure LaidOut (k : Packet) : Prop where
  kind : k.kind < 256
  cls : k.cls < 4
  hops : k.hops < 8
  dest : k.dest < 4096
  source : k.source < 4096
  tag : k.tag < 65536
  len : k.data.length ≤ 224
  units : k.data.length % 16 = 0
  resv : k.resv = false
  ce : k.ce = none

/-- The second word of a packet's header, of its fields and the number of its units. -/
def headerWord (k : Packet) : Nat :=
  k.tag + k.data.length / 16 * 2 ^ 16 + k.source * 2 ^ 24 + k.dest * 2 ^ 36 + k.hops * 2 ^ 51 + k.cls * 2 ^ 54 + k.kind * 2 ^ 56

theorem LaidOut.headerWord_lt {k : Packet} (h : LaidOut k) : headerWord k < 256 ^ 8 := by
  obtain ⟨h1, h2, h3, h4, h5, h6, h7, -, -, -⟩ := h
  unfold headerWord
  omega

/-- Each field of the header word reads back. -/
theorem LaidOut.fields {k : Packet} (h : LaidOut k) :
    fld (headerWord k) 56 8 = k.kind ∧ fld (headerWord k) 54 2 = k.cls ∧ fld (headerWord k) 51 3 = k.hops ∧
    fld (headerWord k) 36 12 = k.dest ∧ fld (headerWord k) 24 12 = k.source ∧ fld (headerWord k) 0 16 = k.tag ∧
    fld (headerWord k) 16 4 = k.data.length / 16 ∧ fld (headerWord k) 48 3 = 0 ∧ fld (headerWord k) 20 4 = 0 := by
  obtain ⟨h1, h2, h3, h4, h5, h6, h7, -, -, -⟩ := h
  unfold headerWord fld
  refine ⟨?_, ?_, ?_, ?_, ?_, ?_, ?_, ?_, ?_⟩ <;> omega

theorem LaidOut.packetBytes_eq {k : Packet} (h : LaidOut k) :
    packetBytes k = leBytes 8 k.addr.toNat ++ leBytes 8 (headerWord k) ++ k.data := by
  have hn : (k.data.length + 15) / 16 = k.data.length / 16 := by have := h.units; omega
  have hz : 16 * (k.data.length / 16) - k.data.length = 0 := by omega
  have ht : k.data.take 224 = k.data := List.take_of_length_le h.len
  simp [packetBytes, headerWord, h.ce, ht, hn, hz, Nat.mod_eq_of_lt h.tag, Nat.mod_eq_of_lt h.source, Nat.mod_eq_of_lt h.dest,
    Nat.mod_eq_of_lt h.hops, Nat.mod_eq_of_lt h.cls, Nat.mod_eq_of_lt h.kind]

theorem LaidOut.length_packetBytes {k : Packet} (h : LaidOut k) : (packetBytes k).length = 16 + k.data.length := by
  simp only [h.packetBytes_eq, List.length_append, leBytes_length]

/-- The parts of a packet's bytes: address, header word, data. -/
theorem LaidOut.parts {k : Packet} (h : LaidOut k) :
    (packetBytes k).take 8 = leBytes 8 k.addr.toNat ∧ ((packetBytes k).drop 8).take 8 = leBytes 8 (headerWord k) ∧
    (packetBytes k).drop 16 = k.data := by
  have e1 : (leBytes 8 k.addr.toNat).length = 8 := leBytes_length _ _
  have e2 : (leBytes 8 (headerWord k)).length = 8 := leBytes_length _ _
  have e3 : (leBytes 8 k.addr.toNat ++ leBytes 8 (headerWord k)).length = 16 := by simp [e1, e2]
  rw [h.packetBytes_eq]
  refine ⟨?_, ?_, List.drop_left' e3⟩
  · rw [List.append_assoc, List.take_left' e1]
  · rw [List.append_assoc, List.drop_left' e1, List.take_left' e2]

theorem LaidOut.leNat_header {k : Packet} (h : LaidOut k) : leNat (((packetBytes k).drop 8).take 8) = headerWord k := by
  rw [h.parts.2.1, leNat_leBytes, Nat.mod_eq_of_lt h.headerWord_lt]

/-- A packet read from its bytes is the packet. -/
theorem LaidOut.packetAt_packetBytes {k : Packet} (h : LaidOut k) : packetAt (packetBytes k) = k := by
  obtain ⟨hkind, hcls, hhops, hdest, hsource, htag, hunits, hr1, hr2⟩ := h.fields
  have hn : 16 * (k.data.length / 16) = k.data.length := by have := h.units; omega
  have haddr : wd (leNat ((packetBytes k).take 8)) = k.addr := by
    rw [h.parts.1, leNat_leBytes, show (256 : Nat) ^ 8 = 2 ^ 64 by norm_num, Nat.mod_eq_of_lt k.addr.isLt]
    simp [wd]
  simp only [packetAt, h.leNat_header, hkind, hcls, hhops, hdest, hsource, htag, hunits, hr1, hr2, hn, haddr, h.parts.2.2,
    h.length_packetBytes, List.take_length]
  calc _ = { k with resv := false, ce := none } := by simp
    _ = k := by rw [← h.resv, ← h.ce]

/-! ## What becomes of a packet (R51, R52, R59) -/

theorem packetIn_reserved {s : State} {k : Packet} (p : Nat) (h : k.resv = true) :
    packetIn s p k = modPort s p fun q => { q with badpkt := sat (q.badpkt + 1) 16 } := by
  simp [packetIn, h]

/-- Kinds 1 to 8 are known, and none of them is the CE's or the clock's. -/
theorem knownKind_low {k : Nat} (h1 : 1 ≤ k) (h8 : k ≤ 8) : knownKind k = true := by
  simp [knownKind, h1, h8]

theorem packetIn_here {s : State} {k : Packet} (p : Nat) (hr : k.resv = false) (h1 : 1 ≤ k.kind) (h8 : k.kind ≤ 8)
    (hd : k.dest = s.devid) : packetIn s p k = later s (arrival p k) := by
  have hce : ¬(k.kind = 0x10 ∨ k.kind = 0x11) := by omega
  have hsync : ¬k.kind = 0x12 := by omega
  simp [packetIn, hr, knownKind_low h1 h8, hd, hce, hsync]

theorem packetIn_elsewhere {s : State} {k : Packet} (p : Nat) (hr : k.resv = false) (h1 : 1 ≤ k.kind) (h8 : k.kind ≤ 8)
    (hd : k.dest ≠ s.devid) : packetIn s p k = forwardPkt s p k := by
  simp [packetIn, hr, knownKind_low h1 h8, hd]

theorem forwardPkt_goes_on {s : State} {k : Packet} {x : Nat} (p : Nat) (hh : k.hops < 4)
    (hx : routeOf s k.dest = some (some x)) : forwardPkt s p k = txPut s x { k with hops := k.hops + 1 } := by
  simp [forwardPkt, Nat.not_le.2 hh, hx]

/-- The refusal of a packet that may make no further hop (R59). -/
def hopNack (s : State) (k : Packet) : Packet :=
  { kind := 7, cls := k.cls, hops := 0, dest := k.source, source := s.devid, tag := k.tag, addr := k.addr,
    data := leBytes 16 0x16, resv := false, ce := none }

theorem forwardPkt_refused {s : State} {k : Packet} {x : Nat} (p : Nat) (hh : k.hops = 4) (hk : k.kind ≠ 7)
    (hs : k.source ≠ s.devid) (hx : routeOf s k.source = some (some x)) : forwardPkt s p k = txPut s x (hopNack s k) := by
  simp [forwardPkt, hopNack, hh, hk, hs, hx]

/-- The event of a packet of the kinds 1 to 8, by its kind. -/
theorem arrival_eq_getD {k : Packet} (p : Nat) (h1 : 1 ≤ k.kind) (h8 : k.kind ≤ 8) :
    arrival p k = [.inWrite p k, .inCput p k, .inAmoAdd p k, .inAmoSwap p k, .inAmoReply p k, .inAck p k, .inNack p k,
      .inMsg p k].getD (k.kind - 1) (.inMsg p k) := by
  have : k.kind = 1 ∨ k.kind = 2 ∨ k.kind = 3 ∨ k.kind = 4 ∨ k.kind = 5 ∨ k.kind = 6 ∨ k.kind = 7 ∨ k.kind = 8 := by omega
  rcases this with h | h | h | h | h | h | h | h <;> simp [arrival, h]

/-! ## Flits (R48 to R50) -/

/-- The flit is sound: its CRC holds and its FKIND is not reserved. -/
theorem flitOk_iff (bytes : List Byte) :
    flitOk bytes = true ↔ bytes.length = 256 ∧ flitCtl bytes % 256 ≤ 2 ∧
      leNat (bytes.drop 248) = (Config.crc64 (bytes.take 248)).toNat := by
  simp only [flitOk, Bool.and_eq_true, beq_iff_eq, decide_eq_true_eq]
  tauto

theorem exec_flitReceive_shut {s : State} {p : Nat} (h : 12 ≤ p ∨ (portOf s p).st ≠ .up) (bytes : List Byte) :
    exec (.flitReceive p bytes) s = .next s := if_pos h

theorem exec_replayRequest_shut {s : State} {p : Nat} (h : 12 ≤ p ∨ (portOf s p).st ≠ .up) (seq : Nat) :
    exec (.replayRequest p seq) s = .next s := by
  rw [exec_replayRequest, execReplayRequest]
  split
  · have hst := h.resolve_left (by omega)
    simp [replayAsked, hst]
  · rfl

section
variable {s : State} {p : Nat} {bytes : List Byte} (hp : p < 12) (hst : (portOf s p).st = .up)
include hp hst

theorem exec_flitReceive_unsound (h : flitOk bytes = false) :
    exec (.flitReceive p bytes) s = .next (modPort s p fun q => { q with rxGap := true, ask := true }) := by
  simp [exec_flitReceive, execFlitReceive, Nat.not_le.2 hp, hst, h]

theorem exec_flitReceive_request (h : flitOk bytes = true) (hk : flitCtl bytes % 256 = 2) :
    exec (.flitReceive p bytes) s =
      exec (.replayRequest p (fld (flitCtl bytes) 52 12)) (modPort s p fun q => q.acked (fld (flitCtl bytes) 40 12)) := by
  simp [exec_flitReceive, execFlitReceive, exec_replayRequest, execReplayRequest, Nat.not_le.2 hp, hp, hst, h, hk]

theorem exec_flitReceive_early (h : flitOk bytes = true) (hk : flitCtl bytes % 256 ≠ 2)
    (hq : fld (flitCtl bytes) 52 12 ≠ ((portOf s p).rxSeq + 1) % 4096) :
    exec (.flitReceive p bytes) s = .next (
      if (fld (flitCtl bytes) 52 12 + 4096 - (portOf s p).rxSeq) % 4096 < 2048 ∧ (portOf s p).rxGap = false then
        modPort s p fun q => { q with rxGap := true, ask := true }
      else s) := by
  simp only [exec_flitReceive, execFlitReceive, Nat.not_le.2 hp, hst, h, hk, hq, ne_eq, not_true, or_self, if_false,
    Bool.not_true, Bool.false_eq_true, Bool.not_eq_true']
  split <;> rfl

/-- A flit in order is taken, and its packets come in one after the other. -/
theorem exec_flitReceive_in_order (h : flitOk bytes = true) (hk : flitCtl bytes % 256 ≠ 2)
    (hq : fld (flitCtl bytes) 52 12 = ((portOf s p).rxSeq + 1) % 4096) :
    exec (.flitReceive p bytes) s = .next (
      if flitCtl bytes % 256 = 0 then (flitPackets bytes).foldl (fun u k => packetIn u p k) (modPort s p fun q => q.accepted bytes)
      else modPort s p fun q => q.accepted bytes) := by
  simp [exec_flitReceive, execFlitReceive, Nat.not_le.2 hp, hst, h, hk, hq]

end

/-- ACKSEQ advances by less than half of its range, or stands still (R50). -/
theorem acked_eq (q : Port) (ack : Nat) :
    q.acked ack = if (ack + 4096 - q.ackSeq) % 4096 ≠ 0 ∧ (ack + 4096 - q.ackSeq) % 4096 < 2048 then
      { q with ackSeq := ack, reqRun := 0 } else q := by
  unfold Port.acked
  extract_lets d
  by_cases h : d = 0 ∨ 2048 ≤ d
  · rw [if_pos h, if_neg (by omega)]
  · rw [if_neg h, if_pos (by omega)]

theorem accepted_st (q : Port) (bytes : List Byte) : (q.accepted bytes).st = q.st := by
  simp only [Port.accepted, acked_eq]
  split <;> rfl

theorem accepted_txq (q : Port) (bytes : List Byte) : (q.accepted bytes).txq = q.txq := by
  simp only [Port.accepted, acked_eq]
  split <;> rfl

theorem accepted_badpkt (q : Port) (bytes : List Byte) : (q.accepted bytes).badpkt = q.badpkt := by
  simp only [Port.accepted, acked_eq]
  split <;> rfl

/-- A data flit owes a credit of its class, any other none. -/
theorem accepted_owed (q : Port) (bytes : List Byte) : (q.accepted bytes).owed =
    if flitCtl bytes % 256 = 0 then
      q.owed.set (((flitPackets bytes).head?.map Packet.cls).getD 0) (q.owed.getD (((flitPackets bytes).head?.map Packet.cls).getD 0) 0 + 1)
    else q.owed := rfl

/-- What a port that takes a flit in order knows from it: SEQ, ACKSEQ, credits. -/
structure Counts (q q' : Port) (bytes : List Byte) : Prop where
  seq : q'.rxSeq = fld (flitCtl bytes) 52 12 ∧ q'.rxGap = false
  advance : (fld (flitCtl bytes) 40 12 + 4096 - q.ackSeq) % 4096 ≠ 0 ∧ (fld (flitCtl bytes) 40 12 + 4096 - q.ackSeq) % 4096 < 2048 →
    q'.ackSeq = fld (flitCtl bytes) 40 12 ∧ q'.reqRun = 0
  still : ¬((fld (flitCtl bytes) 40 12 + 4096 - q.ackSeq) % 4096 ≠ 0 ∧ (fld (flitCtl bytes) 40 12 + 4096 - q.ackSeq) % 4096 < 2048) →
    q'.ackSeq = q.ackSeq
  credits : q'.credits = (List.range 4).map fun c => min 64 (q.credits.getD c 0 + fld (flitCtl bytes) (8 + 8 * c) 8)

theorem counts_accepted (q : Port) (bytes : List Byte) : Counts q (q.accepted bytes) bytes where
  seq := ⟨rfl, rfl⟩
  advance h := by simp only [Port.accepted, acked_eq, if_pos h, and_self]
  still h := by simp only [Port.accepted, acked_eq, if_neg h]
  credits := rfl

theorem Counts.of_badpkt {q q' : Port} {bytes : List Byte} (h : Counts q q' bytes) (n : Nat) :
    Counts q { q' with badpkt := n } bytes :=
  ⟨h.seq, h.advance, h.still, h.credits⟩

/-! ## Replay requests (R50) -/

/-- A port after a replay request that it serves. -/
def Port.asked (seq : Nat) (q : Port) : Port :=
  { q with reqRun := q.reqRun + 1, resend := if seq % 4096 = q.txSeq then none else some (seq % 4096), ask := q.ask || q.rxGap }

theorem any_replay_iff (q : Port) (n : Nat) : q.replay.any (·.1 == n) = true ↔ ∃ r ∈ q.replay, r.1 = n := by
  simp only [List.any_eq_true, beq_iff_eq]

theorem exec_replayRequest_served {s : State} {p seq : Nat} (hp : p < 12) (hst : (portOf s p).st = .up)
    (hr : (portOf s p).reqRun + 1 < 16)
    (hn : seq % 4096 = (portOf s p).txSeq ∨ ∃ r ∈ (portOf s p).replay, r.1 = seq % 4096) :
    exec (.replayRequest p seq) s = .next (modPort s p (Port.asked seq)) := by
  have hc : ¬(16 ≤ (portOf s p).reqRun + 1 ∨
      (seq % 4096 ≠ (portOf s p).txSeq ∧ !(portOf s p).replay.any (·.1 == seq % 4096))) := by
    rintro (h | ⟨h1, h2⟩)
    · omega
    · rw [Bool.not_eq_true', ← Bool.not_eq_true, any_replay_iff] at h2
      exact hn.elim h1 h2
  rw [exec_replayRequest, execReplayRequest, if_pos hp, replayAsked]
  simp only [hst, ne_eq, not_true, if_false, if_neg hc]
  rfl

theorem exec_replayRequest_retrains {s : State} {p seq : Nat} (hp : p < 12) (hst : (portOf s p).st = .up)
    (h : 16 ≤ (portOf s p).reqRun + 1 ∨
      (seq % 4096 ≠ (portOf s p).txSeq ∧ ∀ r ∈ (portOf s p).replay, r.1 ≠ seq % 4096)) :
    exec (.replayRequest p seq) s = .next (linkTo (modPort s p (Port.asked seq)) p .retrain) := by
  have hc : 16 ≤ (portOf s p).reqRun + 1 ∨
      (seq % 4096 ≠ (portOf s p).txSeq ∧ !(portOf s p).replay.any (·.1 == seq % 4096)) := by
    refine h.imp_right fun ⟨h1, h2⟩ => ⟨h1, ?_⟩
    rw [Bool.not_eq_true', ← Bool.not_eq_true, any_replay_iff]
    exact fun ⟨r, hr, e⟩ => h2 r hr e
  rw [exec_replayRequest, execReplayRequest, if_pos hp, replayAsked]
  simp only [hst, ne_eq, not_true, if_false, if_pos hc]
  rfl

end Sys2Proof.Machine

namespace Sys2Proof.Safety

open Sys2Proof.Machine

section
variable {s t : State} {p : Nat} {bytes : List Byte}

/-- What a state keeps from one in which the port has taken a flit. -/
structure Takes (s t : State) (p : Nat) (bytes : List Byte) : Prop where
  counts : Counts (portOf s p) (portOf t p) bytes
  mem : SameMem s t
  ctxs : t.ctxs = s.ctxs

theorem takes_accepted (s : State) (p : Nat) (bytes : List Byte) : Takes s (modPort s p fun q => q.accepted bytes) p bytes where
  counts := by rw [portOf_modPort]; exact counts_accepted _ _
  mem _ := rfl
  ctxs := rfl

theorem Takes.later (h : Takes s t p bytes) (i : Instr) : Takes s (later t i) p bytes := ⟨h.counts, h.mem, h.ctxs⟩

theorem Takes.txPut (h : Takes s t p bytes) {x : Nat} (hx : x ≠ p) (k : Packet) : Takes s (txPut t x k) p bytes where
  counts := by rw [portOf_txPut_ne k hx.symm]; exact h.counts
  mem := h.mem
  ctxs := h.ctxs

theorem Takes.badpkt (h : Takes s t p bytes) (f : Port → Nat) : Takes s (modPort t p fun q => { q with badpkt := f q }) p bytes where
  counts := by rw [portOf_modPort]; exact h.counts.of_badpkt _
  mem := h.mem
  ctxs := h.ctxs

/-- A port that has taken a flit has the states and queues it had. -/
theorem routeOf_accepted (s : State) (p : Nat) (bytes : List Byte) :
    routeOf (modPort s p fun q => q.accepted bytes) = routeOf s :=
  routeOf_congr rfl (modPort_part Port.st (accepted_st _ _))

theorem txq_txPut_accepted (s : State) (p x : Nat) (bytes : List Byte) (k : Packet) :
    (portOf (txPut (modPort s p fun q => q.accepted bytes) x k) x).txq = (portOf s x).txq ++ [k] := by
  rw [portOf_txPut, modPort_part Port.txq (accepted_txq _ _)]

end

section
variable {s : State} {p : Nat} {bytes : List Byte} {k : Packet} (hp : p < 12) (hst : (portOf s p).st = .up)
  (hok : flitOk bytes = true) (hq : fld (flitCtl bytes) 52 12 = ((portOf s p).rxSeq + 1) % 4096)
include hp hst hok hq

/-- An idle flit carries credits alone. -/
theorem flitReceive_idle (hk : flitCtl bytes % 256 = 1) : Does (.flitReceive p bytes) s fun t =>
    Takes s t p bytes ∧ t.agenda = s.agenda ∧ (portOf t p).owed = (portOf s p).owed := by
  refine ⟨_, exec_flitReceive_in_order hp hst hok (by omega) hq, ?_⟩
  rw [if_neg (by omega)]
  exact ⟨takes_accepted s p bytes, rfl, by rw [portOf_modPort, accepted_owed, if_neg (by omega)]⟩

/-- A data flit of one packet brings that packet in. -/
theorem exec_flitReceive_one (hk : flitCtl bytes % 256 = 0) (hf : flitPackets bytes = [k]) :
    exec (.flitReceive p bytes) s = .next (packetIn (modPort s p fun q => q.accepted bytes) p k) := by
  rw [exec_flitReceive_in_order hp hst hok (by omega) hq, if_pos hk, hf]
  rfl

theorem flitReceive_here (hk : flitCtl bytes % 256 = 0) (hf : flitPackets bytes = [k]) (hr : k.resv = false)
    (h1 : 1 ≤ k.kind) (h8 : k.kind ≤ 8) (hd : k.dest = s.devid) : Does (.flitReceive p bytes) s fun t =>
    Takes s t p bytes ∧ (portOf t p).owed = (portOf s p).owed.set k.cls ((portOf s p).owed.getD k.cls 0 + 1) ∧
      t.agenda = s.agenda ++ [arrival p k] := by
  refine ⟨_, exec_flitReceive_one hp hst hok hq hk hf, ?_⟩
  rw [packetIn_here (s := modPort s p fun q => q.accepted bytes) p hr h1 h8 hd]
  refine ⟨(takes_accepted s p bytes).later _, ?_, rfl⟩
  rw [portOf_later, portOf_modPort, accepted_owed, if_pos hk, hf]
  rfl

theorem flitReceive_reserved (hk : flitCtl bytes % 256 = 0) (hf : flitPackets bytes = [k]) (hr : k.resv = true) :
    Does (.flitReceive p bytes) s fun t =>
      Takes s t p bytes ∧ t.agenda = s.agenda ∧ (portOf t p).badpkt = min ((portOf s p).badpkt + 1) 65535 := by
  refine ⟨_, exec_flitReceive_one hp hst hok hq hk hf, ?_⟩
  rw [packetIn_reserved p hr]
  exact ⟨(takes_accepted s p bytes).badpkt _, rfl, by rw [portOf_modPort, portOf_modPort, accepted_badpkt, sat_16]⟩

theorem flitReceive_forwards {x : Nat} (hk : flitCtl bytes % 256 = 0) (hf : flitPackets bytes = [k]) (hr : k.resv = false)
    (h1 : 1 ≤ k.kind) (h8 : k.kind ≤ 8) (hd : k.dest ≠ s.devid) (hh : k.hops < 4)
    (hx : routeOf s k.dest = some (some x)) (hxp : x ≠ p) : Does (.flitReceive p bytes) s fun t =>
      Takes s t p bytes ∧ (portOf t x).txq = (portOf s x).txq ++ [{ k with hops := k.hops + 1 }] := by
  refine ⟨_, exec_flitReceive_one hp hst hok hq hk hf, ?_⟩
  rw [packetIn_elsewhere (s := modPort s p fun q => q.accepted bytes) p hr h1 h8 hd,
    forwardPkt_goes_on p hh (by rw [routeOf_accepted, hx])]
  exact ⟨(takes_accepted s p bytes).txPut hxp _, txq_txPut_accepted s p x bytes _⟩

theorem flitReceive_refuses {x : Nat} (hk : flitCtl bytes % 256 = 0) (hf : flitPackets bytes = [k]) (hr : k.resv = false)
    (h1 : 1 ≤ k.kind) (h8 : k.kind ≤ 8) (h7 : k.kind ≠ 7) (hd : k.dest ≠ s.devid) (hh : k.hops = 4)
    (hs : k.source ≠ s.devid) (hx : routeOf s k.source = some (some x)) (hxp : x ≠ p) : Does (.flitReceive p bytes) s fun t =>
      Takes s t p bytes ∧ (portOf t x).txq = (portOf s x).txq ++ [hopNack s k] := by
  refine ⟨_, exec_flitReceive_one hp hst hok hq hk hf, ?_⟩
  rw [packetIn_elsewhere (s := modPort s p fun q => q.accepted bytes) p hr h1 h8 hd,
    forwardPkt_refused (s := modPort s p fun q => q.accepted bytes) p hh h7 hs (by rw [routeOf_accepted, hx])]
  exact ⟨(takes_accepted s p bytes).txPut hxp _, txq_txPut_accepted s p x bytes _⟩

end

/-- Settles O46: the layout field by field, and each event by what becomes of the flit. -/
theorem flits : Obligations.Flits := by
  unfold Obligations.Flits
  intro s p seq bytes k x q w sq ack sound adv
  have hsound : sound ↔ flitOk bytes = true := (flitOk_iff bytes).symm
  refine ⟨fun h1 h2 h3 h4 h5 h6 h7 h8 h9 h10 => ?_, fun h => ⟨exec_flitReceive_shut h bytes, exec_replayRequest_shut h seq⟩,
    fun hp hst => ⟨fun h => ?_, fun h hk hq => ?_, fun h hk hq => ?_, fun h hk => ?_, fun hr hn => ?_, fun h => ?_⟩⟩
  case refine_1 =>
    have hk : LaidOut k := ⟨h1, h2, h3, h4, h5, h6, h7, h8, h9, h10⟩
    exact ⟨hk.packetAt_packetBytes, hk.length_packetBytes, hk.leNat_header⟩
  case refine_2 => exact exec_flitReceive_unsound hp hst (by rwa [hsound, Bool.not_eq_true] at h)
  case refine_3 =>
    rw [hsound] at h
    intro taken
    have htaken (t : State) (ht : Takes s t p bytes) : taken t :=
      ⟨ht.counts.seq.1, ht.counts.seq.2, ht.counts.advance, ht.counts.still, ht.counts.credits, ht.mem, ht.ctxs⟩
    refine ⟨fun hi => ?_, fun hi hf => ⟨fun hr h1 h8 hd => ?_, fun hr => ?_, fun hr h1 h8 hd hh hx hxp => ?_,
      fun hr h1 h8 h7 hd hh hs hx hxp => ?_⟩⟩
    · obtain ⟨t, e, ht, hrest⟩ := flitReceive_idle hp hst h hq hi
      exact ⟨t, e, htaken t ht, hrest⟩
    · obtain ⟨t, e, ht, ho, ha⟩ := flitReceive_here hp hst h hq hi hf hr h1 h8 hd
      exact ⟨t, e, htaken t ht, ho, by rw [ha, arrival_eq_getD p h1 h8]⟩
    · obtain ⟨t, e, ht, hrest⟩ := flitReceive_reserved hp hst h hq hi hf hr
      exact ⟨t, e, htaken t ht, hrest⟩
    · obtain ⟨t, e, ht, hrest⟩ := flitReceive_forwards hp hst h hq hi hf hr h1 h8 hd hh hx hxp
      exact ⟨t, e, htaken t ht, hrest⟩
    · obtain ⟨t, e, ht, hrest⟩ := flitReceive_refuses hp hst h hq hi hf hr h1 h8 h7 hd hh hs hx hxp
      exact ⟨t, e, htaken t ht, hopNack s k, hrest, rfl, rfl, rfl, rfl⟩
  case refine_4 => exact exec_flitReceive_early hp hst (hsound.1 h) hk hq
  case refine_5 => exact exec_flitReceive_request hp hst (hsound.1 h) hk
  case refine_6 => exact exec_replayRequest_served hp hst hr hn
  case refine_7 =>
    refine ⟨_, exec_replayRequest_retrains hp hst h, ?_⟩
    exact linkTo_modPort_goes (f := Port.asked seq) rfl .retrain

end Sys2Proof.Safety
end

section
/-!
CERTIFICATES. The states of a link and the synchronisation of the GTC (R53 to R57, R61, R62).
-/

namespace Sys2Proof.Machine

theorem exec_linkctlEnable (s : State) (p : Nat) : exec (.linkctlEnable p) s = execLinkctlEnable p s := rfl
theorem exec_linkctlDisable (s : State) (p : Nat) : exec (.linkctlDisable p) s = execLinkctlDisable p s := rfl
theorem exec_linkctlReset (s : State) (p : Nat) : exec (.linkctlReset p) s = execLinkctlReset p s := rfl
theorem exec_trainingComplete (s : State) (p k : Nat) : exec (.trainingComplete p k) s = execTrainingComplete p k s := rfl
theorem exec_gtcSyncExchange (s : State) : exec .gtcSyncExchange s = execGtcSyncExchange s := rfl
theorem exec_gtcSync (s : State) (a b : Nat) : exec (.gtcSync a b) s = execGtcSync a b s := rfl

/-- A port enters no state but FAILED and DOWN by giving up its queues. -/
theorem not_givesUp {old new : PortSt} (hf : new ≠ .failed) (hd : new ≠ .down) : ¬givesUp old new :=
  fun h => h.elim hf fun h => hd h.1

/-- The port that leads to the parent loses it with UP (R62). -/
theorem linkTo_orphans {s : State} {p : Nat} {st : PortSt} (h : ¬givesUp (portOf s p).st st) (hu : (portOf s p).st = .up)
    (he : s.gtcEn = true) (hp : s.gtcParent = p) :
    (linkTo s p st).gtcLost = true ∧ (linkTo s p st).gtcSynced = false ∧ (linkTo s p st).slew = 0 := by
  rw [linkTo_eq_of_keeps h, orphaned, if_pos ⟨hu, he, hp⟩]
  exact ⟨rfl, rfl, rfl⟩

/-- A port as a completed training leaves it (R53). -/
def Port.trained (peer : Nat) (q : Port) : Port :=
  { q with peer := peer % 4096, txSeq := 0, rxSeq := 4095, rxGap := false, ackSeq := 4095, reqRun := 0,
           credits := [64, 64, 64, 64], owed := [0, 0, 0, 0], replay := [], resend := none, ask := false }

/-- A port as a completed retraining leaves it (R53). -/
def Port.retrained (q : Port) : Port :=
  { q with reqRun := 0, rxGap := false, ask := false, resend := (unacked q).head?.map Prod.fst }

/-- The first flit that the peer has not acknowledged goes out again first. -/
theorem retrained_resend (q : Port) : q.retrained.resend =
    (q.replay.find? fun f => decide ((f.1 + 4096 - q.ackSeq - 1) % 4096 < 2048)).map Prod.fst := by
  simp only [Port.retrained, unacked, List.head?_filter]

end Sys2Proof.Machine

namespace Sys2Proof.Safety

open Sys2Proof.Machine

/-! ## Writes of LINKCTL (R53 to R57) -/

section
variable {s : State} {p : Nat}

theorem linkctl_shut (h : hostShut s = true) :
    exec (.linkctlEnable p) s = .next s ∧ exec (.linkctlDisable p) s = .next s ∧ exec (.linkctlReset p) s = .next s :=
  ⟨if_pos (.inr h), if_pos (.inr h), if_pos (.inr (.inl h))⟩

variable (hp : p < 12)
include hp

theorem not_shut (hs : hostShut s = false) : ¬(12 ≤ p ∨ hostShut s = true) := by
  simp [hs, Nat.not_le.2 hp]

theorem linkctlEnable_trains (hs : hostShut s = false) (hd : s.devid ≠ 0xFFF) (hst : (portOf s p).st = .down) :
    Does (.linkctlEnable p) s fun t => LinkGoes s t p .training (portOf s p).peer ∧ (portOf t p).enable = true := by
  rw [Does, exec_linkctlEnable, execLinkctlEnable, if_neg (not_shut hp hs)]
  refine ⟨_, rfl, ?_⟩
  rw [if_pos ⟨hst, hd⟩]
  refine ⟨linkTo_modPort_goes (f := fun q => { q with enable := true }) rfl .training, ?_⟩
  rw [portOf_linkTo_of_keeps (not_givesUp (by simp) (by simp)), portOf_modPort]
  rfl

theorem linkctlEnable_notes (hs : hostShut s = false) (h : s.devid = 0xFFF ∨ (portOf s p).st ≠ .down) :
    exec (.linkctlEnable p) s = .next (modPort s p fun q => { q with enable := true }) := by
  rw [exec_linkctlEnable, execLinkctlEnable, if_neg (not_shut hp hs)]
  exact congrArg Host.Outcome.next (if_neg fun ⟨h1, h2⟩ => h.elim h2 fun h => h h1)

theorem linkctlDisable_idle (hs : hostShut s = false) (h : (portOf s p).st = .down ∨ (portOf s p).st = .failed) :
    exec (.linkctlDisable p) s = .next (modPort s p fun q => { q with enable := false }) := by
  rw [exec_linkctlDisable, execLinkctlDisable, if_neg (not_shut hp hs)]
  rcases h with h | h <;> rw [h]

theorem linkctlDisable_stops (hs : hostShut s = false)
    (h : (portOf s p).st = .training ∨ (portOf s p).st = .up ∨ (portOf s p).st = .retrain) :
    exec (.linkctlDisable p) s = .next (linkTo (modPort s p fun q => { q with enable := false }) p .down) := by
  rw [exec_linkctlDisable, execLinkctlDisable, if_neg (not_shut hp hs)]
  rcases h with h | h | h <;> rw [h]

/-- A port out of which its link goes DOWN is disabled, and drained unless it was still training. -/
theorem linkctlDisable_drains (hs : hostShut s = false)
    (h : (portOf s p).st = .training ∨ (portOf s p).st = .up ∨ (portOf s p).st = .retrain) :
    Does (.linkctlDisable p) s fun t => LinkGoes s t p .down (portOf s p).peer ∧ (portOf t p).enable = false ∧
      ((portOf s p).st ≠ .training → (portOf t p).txq = [] ∧ (portOf t p).replay = []) := by
  refine ⟨_, linkctlDisable_stops hp hs h, linkTo_modPort_goes (f := fun q => { q with enable := false }) rfl .down, ?_⟩
  have hq : portOf (modPort s p fun q => { q with enable := false }) p = { portOf s p with enable := false } := portOf_modPort _ _ _
  by_cases ht : (portOf s p).st = .training
  · rw [portOf_linkTo_of_keeps (by simp [hq, givesUp, ht]), hq]
    exact ⟨rfl, fun h => absurd ht h⟩
  · rw [portOf_linkTo_of_givesUp (.inr ⟨rfl, by rw [hq]; exact h.resolve_left ht⟩), hq]
    exact ⟨rfl, fun _ => ⟨rfl, rfl⟩⟩

theorem linkctlReset_failed (hs : hostShut s = false) (h : (portOf s p).st = .failed) :
    Does (.linkctlReset p) s fun t => LinkGoes s t p .down (portOf s p).peer ∧ (portOf t p).retrains = 0 := by
  rw [Does, exec_linkctlReset, execLinkctlReset, if_neg (by simp [hs, h, Nat.not_le.2 hp])]
  refine ⟨_, rfl, linkTo_modPort_goes (f := fun q => { q with retrains := 0 }) rfl .down, ?_⟩
  rw [portOf_linkTo_of_keeps (by simp [givesUp, h]), portOf_modPort]
  rfl

omit hp in
theorem linkctlReset_other (h : (portOf s p).st ≠ .failed) : exec (.linkctlReset p) s = .next s := if_pos (.inr (.inr h))

/-! ## Training, retraining, failure (R53, R55) -/

theorem laneLockLoss_retrains (h : (portOf s p).st = .up) : Does (.laneLockLoss p) s fun t =>
    LinkGoes s t p .retrain (portOf s p).peer ∧ (portOf t p).retrains = min ((portOf s p).retrains + 1) 255 ∧
    (portOf t p).replay = (portOf s p).replay ∧ (portOf t p).txq = (portOf s p).txq ∧
    (s.gtcEn = true → s.gtcParent = p → t.gtcLost = true ∧ t.gtcSynced = false ∧ t.slew = 0) := by
  have hk : ¬givesUp (portOf s p).st .retrain := not_givesUp (by simp) (by simp)
  refine ⟨_, if_pos ⟨hp, h⟩, linkTo_goes s p .retrain, ?_, ?_, ?_, linkTo_orphans hk h⟩ <;> rw [portOf_linkTo_of_keeps hk] <;> rfl

theorem trainingComplete_up (peer : Nat) (h : (portOf s p).st = .training) : Does (.trainingComplete p peer) s fun t =>
    LinkGoes s t p .up (peer % 4096) ∧ (portOf t p).peer = peer % 4096 ∧ (portOf t p).credits = [64, 64, 64, 64] ∧
    (portOf t p).txSeq = 0 ∧ (portOf t p).replay = [] ∧ (portOf t p).txq = (portOf s p).txq := by
  rw [Does, exec_trainingComplete, execTrainingComplete, if_neg (by simp [h, Nat.not_le.2 hp])]
  refine ⟨_, rfl, linkTo_modPort_goes (f := Port.trained peer) rfl .up, ?_⟩
  rw [portOf_linkTo_of_keeps (not_givesUp (by simp) (by simp)), portOf_modPort]
  exact ⟨rfl, rfl, rfl, rfl, rfl⟩

omit hp in
/-- A port that fails gives up its queues. -/
theorem linkTo_failed (s : State) (p : Nat) : LinkGoes s (linkTo s p .failed) p .failed (portOf s p).peer ∧
    (portOf (linkTo s p .failed) p).txq = [] ∧ (portOf (linkTo s p .failed) p).replay = [] := by
  refine ⟨linkTo_goes s p .failed, ?_⟩
  rw [portOf_linkTo_of_givesUp (.inl rfl)]
  exact ⟨rfl, rfl⟩

theorem trainingTimeout_fails (h : (portOf s p).st = .training) (hg : (portOf s p).since + 100000000 ≤ s.gtc) :
    exec (.trainingTimeout p) s = .next (linkTo s p .failed) := if_pos ⟨hp, h, hg⟩

theorem linkDeadTimeout_fails (h : (portOf s p).st = .retrain) (hg : (portOf s p).since + s.deadTimeout * 100000 ≤ s.gtc) :
    exec (.linkDeadTimeout p) s = .next (linkTo s p .failed) := if_pos ⟨hp, h, hg⟩

theorem retrainComplete_up (h : (portOf s p).st = .retrain) : Does (.retrainComplete p) s fun t =>
    LinkGoes s t p .up (portOf s p).peer ∧ (portOf t p).replay = (portOf s p).replay ∧ (portOf t p).txq = (portOf s p).txq ∧
    (portOf t p).resend =
      ((portOf s p).replay.find? fun f => decide ((f.1 + 4096 - (portOf s p).ackSeq - 1) % 4096 < 2048)).map Prod.fst := by
  refine ⟨_, if_pos ⟨hp, h⟩, linkTo_modPort_goes (f := Port.retrained) rfl .up, ?_⟩
  rw [portOf_linkTo_of_keeps (not_givesUp (by simp) (by simp)), portOf_modPort]
  exact ⟨rfl, rfl, retrained_resend _⟩

end

/-! ## Synchronisation (R61, R62) -/

theorem gtcSyncExchange_sends {s : State} (he : s.gtcEn = true) (hp : s.gtcParent < 12) (hu : (portOf s s.gtcParent).st = .up) :
    exec .gtcSyncExchange s =
      .next (txPut { s with syncSince := some s.ticks } s.gtcParent (syncPacket s (portOf s s.gtcParent).peer)) := by
  simp [exec_gtcSyncExchange, execGtcSyncExchange, he, hu, hp]

/-- Windows that open with a step of the clock are happenings in flight, and nothing else. -/
theorem foldl_later_eq {β : Type} (f : β → Instr) (l : List β) (s : State) :
    ∃ a, l.foldl (fun u b => later u (f b)) s = { s with agenda := a } := by
  induction l generalizing s with
  | nil => exact ⟨s.agenda, rfl⟩
  | cons b l ih =>
    obtain ⟨a, h⟩ := ih (later s (f b))
    exact ⟨a, h⟩

/-- An exchange counts, and may be the one that makes the clock SYNCED (R62). -/
def exchanged (s : State) (e : Nat) : State :=
  { s with gtcExchanges := s.gtcExchanges + 1,
           gtcSynced := s.gtcSynced || (decide (16 ≤ s.gtcExchanges + 1) && decide (s.gtc ≤ e)) }

section
variable {s : State} {stamp trip : Nat} (he : s.gtcEn = true) (hr : s.gtcRun = true) (hp : s.gtcParent < 12)
  (hu : (portOf s s.gtcParent).st = .up)
include he hr hp hu

/-- An estimate far ahead steps the counter. -/
theorem gtcSync_steps (h : s.gtc + 20 < (stamp + trip / 2) % 2 ^ 64) : ∃ a, exec (.gtcSync stamp trip) s =
    .next { exchanged s ((stamp + trip / 2) % 2 ^ 64) with gtc := (stamp + trip / 2) % 2 ^ 64, slew := 0, agenda := a } := by
  rw [exec_gtcSync, execGtcSync, gtcSynced, if_neg (by simp [he, hr, hu, hp])]
  dsimp only
  rw [if_pos h]
  split
  · exact ⟨s.agenda, rfl⟩
  · obtain ⟨a, ha⟩ := foldl_later_eq Instr.windowBoundary (List.range 4)
      { exchanged s ((stamp + trip / 2) % 2 ^ 64) with gtc := (stamp + trip / 2) % 2 ^ 64, slew := 0 }
    exact ⟨a, congrArg Host.Outcome.next ha⟩

/-- Any other sets the rate. -/
theorem gtcSync_slews (h : (stamp + trip / 2) % 2 ^ 64 ≤ s.gtc + 20) : exec (.gtcSync stamp trip) s =
    .next { exchanged s ((stamp + trip / 2) % 2 ^ 64) with slew := ((stamp + trip / 2) % 2 ^ 64 : Nat) - (s.gtc : Int) } := by
  rw [exec_gtcSync, execGtcSync, gtcSynced, if_neg (by simp [he, hr, hu, hp])]
  dsimp only
  rw [if_neg (Nat.not_lt.2 h)]
  rfl

end

/-- Settles O48: each event of a port by the state it enters, an exchange by its estimate. -/
theorem linksAndTime : Obligations.LinksAndTime := by
  unfold Obligations.LinksAndTime
  refine ⟨fun s p peer => ?_, fun s stamp trip => ?_⟩
  · intro q drained hp
    refine ⟨linkctl_shut, linkctlEnable_trains hp, linkctlEnable_notes hp, linkctlDisable_drains hp, linkctlDisable_idle hp,
      linkctlReset_failed hp, linkctlReset_other, laneLockLoss_retrains hp, trainingComplete_up hp peer,
      fun h hg => ⟨_, trainingTimeout_fails hp h hg, linkTo_failed s p⟩, retrainComplete_up hp,
      fun h hg => ⟨_, linkDeadTimeout_fails hp h hg, linkTo_failed s p⟩⟩
  · intro q e he hp hu
    refine ⟨⟨_, gtcSyncExchange_sends he hp hu, fun _ => rfl, rfl, syncPacket s q.peer, ?_, rfl, rfl, rfl,
      rfl⟩, fun hr => ?_⟩
    · rw [portOf_txPut]; rfl
    · have hsync : (exchanged s e).gtcSynced = true ↔ s.gtcSynced = true ∨ (16 ≤ s.gtcExchanges + 1 ∧ s.gtc ≤ e) := by
        simp [exchanged]
      by_cases h : s.gtc + 20 < e
      · obtain ⟨a, ha⟩ := gtcSync_steps he hr hp hu h
        exact ⟨_, ha, fun _ => rfl, rfl, by show s.gtc ≤ e; omega, rfl, fun _ => rfl, fun h' => absurd h' (by omega), hsync⟩
      · exact ⟨_, gtcSync_slews he hr hp hu (Nat.not_lt.1 h), fun _ => rfl, rfl, Nat.le_refl _, rfl, fun h' => absurd h' h,
          fun _ => ⟨rfl, rfl⟩, hsync⟩

end Sys2Proof.Safety
end

section
/-!
SUPPORT. What the CE's operations leave of the view slots and of each other: packets it sends, OUTPUT that an abort scraps,
the end of a slot's operations, data that nothing awaits, and the slot that a packet counts at (R76, R81, R82, R85, R91, R95).
-/

namespace Sys2Proof.Machine

/-! ## Packets of the CE -/

/-- The state without its ports. -/
def unported (s : State) : State := { s with ports := [] }

theorem ceSend_unported (s : State) (dev kind cls vid : Nat) (b : CeBody) :
    unported (ceSend s dev kind cls vid b) = unported s := by
  unfold ceSend
  extract_lets p
  split <;> rfl

theorem ceCtl_unported (s : State) (n dev : Nat) (b : CeBody) : unported (ceCtl s n dev b) = unported s :=
  ceSend_unported _ _ _ _ _ _

/-- The same packet to several devices, in order. -/
def tellAll (s : State) (n : Nat) (ds : List Nat) (b : CeBody) : State := ds.foldl (fun a d => ceCtl a n d b) s

theorem tellAll_unported (s : State) (n : Nat) (ds : List Nat) (b : CeBody) : unported (tellAll s n ds b) = unported s :=
  foldl_keeps unported _ (fun a d => ceCtl_unported a n d b) ds s

theorem ceTo_unported (s : State) (o : CeOp) (dev : Nat) (d : CeData) : unported (ceTo s o dev d) = unported s :=
  foldl_keeps unported _ (fun _ _ => ceSend_unported _ _ _ _ _ _) _ _

section
variable {s t : State} (h : unported t = unported s)
include h

theorem views_of_unported : t.views = s.views := (congrArg State.views h :)
theorem viewOf_of_unported (n : Nat) : viewOf t n = viewOf s n := by rw [viewOf, views_of_unported h]; rfl
theorem ceOps_of_unported : t.ceOps = s.ceOps := (congrArg State.ceOps h :)
theorem cePast_of_unported : t.cePast = s.cePast := (congrArg State.cePast h :)
theorem ceEarly_of_unported : t.ceEarly = s.ceEarly := (congrArg State.ceEarly h :)
theorem devid_of_unported : t.devid = s.devid := (congrArg State.devid h :)
theorem gtc_of_unported : t.gtc = s.gtc := (congrArg State.gtc h :)
theorem mem_of_unported : t.mem = s.mem := (congrArg State.mem h :)
theorem ceFlying_of_unported (n : Nat) : ceFlying t n = ceFlying s n := by rw [ceFlying, ceOps_of_unported h]; rfl

end

/-! ## View records (R124) -/

theorem viewEvent_part (s : State) (n ev rank : Nat) : unrecorded (viewEvent s n ev rank) = unrecorded s :=
  (eventBytes_keeps s _).rest

theorem viewEvent_views (s : State) (n ev rank : Nat) : (viewEvent s n ev rank).views = s.views :=
  (congrArg State.views (viewEvent_part s n ev rank) :)

theorem viewOf_viewEvent (s : State) (n ev rank k : Nat) : viewOf (viewEvent s n ev rank) k = viewOf s k := by
  rw [viewOf, viewEvent_views]; rfl

/-! ## Memory written by a collective -/

/-- The state without what reads and writes of memory, with their walks, change. -/
def offMemory (s : State) : State := { unwritten s with clusters := [], dies := [], fresh := 0 }

theorem offMemory_of_atHome {s t : State} (h : AtHome s t) : offMemory t = offMemory s :=
  congrArg (fun x : State => { x with lineKey := [], clusters := [], dies := [], fresh := 0 }) h.rest

theorem offMemory_of_unwritten {s t : State} (h : unwritten t = unwritten s) : offMemory t = offMemory s :=
  congrArg (fun x : State => { x with clusters := [], dies := [], fresh := 0 }) h

theorem gtc_of_offMemory {s t : State} (h : offMemory t = offMemory s) : t.gtc = s.gtc := (congrArg State.gtc h :)
theorem views_of_offMemory {s t : State} (h : offMemory t = offMemory s) : t.views = s.views := (congrArg State.views h :)
theorem ceOps_of_offMemory {s t : State} (h : offMemory t = offMemory s) : t.ceOps = s.ceOps := (congrArg State.ceOps h :)

theorem homeFor_offMemory (s : State) (line cls key prio : Nat) : offMemory (homeFor s line cls key prio).2 = offMemory s :=
  offMemory_of_atHome (homeFor_atHome s line cls key prio)

theorem setHome_offMemory (s : State) (line : Nat) (h : Home) : offMemory (setHome s line h) = offMemory s :=
  offMemory_of_atHome (setHome_atHome s line h)

theorem walkFill_offMemory (s : State) (asid va : Nat) : offMemory (walkFill s asid va) = offMemory s :=
  foldl_keeps offMemory _ (fun t line => by
    exact (setHome_offMemory _ _ _).trans (homeFor_offMemory (draw t).2 _ _ _ _)) _ _

theorem teTlbFill_offMemory (s : State) (cl asid va : Nat) (x : Xl) : offMemory (teTlbFill s cl asid va x) = offMemory s := by
  have h : offMemory (if (tlbHit (dieOf s (clDie cl)).llTlb asid va).isSome then s else walkFill s asid va) = offMemory s := by
    split
    · rfl
    · exact walkFill_offMemory s asid va
  unfold teTlbFill
  generalize (if (tlbHit (dieOf s (clDie cl)).llTlb asid va).isSome then s else walkFill s asid va) = t at h ⊢
  extract_lets e
  split
  · rfl
  · exact h

theorem teWalkMiss_offMemory (s : State) (cl : Nat) (m : TeCmd) (va n : Nat) :
    offMemory (teWalkMiss s cl m va n) = offMemory s :=
  foldl_keeps offMemory _ (fun t p => by
    extract_lets v
    split
    · rfl
    · exact walkFill_offMemory _ _ _) _ _

theorem tePieces_offMemory (s : State) (cl : Nat) (m : TeCmd) (va n : Nat) (acc : Acc) :
    offMemory (tePieces s cl m va n acc).1 = offMemory s := by
  unfold tePieces
  extract_lets tlb
  split
  · rfl
  · split
    · exact teWalkMiss_offMemory _ _ _ _ _
    · exact foldl_keeps offMemory _ (fun t p => by
        split
        · exact teTlbFill_offMemory _ _ _ _ _
        · rfl) _ _

theorem teHomeWrite_offMemory (s : State) (m : TeCmd) (p : Part) (bs : List Byte) :
    offMemory (teHomeWrite s m p bs).2 = offMemory s := by
  have hf : offMemory (homeFor (dropLatent s p.line bs) p.line p.cls p.key m.prio).2 = offMemory s :=
    (homeFor_offMemory _ _ _ _ _).trans (offMemory_of_atHome (dropLatent_finds s p.line bs).atHome)
  unfold teHomeWrite
  generalize homeFor (dropLatent s p.line bs) p.line p.cls p.key m.prio = x at hf ⊢
  obtain ⟨h, t⟩ := x
  dsimp only at hf ⊢
  have hw (g : Home) : offMemory (setHome (writeUnder t p.key p.pa bs) p.line g) = offMemory s :=
    ((setHome_offMemory _ _ _).trans (offMemory_of_unwritten (writeUnder_part t p.key p.pa bs))).trans hf
  split
  · exact (offMemory_of_atHome (l2Evict_atHome _ _)).trans (hw _)
  · exact hw _

theorem raiseCts_offMemory (s : State) (p : Part) (clock : Nat) : offMemory (raiseCts s p clock) = offMemory s := by
  unfold raiseCts
  split <;> rfl

theorem teWritePart_offMemory (bs : List Byte) (u : State × TeCmd) (p : Part) :
    offMemory (teWritePart bs u p).1 = offMemory u.1 := by
  unfold teWritePart
  extract_lets b
  split
  · exact raiseCts_offMemory (combStore u.1 p.combCl p.combOff b) p _
  · exact teHomeWrite_offMemory u.1 u.2 p b

theorem scrapPart_offMemory (va : Nat) (bs : List Byte) (u : State × TeCmd) (p : Part) :
    offMemory (scrapPart va bs u p).1 = offMemory u.1 := by
  unfold scrapPart
  split
  · rfl
  · exact teWritePart_offMemory bs u p

/-- Undefined contents of OUTPUT change memory alone (R91). -/
theorem scrap_offMemory (s : State) (o : CeOp) : offMemory (scrap s o).1 = offMemory s := by
  unfold scrap
  extract_lets n put
  have hput (u : State × TeCmd) (p : Nat × Nat) : offMemory (put u p).1 = offMemory u.1 := by
    have ht := tePieces_offMemory u.1 o.own u.2 (o.output + p.1) p.2 .write
    simp only [put]
    split <;> rename_i t x he
    · rw [he] at ht
      exact (foldl_keeps (fun v : State × TeCmd => offMemory v.1) _ (fun v q => scrapPart_offMemory _ _ v q) _ _).trans ht
    · rfl
  exact foldl_keeps (fun v : State × TeCmd => offMemory v.1) put hput _ _

/-! ## Operations that end ABORTED (R81, R82, R91) -/

/-- What an abort leaves: view slots, what the CE remembers, the time. Operations that may go are those of one number. -/
structure Ends (s t : State) (id : Nat) : Prop where
  views : t.views = s.views
  ceOps : t.ceOps = s.ceOps.filter (·.id != id)
  gtc : t.gtc = s.gtc

theorem ceDone_ends (s : State) (o : CeOp) (status reason count ts : Nat) :
    Ends s (ceDone s o status reason count ts) o.id := ⟨rfl, rfl, rfl⟩

theorem ceAbort_of_past {s : State} {o : CeOp} (h : o.past = true) (reason : Nat) :
    ceAbort s o reason = { s with ceOps := s.ceOps.filter (·.id != o.id) } := if_pos h

theorem ceAbort_of_live {s : State} {o : CeOp} (h : o.past = false) (reason : Nat) : ceAbort s o reason =
    ceDone (scrap (draw s).2 o).1 o 3 reason (Config.freeWord s.fresh).toNat (scrap (draw s).2 o).2.wmax :=
  if_neg (by simp [h])

theorem ceAbort_ends (s : State) (o : CeOp) (reason : Nat) : Ends s (ceAbort s o reason) o.id := by
  cases h : o.past with
  | true => rw [ceAbort_of_past h]; exact ⟨rfl, rfl, rfl⟩
  | false =>
    have hs : offMemory (scrap (draw s).2 o).1 = offMemory s := scrap_offMemory (draw s).2 o
    obtain ⟨h1, h2, h3⟩ := ceDone_ends (scrap (draw s).2 o).1 o 3 reason (Config.freeWord s.fresh).toNat
      (scrap (draw s).2 o).2.wmax
    rw [ceAbort_of_live h]
    exact ⟨h1.trans (views_of_offMemory hs), h2.trans (by rw [ceOps_of_offMemory hs]), h3.trans (gtc_of_offMemory hs)⟩

/-- Aborts one after the other end just the operations they name. -/
theorem foldl_ceAbort (l : List CeOp) (reason : Nat) (s : State) :
    let t := l.foldl (fun u o => ceAbort u o reason) s
    t.views = s.views ∧ t.gtc = s.gtc ∧ ∀ o, o ∈ t.ceOps ↔ o ∈ s.ceOps ∧ ∀ p ∈ l, o.id ≠ p.id := by
  induction l generalizing s with
  | nil => simp
  | cons p l ih =>
    obtain ⟨h1, h2, h3⟩ := ih (ceAbort s p reason)
    obtain ⟨e1, e2, e3⟩ := ceAbort_ends s p reason
    refine ⟨h1.trans e1, h2.trans e3, fun o => ?_⟩
    rw [List.foldl_cons, h3 o, e2]
    simp [and_assoc]

/-- The operations of a slot end, and no view slot changes. -/
theorem ceAbortAll_ends (s : State) (n reason : Nat) :
    (ceAbortAll s n reason).views = s.views ∧ ∀ o ∈ (ceAbortAll s n reason).ceOps, o.slot ≠ n := by
  unfold ceAbortAll
  extract_lets t
  obtain ⟨h1, -, h3⟩ := foldl_ceAbort (t.ceOps.filter (·.slot == n)) reason t
  refine ⟨h1, fun o ho hn => ?_⟩
  obtain ⟨hm, hid⟩ := (h3 o).1 ho
  exact hid o (List.mem_filter.2 ⟨hm, by simp [hn]⟩) rfl

theorem viewOf_ceAbortAll (s : State) (n reason k : Nat) : viewOf (ceAbortAll s n reason) k = viewOf s k := by
  rw [viewOf, (ceAbortAll_ends s n reason).1]; rfl

/-! ## Data that nothing awaits (R76, R85) -/

/-- Data for no operation of the slot, of a start that it does not remember, is kept. -/
theorem ceDeliver_keeps {s : State} {n src : Nat} {d : CeData}
    (ho : s.ceOps.find? (fun o => o.slot == n && o.tag == d.tag && !o.held) = none) (hd : (n, d.tag, src) ∉ s.ceDead)
    (hp : d.vid0 = (viewOf s n).vid ∨ ∀ p ∈ s.cePast, p.slot ≠ n) :
    ceDeliver s n src d = { s with ceEarly := s.ceEarly ++ [(n, src, (viewOf s n).vid, d)] } := by
  have hn : (if d.vid0 = (viewOf s n).vid then none
      else s.cePast.find? fun o => o.slot == n && o.tag == d.tag && o.vid0 == d.vid0) = none := by
    split
    · rfl
    · refine List.find?_eq_none.2 fun p hm => ?_
      simp [hp.resolve_left ‹_› p hm]
  simp only [ceDeliver, ho, hn, List.contains_eq_mem, hd, decide_false, Bool.false_eq_true, if_false]

/-- Data of one slot without operations, all of it kept. -/
theorem ceDelivers_keep {n : Nat} (l : List (Nat × Nat × Nat × CeData)) (hl : ∀ e ∈ l, e.1 = n) (s : State)
    (ho : ∀ o ∈ s.ceOps, o.slot ≠ n) (hp : ∀ o ∈ s.cePast, o.slot ≠ n) (hd : ∀ e ∈ s.ceDead, e.1 ≠ n) :
    ∃ a, l.foldl (fun u e => ceDeliver u e.1 e.2.1 e.2.2.2) s = { s with ceEarly := a } := by
  induction l generalizing s with
  | nil => exact ⟨s.ceEarly, rfl⟩
  | cons e l ih =>
    have he : e.1 = n := hl e List.mem_cons_self
    have h1 : ceDeliver s e.1 e.2.1 e.2.2.2 =
        { s with ceEarly := s.ceEarly ++ [(e.1, e.2.1, (viewOf s e.1).vid, e.2.2.2)] } :=
      ceDeliver_keeps (List.find?_eq_none.2 fun o hm => by simp [he, ho o hm]) (fun hm => hd _ hm he)
        (.inr fun p hm => he ▸ hp p hm)
    obtain ⟨a, ha⟩ := ih (fun x hx => hl x (List.mem_cons_of_mem _ hx))
      { s with ceEarly := s.ceEarly ++ [(e.1, e.2.1, (viewOf s e.1).vid, e.2.2.2)] } ho hp hd
    exact ⟨a, by rw [List.foldl_cons, h1, ha]⟩

/-- The install of a view at a slot without operations sorts the early data, and changes nothing else (R89). -/
theorem ceInstall_quiet {s : State} {n : Nat} (ho : ∀ o ∈ s.ceOps, o.slot ≠ n) (hp : ∀ o ∈ s.cePast, o.slot ≠ n) :
    ∃ early dead, ceInstall s n = { s with ceEarly := early, ceDead := dead } := by
  have hf (p : CeOp → Bool) : s.ceOps.filter (fun o => o.slot == n && p o) = [] :=
    List.filter_eq_nil_iff.2 fun o hm => by simp [ho o hm]
  simp only [ceInstall, ceRelease, hf, List.map_nil, List.foldl_nil, ceCatchUp]
  obtain ⟨a, ha⟩ := ceDelivers_keep (n := n)
    ((s.ceEarly.filter fun e => e.1 != n || decide ((viewOf s n).vid % 65536 ≤ e.2.2.1 % 65536)).filter
      fun e => e.1 == n && e.2.2.1 == (viewOf s n).vid)
    (fun e he => by have := (List.mem_filter.1 he).2; simp only [Bool.and_eq_true, beq_iff_eq] at this; exact this.1)
    { s with
      ceEarly := (s.ceEarly.filter fun e => e.1 != n || decide ((viewOf s n).vid % 65536 ≤ e.2.2.1 % 65536)).filter
        fun e => !(e.1 == n && e.2.2.1 == (viewOf s n).vid),
      ceDead := s.ceDead.filter fun e => e.1 != n } ho hp (fun e he => by simpa using (List.mem_filter.1 he).2)
  exact ⟨a, s.ceDead.filter fun e => e.1 != n, ha⟩

/-! ## The slot at which a packet counts (R76, R95) -/

/-- The slot of a family holds it. -/
theorem ceSlotOf_some {s : State} {vid n : Nat} (h : ceSlotOf s vid = some n) :
    n < 16 ∧ ((viewOf s n).st ≠ .free ∨ (viewOf s n).joining = true) ∧ (viewOf s n).vid / 65536 = vid / 65536 := by
  have hm := List.mem_of_find?_eq_some h
  have hp := List.find?_some h
  simp only [Bool.and_eq_true, Bool.or_eq_true, bne_iff_ne, beq_iff_eq] at hp
  exact ⟨List.mem_range.1 hm, hp.1, hp.2⟩

/-- A packet of a device that the slot does not know, or knows at another incarnation. -/
theorem staleInc_iff (v : ViewSlot) (h : CeHdr) :
    staleInc v h = true ↔ incOf v h.src ≠ some h.inc ∧ (incOf v h.src = none → v.joining = false) := by
  unfold staleInc
  cases incOf v h.src with
  | none => simp
  | some k => simp

/-- The member bound to a coordinator hears from it. -/
def ViewSlot.heard (v : ViewSlot) (src gtc : Nat) : ViewSlot :=
  match v.agree with
  | .bound c _ => if c = src then { v with agree := .bound c gtc } else v
  | _ => v

section
variable {s : State} {h : CeHdr} {n : Nat} (hn : ceSlotOf s h.vid = some n)
include hn

theorem ceGateAs_stale (b : Bool) (hs : staleInc (viewOf s n) h = true) : ceGateAs s h b = (ceDiscard s n, none) := by
  simp only [ceGateAs, hn, hs, if_true]

theorem ceGateAs_joining (hs : staleInc (viewOf s n) h = false) (hj : (viewOf s n).joining = true) (b : Bool) :
    ceGateAs s h b = if b then (s, some n) else (ceDiscard s n, none) := by
  simp only [ceGateAs, hn, hs, hj, if_true, Bool.false_eq_true, if_false]

variable (hs : staleInc (viewOf s n) h = false) (hj : (viewOf s n).joining = false)
include hs hj

theorem ceGateAs_present (b : Bool) (hv : h.vid = (viewOf s n).vid) :
    ceGateAs s h b = (modView s n fun v => v.heard h.src s.gtc, some n) := by
  simp only [ceGateAs, hn, hs, hj, if_pos hv, Bool.false_eq_true, if_false]
  rfl

/-- A later epoch of a member is fetched. -/
theorem ceGateAs_later (b : Bool) (hv : (viewOf s n).vid % 65536 < h.vid % 65536) (hm : inView (viewOf s n).view h.src = true) :
    ceGateAs s h b =
      (modView (ceSend s h.src 0x10 0 h.vid .fetch) n fun v => { v with fetching := nins v.fetching h.src }, none) := by
  have hne : h.vid ≠ (viewOf s n).vid := fun e => by omega
  simp only [ceGateAs, hn, hs, hj, hne, hv, hm, Bool.false_eq_true, if_false, and_self, if_true]

theorem ceGateAs_other (b : Bool) (hv : h.vid ≠ (viewOf s n).vid)
    (hm : ¬((viewOf s n).vid % 65536 < h.vid % 65536 ∧ inView (viewOf s n).view h.src = true)) :
    ceGateAs s h b = (ceDiscard s n, none) := by
  simp only [ceGateAs, hn, hs, hj, hv, hm, Bool.false_eq_true, if_false]

end

/-- A packet of no held family counts at a slot of the device's choice (log 51). -/
theorem ceGateAs_none {s : State} {h : CeHdr} (hn : ceSlotOf s h.vid = none) (b : Bool) :
    ceGateAs s h b = (ceDiscard { s with fresh := s.fresh + 1 } ((Config.freeWord s.fresh).toNat % 16), none) := by
  simp only [ceGateAs, hn]
  rfl

/-- At a slot that does not join, what a joiner may take makes no difference. -/
theorem ceGateAs_eq_ceGate {s : State} {h : CeHdr}
    (hj : ∀ n, ceSlotOf s h.vid = some n → (viewOf s n).joining = false) (b : Bool) :
    ceGateAs s h b = ceGate s h := by
  unfold ceGate
  cases hn : ceSlotOf s h.vid with
  | none => rw [ceGateAs_none hn, ceGateAs_none hn]
  | some n =>
    cases hs : staleInc (viewOf s n) h with
    | true => rw [ceGateAs_stale hn b hs, ceGateAs_stale hn false hs]
    | false => simp only [ceGateAs, hn, hs, hj n hn, Bool.false_eq_true, if_false]

/-- A packet that counts at a slot is for the view it holds, of a member, at its incarnation. -/
theorem ceGate_some {s t : State} {h : CeHdr} {n : Nat} (hg : ceGate s h = (t, some n)) :
    ceSlotOf s h.vid = some n ∧ staleInc (viewOf s n) h = false ∧ (viewOf s n).joining = false ∧
    h.vid = (viewOf s n).vid ∧ t = modView s n fun v => v.heard h.src s.gtc := by
  unfold ceGate at hg
  cases hn : ceSlotOf s h.vid with
  | none => rw [ceGateAs_none hn] at hg; simp at hg
  | some m =>
    cases hs : staleInc (viewOf s m) h with
    | true => rw [ceGateAs_stale hn _ hs] at hg; simp at hg
    | false =>
      cases hj : (viewOf s m).joining with
      | true => rw [ceGateAs_joining hn hs hj] at hg; simp at hg
      | false =>
        by_cases hv : h.vid = (viewOf s m).vid
        · rw [ceGateAs_present hn hs hj _ hv] at hg
          obtain ⟨rfl, hm⟩ := Prod.mk.inj hg
          obtain rfl := Option.some.inj hm
          exact ⟨rfl, hs, hj, hv, rfl⟩
        · by_cases hm : (viewOf s m).vid % 65536 < h.vid % 65536 ∧ inView (viewOf s m).view h.src = true
          · rw [ceGateAs_later hn hs hj _ hm.1 hm.2] at hg; simp at hg
          · rw [ceGateAs_other hn hs hj _ hv hm] at hg; simp at hg

/-- It counts there whatever a joiner may take. -/
theorem ceGateAs_of_ceGate {s t : State} {h : CeHdr} {n : Nat} (hg : ceGate s h = (t, some n)) (b : Bool) :
    ceGateAs s h b = (t, some n) := by
  obtain ⟨hn, -, hj, -⟩ := ceGate_some hg
  rw [ceGateAs_eq_ceGate (fun m hm => by rw [hn] at hm; exact Option.some.inj hm ▸ hj), hg]

end Sys2Proof.Machine
end

section
/-!
CERTIFICATES. O51: the headers of CE packets, and the data of collectives (R75, R76, R85, R87, R95).
-/

namespace Sys2Proof.Safety

open Sys2Proof.Machine

/-! ## Packets that count at no slot -/

/-- The packets of the CE that a view's members alone send, the data of collectives apart. -/
def ofMembers (h : CeHdr) (w : Word) (r g x inc : Nat) (rs : List Nat) (ms : List Member) : List Instr :=
  [.hello h w, .heartbeat h r g, .suspect h { ranks := rs, gtc := g }, .propose h r g ms, .ceAck h r inc, .busy h x, .abandon h,
    .exclude h g, .stall h r, .fetch h, .joinWait h r]

/-- A slot that does not join knows the packets of its members' incarnations. -/
theorem staleInc_eq_true {v : ViewSlot} (hj : v.joining = false) (h : CeHdr) :
    staleInc v h = true ↔ incOf v h.src ≠ some h.inc := by
  rw [staleInc_iff]
  exact and_iff_left fun _ => hj

theorem staleInc_eq_false {v : ViewSlot} (hj : v.joining = false) (h : CeHdr) :
    staleInc v h = false ↔ incOf v h.src = some h.inc := by
  rw [← Bool.not_eq_true, staleInc_eq_true hj, not_not]

section
variable {s t : State} {h : CeHdr}

/-- Each of them has the effect of its header alone. -/
theorem ofMembers_gated (hg : ceGate s h = (t, none)) (hj : ceGateAs s h true = (t, none)) (w : Word) (r g x inc : Nat)
    (rs : List Nat) (ms : List Member) : ∀ i ∈ ofMembers h w r g x inc rs ms, exec i s = .next t := by
  simp only [ofMembers, List.forall_mem_cons, List.not_mem_nil, false_imp_iff, implies_true, and_true]
  refine ⟨?_, ?_, ?_, ?_, ?_, ?_, ?_, ?_, ?_, ?_, ?_⟩
  · show execHello h w s = _; rw [execHello, hg]
  · show execHeartbeat h r g s = _; rw [execHeartbeat, hg]
  · show execSuspect h _ s = _; rw [execSuspect, hg]
  · show execPropose h r g ms s = _; rw [execPropose, hj]
  · show execCeAck h r inc s = _; rw [execCeAck, hg]
  · show execBusy h x s = _; rw [execBusy, hg]
  · show execAbandon h s = _; rw [execAbandon, hj]
  · show execExclude h g s = _; rw [execExclude, hg]
  · show execStall h r s = _; rw [execStall, hg]
  · show execFetch h s = _; rw [execFetch, hg]
  · show execJoinWait h r s = _; rw [execJoinWait, hg]

theorem ceData_gated (hg : ceGate s h = (t, none)) (ha : ceAhead s h = none) (d : CeData) :
    exec (.ceData h d) s = .next t := by
  show execCeData h d s = _
  rw [execCeData, ha, hg]

theorem ceData_ahead {n : Nat} (ha : ceAhead s h = some n) (hj : (viewOf s n).joining = false) (hg : ceGate s h = (t, none))
    (d : CeData) : exec (.ceData h d) s = .next { t with ceEarly := t.ceEarly ++ [(n, h.src, h.vid, d)] } := by
  show execCeData h d s = _
  simp only [execCeData, ha, hj, hg, Bool.false_eq_true, if_false]

theorem ceData_joining {n : Nat} (ha : ceAhead s h = some n) (hj : (viewOf s n).joining = true) (d : CeData) :
    exec (.ceData h d) s = .next { s with ceEarly := s.ceEarly ++ [(n, h.src, h.vid, d)] } := by
  show execCeData h d s = _
  simp only [execCeData, ha, hj, if_true]

/-- What has no effect but one on the state, data included. -/
theorem all_gated (hg : ∀ b, ceGateAs s h b = (t, none)) (ha : ceAhead s h = none) (d : CeData) (w : Word) (r g x inc : Nat)
    (rs : List Nat) (ms : List Member) : ∀ i ∈ Instr.ceData h d :: ofMembers h w r g x inc rs ms, exec i s = .next t :=
  List.forall_mem_cons.2 ⟨ceData_gated (hg false) ha d, ofMembers_gated (hg false) (hg true) w r g x inc rs ms⟩

/-- A packet of no held family counts at one slot. -/
theorem unheld_counted (hn : ceSlotOf s h.vid = none) (d : CeData) (w : Word) (r g x inc : Nat) (rs : List Nat)
    (ms : List Member) : ∃ k < 16, ∀ i ∈ Instr.ceData h d :: ofMembers h w r g x inc rs ms, exec i s =
      .next (modView { s with fresh := s.fresh + 1 } k fun v => { v with vdiscard := min (v.vdiscard + 1) (2 ^ 32 - 1) }) :=
  ⟨(Config.freeWord s.fresh).toNat % 16, Nat.mod_lt _ (by decide),
    all_gated (ceGateAs_none hn) (by simp [ceAhead, hn]) d w r g x inc rs ms⟩

section
variable {n : Nat} (hn : ceSlotOf s h.vid = some n)
include hn

/-- Data that a slot keeps for a view to come. -/
theorem ceAhead_eq_some (hs : staleInc (viewOf s n) h = false) (hv : (viewOf s n).joining = true ∨
    (viewOf s n).vid % 65536 < h.vid % 65536 ∧ inView (viewOf s n).view h.src = true) : ceAhead s h = some n := by
  rcases hv with hv | ⟨hv, hm⟩
  · simp [ceAhead, hn, hs, hv]
  · simp [ceAhead, hn, hs, hv, hm]

theorem ceAhead_eq_none (hv : staleInc (viewOf s n) h = true ∨ (viewOf s n).joining = false ∧
    ¬((viewOf s n).vid % 65536 < h.vid % 65536 ∧ inView (viewOf s n).view h.src = true)) : ceAhead s h = none := by
  rcases hv with hs | ⟨hj, hv⟩
  · simp [ceAhead, hn, hs]
  · simp [ceAhead, hn, hj, -not_and, hv]

variable (hj : (viewOf s n).joining = false)
include hj

/-- An unknown incarnation, an earlier view, or the view of another: counted at the slot. -/
theorem foreign_counted (hf : incOf (viewOf s n) h.src ≠ some h.inc ∨ h.vid < (viewOf s n).vid ∨
      (h.vid ≠ (viewOf s n).vid ∧ inView (viewOf s n).view h.src = false)) (d : CeData) (w : Word) (r g x inc : Nat)
    (rs : List Nat) (ms : List Member) : ∀ i ∈ Instr.ceData h d :: ofMembers h w r g x inc rs ms, exec i s =
      .next (modView s n fun v => { v with vdiscard := min (v.vdiscard + 1) (2 ^ 32 - 1) }) := by
  cases hs : staleInc (viewOf s n) h with
  | true => exact all_gated (fun b => ceGateAs_stale hn b hs) (ceAhead_eq_none hn (.inl hs)) d w r g x inc rs ms
  | false =>
    have hk := (staleInc_eq_false hj h).1 hs
    obtain ⟨-, -, hfam⟩ := ceSlotOf_some hn
    have hne : h.vid ≠ (viewOf s n).vid := by
      rcases hf with hf | hf | hf
      · exact absurd hk hf
      · exact Nat.ne_of_lt hf
      · exact hf.1
    have hnot : ¬((viewOf s n).vid % 65536 < h.vid % 65536 ∧ inView (viewOf s n).view h.src = true) := by
      rintro ⟨hlt, hm⟩
      rcases hf with hf | hf | hf
      · exact hf hk
      · omega
      · simp [hf.2] at hm
    exact all_gated (fun b => ceGateAs_other hn hs hj b hne hnot) (ceAhead_eq_none hn (.inr ⟨hj, hnot⟩)) d w r g x inc rs ms

/-- A later epoch of a member is fetched, and its data kept. -/
theorem later_fetched (hk : incOf (viewOf s n) h.src = some h.inc) (hv : (viewOf s n).vid % 2 ^ 16 < h.vid % 2 ^ 16)
    (hm : inView (viewOf s n).view h.src = true) (d : CeData) (w : Word) (r g x inc : Nat) (rs : List Nat) (ms : List Member) :
    let asked := modView (ceSend s h.src 0x10 0 h.vid .fetch) n fun v => { v with fetching := nins v.fetching h.src }
    (∀ i ∈ ofMembers h w r g x inc rs ms, exec i s = .next asked) ∧
    exec (.ceData h d) s = .next { asked with ceEarly := s.ceEarly ++ [(n, h.src, h.vid, d)] } := by
  intro asked
  have hs := (staleInc_eq_false hj h).2 hk
  have hg (b : Bool) : ceGateAs s h b = (asked, none) := ceGateAs_later hn hs hj b hv hm
  have he : asked.ceEarly = s.ceEarly := (ceEarly_of_unported (ceSend_unported s h.src 0x10 0 h.vid .fetch) :)
  refine ⟨ofMembers_gated (hg false) (hg true) w r g x inc rs ms, ?_⟩
  rw [ceData_ahead (ceAhead_eq_some hn hs (.inr ⟨hv, hm⟩)) hj (hg false) d, he]

end

end

/-! ## The data of collectives -/

section
variable {s t : State} {h : CeHdr} {n : Nat}

theorem ceData_delivers (hg : ceGate s h = (t, some n)) (d : CeData) : exec (.ceData h d) s = .next (ceDeliver t n h.src d) := by
  obtain ⟨hn, -, hj, hv, -⟩ := ceGate_some hg
  show execCeData h d s = _
  rw [execCeData, ceAhead_eq_none hn (.inr ⟨hj, fun hlt => by rw [hv] at hlt; exact Nat.lt_irrefl _ hlt.1⟩), hg]

theorem ceDeliver_takes {o : CeOp} {src : Nat} {d : CeData}
    (ho : t.ceOps.find? (fun o => o.slot == n && o.tag == d.tag && !o.held) = some o) :
    ceDeliver t n src d = ceTake t o src d := by
  simp only [ceDeliver, ho]

/-- What comes late for an operation that a mismatch has ended. -/
theorem ceDeliver_late {src : Nat} {d : CeData}
    (ho : t.ceOps.find? (fun o => o.slot == n && o.tag == d.tag && !o.held) = none) (hd : (n, d.tag, src) ∈ t.ceDead) :
    ceDeliver t n src d = if d.kind = .mismatch then { t with ceDead := t.ceDead.erase (n, d.tag, src) } else t := by
  simp only [ceDeliver, ho, List.contains_eq_mem, hd, decide_true, if_true]

/-- Data of the start of an operation adds to it. -/
theorem ceTake_same {o : CeOp} {src : Nat} {d : CeData} (h1 : d.op = o.op) (h2 : d.redop = o.redop) (h3 : d.ety = o.ety)
    (h4 : d.count = o.count) (h5 : d.vid0 = o.vid0) (hk : d.kind = .part) : ceTake t o src d = ceAdd1 t o src d := by
  simp [ceTake, h1, h2, h3, h4, h5, hk]

/-- A whole contribution is kept, and the operation goes as far as it can. -/
theorem ceAdd1_whole {o : CeOp} {src : Nat} {d : CeData} (hk : d.kind = .part) (hr : o.reweight = false)
    (hw : d.whole ≤ d.elems.length) :
    ceAdd1 t o src d = ceRun (cePut t { o with parts := o.parts ++ [d] }) o.id := by
  simp [ceAdd1, CeOp.gather, hw, hk, hr]

/-- The first of several pieces waits for the others. -/
theorem ceAdd1_piece {o : CeOp} {src : Nat} {d : CeData} (hp : o.pieces = []) (hw : d.elems.length < d.whole) :
    ceAdd1 t o src d = cePut t { o with pieces := [(rankIn o.start src, d)] } := by
  simp [ceAdd1, CeOp.gather, hp, Nat.not_le.2 hw]

/-- The COLLDONE of an operation that ends ABORTED (R92). -/
theorem ceDone_sends (o : CeOp) (reason count ts : Nat) : AbortSent (ceDone t o 3 reason count ts) o reason t.gtc := by
  refine ⟨count, mkMsg t (unitSrc 6 0) o.cls 5 (some ts) (wd o.desc)
    (wd (3 + reason * 2 ^ 8 + count % 2 ^ 11 * 2 ^ 16 + (viewOf t o.slot).vid * 2 ^ 32))
    (wd (o.tag % 2 ^ 32 + t.gtc % 2 ^ 32 * 2 ^ 32)), ?_, rfl, rfl, rfl, ?_⟩
  · show _ ∈ t.agenda ++ [_]
    exact List.mem_append_right _ (List.mem_singleton_self _)
  · simp [(ceDone_ends t o 3 reason count ts).ceOps]

/-- An operation that ends ABORTED says so. -/
theorem ceAbort_sends {o : CeOp} (hp : o.past = false) (reason : Nat) : AbortSent (ceAbort t o reason) o reason t.gtc := by
  have hs : offMemory (scrap (draw t).2 o).1 = offMemory t := scrap_offMemory (draw t).2 o
  have hg : (scrap (draw t).2 o).1.gtc = t.gtc := gtc_of_offMemory hs
  rw [ceAbort_of_live hp, ← hg]
  exact ceDone_sends o reason _ _

/-- A mismatch ends the operation, and the others hear of it. -/
theorem ceMismatch_sends {o : CeOp} (hp : o.past = false) (heard : Option Nat) :
    AbortSent (ceMismatch t o heard) o 5 t.gtc := by
  have hu : ∀ l : List Nat, unported (l.foldl (fun u dev => ceTo u o dev (o.data .mismatch 0 false 0 0 [])) t) = unported t :=
    fun l => foldl_keeps unported _ (fun _ _ => ceTo_unported _ _ _ _) l t
  have hg := gtc_of_unported (hu (o.start.filter (· != t.devid)))
  unfold ceMismatch
  extract_lets rest e
  rw [← hg]
  exact ceAbort_sends hp 5

theorem ceTake_differs {o : CeOp} {src : Nat} {d : CeData} (hp : o.past = false)
    (hd : d.kind = .mismatch ∨ d.op ≠ o.op ∨ d.ety ≠ o.ety ∨ d.count ≠ o.count) :
    AbortSent (ceTake t o src d) o 5 t.gtc := by
  by_cases hk : d.kind = .mismatch
  · have he : ceTake t o src d = ceMismatch t o (some src) := if_pos hk
    exact he ▸ ceMismatch_sends hp _
  · have hne : (!(d.op == o.op && (decide (2 ≤ o.op) || d.redop == o.redop) && d.ety == o.ety && d.count == o.count)) = true := by
      rcases hd.resolve_left hk with hd | hd | hd <;> simp [hd]
    have he : ceTake t o src d = ceMismatch t o none := (if_neg hk).trans (if_pos hne)
    exact he ▸ ceMismatch_sends hp _

end

/-- Settles O51: the header decides by the slot of its family, its incarnation and its view; data then by the operation of its
tag. -/
theorem collectivePackets : Obligations.CollectivePackets := by
  unfold Obligations.CollectivePackets
  refine ⟨fun s t h n r g inc x w rs ms d => ?_, fun s t h d n o hg => ?_⟩
  · refine ⟨fun hg hj => ⟨?_, fun ha => ceData_gated hg ha d⟩, fun hn => unheld_counted hn d w r g x inc rs ms,
      fun hn hj => ⟨fun hf => foreign_counted hn hj hf d w r g x inc rs ms,
        fun hk hv hm => later_fetched hn hj hk hv hm d w r g x inc rs ms⟩, fun hn hj hi => ?_⟩
    · exact ofMembers_gated hg ((ceGateAs_eq_ceGate hj true).trans hg) w r g x inc rs ms
    · have hs : staleInc (viewOf s n) h = false := by simp [staleInc, hi, hj]
      exact ceData_joining (ceAhead_eq_some hn hs (.inl hj)) hj d
  · rw [ceData_delivers hg d]
    refine ⟨fun ho => ⟨by rw [ceDeliver_takes ho], fun h1 h2 h3 h4 h5 hk hr => ?_, fun hp hd => ?_⟩,
      fun ho => ⟨fun hd => ?_, fun hd hv => ?_⟩⟩
    · rw [ceTake_same h1 h2 h3 h4 h5 hk]
      exact ⟨ceAdd1_whole hk hr, ceAdd1_piece⟩
    · exact ⟨_, (ceData_delivers hg d).trans (by rw [ceDeliver_takes ho]), ceTake_differs hp hd⟩
    · rw [ceDeliver_late ho hd]
    · rw [ceDeliver_keeps ho hd hv]

end Sys2Proof.Safety
end

section
/-!
CERTIFICATES. O49: forming, heartbeats, suspicion, closing and joining of a view (R74, R75, R77, R78, R84, R94).
-/

namespace Sys2Proof.Safety

open Sys2Proof.Machine

/-! ## Forming (R75) -/

/-- A slot as it enters ACTIVE with the list the runtime wrote. -/
def formed (v : ViewSlot) (gtc : Nat) : ViewSlot :=
  let l := writtenList v
  { v with
    st := .active, view := l, hist := fset v.hist v.vid (l.map Member.dev),
    members := l.zipIdx.map fun p => (p.2, memberWord p.1), agree := .idle, suspects := [],
    beats := (l.map Member.dev).foldl (fun m d => fset m d gtc) [], lastBeat := gtc,
    known := l.foldl (fun m e => fset m e.dev e.inc) v.known }

section
variable {s : State} {n : Nat}

/-- Every other member has said HELLO. -/
def AllAgreed (s : State) (n : Nat) : Prop :=
  inView (writtenList (viewOf s n)) s.devid = true ∧
  ∀ q ∈ writtenList (viewOf s n), q.dev = s.devid ∨ q.dev ∈ (viewOf s n).hellos

theorem helloCheck_waits (h : ¬AllAgreed s n) : helloCheck s n = s := by
  refine if_neg fun hc => h ⟨hc.2.1, fun q hq => ?_⟩
  simpa using List.all_eq_true.1 hc.2.2 q hq

theorem helloCheck_forms (hs : (viewOf s n).st = .forming) (h : AllAgreed s n) (ho : ∀ o ∈ s.ceOps, o.slot ≠ n)
    (hp : ∀ o ∈ s.cePast, o.slot ≠ n) : viewOf (helloCheck s n) n = formed (viewOf s n) s.gtc ∧ (helloCheck s n).mem = s.mem := by
  have he : helloCheck s n = ceInstall (modView s n fun v => formed (viewOf s n) s.gtc) n := by
    refine (if_pos ⟨hs, h.1, List.all_eq_true.2 fun q hq => by simpa using h.2 q hq⟩).trans ?_
    exact congrArg (ceInstall · n) (modView_congr rfl)
  obtain ⟨a, d, hi⟩ := ceInstall_quiet (s := modView s n fun v => formed (viewOf s n) s.gtc) (n := n) ho hp
  rw [he, hi]
  exact ⟨(viewOf_modView s n fun _ => formed (viewOf s n) s.gtc :), rfl⟩

end

/-- Packets to the members of a list other than this device. -/
theorem foldl_others (s u : State) (l : List Member) (f : State → Nat → State) :
    (l.filter fun m => m.dev != s.devid).foldl (fun u m => f u m.dev) u = (others s l).foldl f u := by
  rw [others, List.filter_map, List.foldl_map]
  rfl

/-- A slot as FORM leaves it. -/
def forming (v : ViewSlot) (vid gtc : Nat) : ViewSlot :=
  { v with
    st := .forming, vid := vid % 2 ^ 32, view := [], hellos := [], formSince := gtc, suspects := [], agree := .idle,
    joining := false, holdColl := false, fetching := [], joins := [], hist := [] }

section
variable {s : State} {n : Nat}

theorem form_shut (h : hostShut s = true) (vid : Nat) : exec (.form n vid) s = .next s := if_pos (.inr (.inl h))
theorem form_held (h : (viewOf s n).st ≠ .free) (vid : Nat) : exec (.form n vid) s = .next s := if_pos (.inr (.inr h))

/-- What FORM sends, before it looks whether the list is complete. -/
def formTold (s : State) (n vid : Nat) : State :=
  let l := writtenList (viewOf s n)
  tellAll (modView s n fun v => forming v vid s.gtc) n (others s l) (.hello (listDigest l))

theorem form_tells (hh : hostShut s = false) (hn : n < 16) (hf : (viewOf s n).st = .free) (vid : Nat) :
    exec (.form n vid) s = .next (helloCheck (formTold s n vid) n) := by
  have hw : writtenList (viewOf (modView s n fun v => forming v vid s.gtc) n) = writtenList (viewOf s n) := by
    rw [viewOf_modView]; rfl
  have ht (l : List Member) := foldl_others s (modView s n fun v => forming v vid s.gtc) l
    fun u d => ceCtl u n d (.hello (listDigest l))
  rw [formTold, tellAll, ← ht, ← hw]
  exact if_neg (by simp [hh, hn, hf])

theorem formTold_unported (vid : Nat) : unported (formTold s n vid) = unported (modView s n fun v => forming v vid s.gtc) :=
  tellAll_unported _ _ _ _

theorem viewOf_formTold (vid : Nat) : viewOf (formTold s n vid) n = forming (viewOf s n) vid s.gtc := by
  rw [viewOf_of_unported (formTold_unported vid), viewOf_modView]

theorem devid_formTold (vid : Nat) : (formTold s n vid).devid = s.devid := (devid_of_unported (formTold_unported vid) :)

/-- None has agreed yet: the list is complete if it names this device alone. -/
theorem allAgreed_formTold (vid : Nat) : AllAgreed (formTold s n vid) n ↔
    inView (writtenList (viewOf s n)) s.devid = true ∧ others s (writtenList (viewOf s n)) = [] := by
  rw [AllAgreed, viewOf_formTold, devid_formTold, others, List.filter_eq_nil_iff]
  simp [forming, writtenList]

section
variable (hh : hostShut s = false) (hn : n < 16) (hf : (viewOf s n).st = .free) (vid : Nat)
include hh hn hf

/-- FORM of a list with other members, or without this device. -/
theorem form_waits (ho : others s (writtenList (viewOf s n)) ≠ [] ∨ inView (writtenList (viewOf s n)) s.devid = false) :
    exec (.form n vid) s = .next (formTold s n vid) := by
  rw [form_tells hh hn hf, helloCheck_waits fun ha => ?_]
  obtain ⟨hi, hnil⟩ := (allAgreed_formTold vid).1 ha
  rcases ho with ho | ho
  · exact ho hnil
  · exact Bool.false_ne_true (ho.symm.trans hi)

/-- FORM of a list of this device alone. -/
theorem form_alone (ho : others s (writtenList (viewOf s n)) = []) (hi : inView (writtenList (viewOf s n)) s.devid = true)
    (hq : ∀ o ∈ s.ceOps, o.slot ≠ n) (hp : ∀ o ∈ s.cePast, o.slot ≠ n) : Does (.form n vid) s fun e =>
      (viewOf e n).st = .active ∧ (viewOf e n).vid = vid % 2 ^ 32 ∧ (viewOf e n).view = writtenList (viewOf s n) := by
  have hu := formTold_unported (s := s) (n := n) vid
  obtain ⟨hv, -⟩ := helloCheck_forms (s := formTold s n vid) (n := n) (by rw [viewOf_formTold]; rfl)
    ((allAgreed_formTold vid).2 ⟨hi, ho⟩) (by rw [ceOps_of_unported hu]; exact hq) (by rw [cePast_of_unported hu]; exact hp)
  rw [viewOf_formTold] at hv
  exact ⟨_, form_tells hh hn hf vid, by rw [hv]; rfl, by rw [hv]; rfl, by rw [hv]; rfl⟩

end

end

/-! ## HELLO (R75) -/

section
variable {s t : State} {n : Nat} {h : CeHdr} (hg : ceGate s h = (t, some n))

/-- The answer to a HELLO that counts. -/
def helloAnswered (t : State) (n src : Nat) (w : Word) : State :=
  ceCtl (modView t n fun v => { v with hellos := nins v.hellos src }) n src (.hello w)

theorem viewOf_helloAnswered (t : State) (n src : Nat) (w : Word) :
    viewOf (helloAnswered t n src w) n = { viewOf t n with hellos := nins (viewOf t n).hellos src } := by
  rw [helloAnswered, viewOf_of_unported (ceCtl_unported _ _ _ _), viewOf_modView]

theorem helloAnswered_unported (t : State) (n src : Nat) (w : Word) : unported (helloAnswered t n src w) =
    unported (modView t n fun v => { v with hellos := nins v.hellos src }) := ceCtl_unported _ _ _ _

theorem allAgreed_helloAnswered (t : State) (n src : Nat) (w : Word) : AllAgreed (helloAnswered t n src w) n ↔
    inView (writtenList (viewOf t n)) t.devid = true ∧
    ∀ q ∈ writtenList (viewOf t n), q.dev = t.devid ∨ q.dev ∈ nins (viewOf t n).hellos src := by
  have hd : (helloAnswered t n src w).devid = t.devid := (devid_of_unported (helloAnswered_unported t n src w) :)
  rw [AllAgreed, viewOf_helloAnswered, hd]
  rfl

include hg in
theorem hello_answers (hs : (viewOf t n).st = .forming) (hh : h.src ∉ (viewOf t n).hellos) :
    exec (.hello h (listDigest (writtenList (viewOf t n)))) s =
      .next (helloCheck (helloAnswered t n h.src (listDigest (writtenList (viewOf t n)))) n) := by
  show execHello h _ s = _
  rw [execHello, hg]
  exact if_neg (by simp [hs, hh])

section
variable (hs : (viewOf t n).st = .forming) (hh : h.src ∉ (viewOf t n).hellos)
include hg hs hh

/-- A HELLO while another is missing. -/
theorem hello_waits (hm : ∃ q ∈ writtenList (viewOf t n), q.dev ≠ t.devid ∧ q.dev ∉ nins (viewOf t n).hellos h.src) :
    exec (.hello h (listDigest (writtenList (viewOf t n)))) s =
      .next (helloAnswered t n h.src (listDigest (writtenList (viewOf t n)))) := by
  rw [hello_answers hg hs hh, helloCheck_waits fun ha => ?_]
  obtain ⟨q, hq, hne, hnot⟩ := hm
  exact (((allAgreed_helloAnswered t n h.src _).1 ha).2 q hq).elim hne hnot

/-- The last HELLO. -/
theorem hello_completes (hm : ∀ q ∈ writtenList (viewOf t n), q.dev = t.devid ∨ q.dev ∈ nins (viewOf t n).hellos h.src)
    (hi : inView (writtenList (viewOf t n)) t.devid = true) (hq : ∀ o ∈ t.ceOps, o.slot ≠ n)
    (hp : ∀ o ∈ t.cePast, o.slot ≠ n) : Does (.hello h (listDigest (writtenList (viewOf t n)))) s fun e =>
      (viewOf e n).st = .active ∧ (viewOf e n).view = writtenList (viewOf t n) ∧ (viewOf e n).vid = (viewOf t n).vid ∧
      (viewOf e n).suspects = [] ∧ SameMem t e := by
  have hu := helloAnswered_unported t n h.src (listDigest (writtenList (viewOf t n)))
  have hb := viewOf_helloAnswered t n h.src (listDigest (writtenList (viewOf t n)))
  obtain ⟨hv, he⟩ := helloCheck_forms (s := helloAnswered t n h.src (listDigest (writtenList (viewOf t n)))) (n := n)
    (by rw [hb]; exact hs) ((allAgreed_helloAnswered t n h.src _).2 ⟨hi, hm⟩) (by rw [ceOps_of_unported hu]; exact hq)
    (by rw [cePast_of_unported hu]; exact hp)
  rw [hb] at hv
  exact ⟨_, hello_answers hg hs hh, by rw [hv]; rfl, by rw [hv]; rfl, by rw [hv]; rfl, by rw [hv]; rfl,
    fun a => by rw [he, mem_of_unported hu]; rfl⟩

end

theorem listDigest_eq (m : List Member) : listDigest m =
    wd (leNat ((sha256 (m.flatMap fun e => leBytes 8 (e.dev * 2 ^ 32 + e.inc))).take 8)) ∨
    ∃ e ∈ m, 2 ^ 64 ≤ e.dev * 2 ^ 32 + e.inc := by
  by_cases hw : ∃ e ∈ m, 2 ^ 64 ≤ e.dev * 2 ^ 32 + e.inc
  · exact .inr hw
  · have hm : ∀ e ∈ m, leBytes 8 (memberWord e).toNat = leBytes 8 (e.dev * 2 ^ 32 + e.inc) := fun e he => by
      rw [memberWord, wd, BitVec.toNat_ofNat, Nat.mod_eq_of_lt (Nat.not_le.1 fun hl => hw ⟨e, he, hl⟩)]
    rw [listDigest, List.flatMap_congr hm]
    exact .inl rfl

end

/-! ## Leaving service (R74, R75) -/

section
variable {s : State} {n : Nat}

theorem formTimeout_early (h : (viewOf s n).st ≠ .forming ∨ s.gtc < (viewOf s n).formSince + 100000000) :
    exec (.formTimeout n) s = .next s := if_pos h

theorem formTimeout_frees (hs : (viewOf s n).st = .forming) (hg : (viewOf s n).formSince + 100000000 ≤ s.gtc) :
    Does (.formTimeout n) s fun t => (viewOf t n).st = .free ∧ ∀ o ∈ t.ceOps, o.slot ≠ n := by
  refine ⟨_, if_neg (by simp [hs, hg]), ?_, (ceAbortAll_ends _ n 7).2⟩
  rw [viewOf_ceAbortAll, viewOf_viewEvent, viewOf_modView]

theorem close_shut (h : hostShut s = true) : exec (.close n) s = .next s := if_pos (.inr h)

theorem close_frees (hh : hostShut s = false) (hn : n < 16) :
    Does (.close n) s fun t => Leaves t n .free ∧ (viewOf t n).view = [] := by
  refine ⟨_, if_neg (by simp [hh, hn]), ⟨?_, ?_, (ceAbortAll_ends s n 10).2⟩, ?_⟩ <;> rw [viewOf_modView]

/-! ## Heartbeats and suspicion (R77, R78) -/

theorem foldl_idle {σ α : Type} {f : σ → α → σ} {s : σ} {l : List α} (h : ∀ b ∈ l, f s b = s) : l.foldl f s = s := by
  induction l with
  | nil => rfl
  | cons b l ih => rw [List.foldl_cons, h b List.mem_cons_self, ih fun c hc => h c (List.mem_cons_of_mem _ hc)]

/-- A step that acts on one element alone. -/
theorem foldl_only {σ α : Type} {f : σ → α → σ} {a : α} {s t : σ} (hs : f s a = t) :
    ∀ l : List α, l.Nodup → a ∈ l → (∀ b ∈ l, b ≠ a → f s b = s) → (∀ b ∈ l, b ≠ a → f t b = t) → l.foldl f s = t
  | [], _, ha, _, _ => absurd ha List.not_mem_nil
  | b :: l, hd, ha, h1, h2 => by
    obtain ⟨hb, hl⟩ := List.nodup_cons.1 hd
    by_cases hba : b = a
    · subst hba
      rw [List.foldl_cons, hs]
      exact foldl_idle fun c hc => h2 c (List.mem_cons_of_mem _ hc) fun e => hb (e ▸ hc)
    · rw [List.foldl_cons, h1 b List.mem_cons_self hba]
      exact foldl_only hs l hl ((List.mem_cons.1 ha).resolve_left fun e => hba e.symm)
        (fun c hc => h1 c (List.mem_cons_of_mem _ hc)) fun c hc => h2 c (List.mem_cons_of_mem _ hc)

/-- The heartbeats of one slot. -/
def beat (t : State) (n : Nat) : State :=
  let v := viewOf t n
  if v.st = .active ∧ v.lastBeat + 50000 ≤ t.gtc then
    tellAll (modView t n fun v => { v with lastBeat := t.gtc }) n (neighbours t v) (.heartbeat (rankOf v t.devid) t.gtc)
  else t

theorem beat_inactive (h : (viewOf s n).st ≠ .active) : beat s n = s := if_neg fun hc => h hc.1

/-- One ACTIVE slot sends its heartbeats. -/
theorem heartbeatTimer_beats (ho : ∀ i < 16, i ≠ n → (viewOf s i).st ≠ .active) (hn : n < 16) (hs : (viewOf s n).st = .active)
    (hb : (viewOf s n).lastBeat + 50000 ≤ s.gtc) : exec .heartbeatTimer s =
      .next (tellAll (modView s n fun v => { v with lastBeat := s.gtc }) n (neighbours s (viewOf s n))
        (.heartbeat (rankOf (viewOf s n) s.devid) s.gtc)) := by
  refine congrArg Host.Outcome.next (foldl_only (f := beat) (if_pos ⟨hs, hb⟩) (List.range 16) List.nodup_range
    (List.mem_range.2 hn) (fun i hi hin => beat_inactive (ho i (List.mem_range.1 hi) hin)) fun i hi hin => beat_inactive ?_)
  rw [viewOf_of_unported (tellAll_unported _ _ _ _), viewOf_modView_ne _ hin]
  exact ho i (List.mem_range.1 hi) hin

variable {m : Member} {k : Nat}

/-- A silent neighbour is suspected. -/
theorem suspicionTimeout_suspects (hm : (viewOf s n).view[k]? = some m) (hs : (viewOf s n).st = .active)
    (hn : m.dev ∈ neighbours s (viewOf s n)) (hu : m.dev ∉ (viewOf s n).suspects)
    (hd : (fget (viewOf s n).beats m.dev).getD 0 + 400000 ≤ s.gtc ∨ routeOf s m.dev = some none) :
    exec (.suspicionTimeout n k) s = .next (elect (suspectOwn s n m.dev) n) := by
  show execSuspicionTimeout n k s = _
  rw [execSuspicionTimeout]
  simp only [hm]
  exact if_pos (by simp [suspectDue, hs, hn, hu, hd])

theorem suspects_suspectOwn (hm : (viewOf s n).view[k]? = some m) (hne : m.dev ≠ s.devid) :
    (viewOf (suspectOwn s n m.dev) n).suspects = nins (viewOf s n).suspects m.dev := by
  have hin : inView (viewOf s n).view m.dev = true := List.any_eq_true.2 ⟨m, List.mem_of_getElem? hm, by simp⟩
  rw [suspectOwn, viewOf_viewEvent, suspectAll, viewOf_modView]
  simp [hne, hin]

end

section
variable {s t : State} {n : Nat} {h : CeHdr} (hg : ceGate s h = (t, some n))
include hg

theorem heartbeat_notes (k j : Nat) :
    exec (.heartbeat h k j) s = .next (modView t n fun v => { v with beats := fset v.beats h.src t.gtc }) := by
  show execHeartbeat h k j s = _
  rw [execHeartbeat, hg]

/-- The devices that a report names by rank. -/
def named (v : ViewSlot) (rs : List Nat) : List Nat := rs.filterMap fun r => v.view[r]?.map Member.dev

theorem suspect_active (hs : (viewOf t n).st = .active) (hv : (viewOf t n).vid % 2 ^ 16 ≠ 0xFFFF) (r : Suspicion) :
    let e := suspectAll t n (named (viewOf t n) r.ranks)
    exec (.suspect h r) s = .next (proposeTo e n 0 (survivors (viewOf e n))) := by
  show execSuspect h r s = _
  rw [execSuspect, hg]
  simp only [hs]
  exact if_neg hv

theorem suspect_changing (hs : (viewOf t n).st = .changing) (r : Suspicion) :
    exec (.suspect h r) s = .next (suspectAll t n (named (viewOf t n) r.ranks)) := by
  show execSuspect h r s = _
  rw [execSuspect, hg]
  simp only [hs]
  rfl

end

/-! ## Joining (R94) -/

section
variable {s t : State} {n : Nat} {h : CeHdr}

theorem join_shut (hh : hostShut s = true) (vid : Nat) : exec (.join n vid) s = .next s := if_pos (.inr (.inl hh))

/-- Whether a packet for a device has a port to leave by. -/
def reachable (s : State) (d : Nat) : Bool := match routeOf s d with | some (some _) => true | _ => false

theorem join_asks {k : Nat} (hh : hostShut s = false) (hn : n < 16) (hs : (viewOf s n).st = .excluded)
    (hk : (others s (viewOf s n).view).find? (reachable s) = some k) (vid : Nat) : exec (.join n vid) s =
      .next (ceCtl (modView s n fun v => { v with joining := true, vid := vid % 2 ^ 32, agree := .idle, suspects := [] }) n k
        (.joinReq s.devid s.incarnation)) := by
  refine (if_neg (by simp [hh, hn, hs])).trans ?_
  rw [if_neg (by simp [hs])]
  split
  next d hd => rw [Option.some.inj (hd.symm.trans hk)]
  next hd => cases hd.symm.trans hk

theorem joinReq_unheld (hn : ceSlotOf s h.vid = none) (j inc : Nat) :
    exec (.joinReq h j inc) s = .next (ceSend s j 0x10 0 h.vid .joinNak) := by
  show execJoinReq h j inc s = _
  rw [execJoinReq, hn]

/-- The refusals of a join request that does not count. -/
def forged (v : ViewSlot) (h : CeHdr) (j inc : Nat) : Bool := if h.src = j then h.inc != inc else staleInc v h

/-- The joiner's incarnation is not later than the one recorded. -/
def outdated (v : ViewSlot) (j inc : Nat) : Bool := match recordedInc v j with | some k => decide (inc ≤ k) | none => false

/-- A join request at the slot of its family, case by case. -/
theorem joinReq_held (hn : ceSlotOf s h.vid = some n) (j inc : Nat) : exec (.joinReq h j inc) s =
    (let v := viewOf s n
    if forged v h j inc then .next (ceDiscard s n)
    else if v.joining ∨ (v.st ≠ .active ∧ v.st ≠ .changing) then .next (ceSend s j 0x10 0 h.vid .joinNak)
    else if candidate v ≠ s.devid then .next (ceCtl s n (candidate v) (.joinReq j inc))
    else if outdated v j inc then .next (ceSend s j 0x10 0 h.vid .joinNak)
    else if v.st = .changing then .next (modView s n fun v => { v with joins := v.joins ++ [⟨j, inc⟩] })
    else if v.vid % 65536 = 0xFFFF then .next s
    else .next (proposeTo (modView s n fun v => { v with holdColl := true }) n 0
      (ranked (v.view.filter (fun m => m.dev != j) ++ [⟨j, inc⟩])))) := by
  show execJoinReq h j inc s = _
  rw [execJoinReq, hn]
  rfl

theorem ceDiscard_counts (s : State) (n : Nat) :
    ceDiscard s n = modView s n fun v => { v with vdiscard := min (v.vdiscard + 1) (2 ^ 32 - 1) } := rfl

section
variable {j inc : Nat} (hn : ceSlotOf s h.vid = some n)
include hn

theorem joinReq_forged (hf : forged (viewOf s n) h j inc = true) :
    exec (.joinReq h j inc) s = .next (ceDiscard s n) := by
  rw [joinReq_held hn]
  exact if_pos hf

variable (hf : forged (viewOf s n) h j inc = false)
include hf

theorem joinReq_refused (hs : (viewOf s n).joining = true ∨ ((viewOf s n).st ≠ .active ∧ (viewOf s n).st ≠ .changing)) :
    exec (.joinReq h j inc) s = .next (ceSend s j 0x10 0 h.vid .joinNak) := by
  simp only [joinReq_held hn, hf, Bool.false_eq_true, if_false]
  exact if_pos hs

variable (hs : ¬((viewOf s n).joining = true ∨ ((viewOf s n).st ≠ .active ∧ (viewOf s n).st ≠ .changing)))
include hs

theorem joinReq_forwarded (hc : candidate (viewOf s n) ≠ s.devid) :
    exec (.joinReq h j inc) s = .next (ceCtl s n (candidate (viewOf s n)) (.joinReq j inc)) := by
  simp only [joinReq_held hn, hf, Bool.false_eq_true, if_false, if_neg hs]
  exact if_pos hc

variable (hc : candidate (viewOf s n) = s.devid)
include hc

theorem joinReq_outdated (ho : outdated (viewOf s n) j inc = true) :
    exec (.joinReq h j inc) s = .next (ceSend s j 0x10 0 h.vid .joinNak) := by
  simp only [joinReq_held hn, hf, Bool.false_eq_true, if_false, if_neg hs, hc, ne_eq, not_true_eq_false]
  exact if_pos ho

variable (ho : outdated (viewOf s n) j inc = false)
include ho

theorem joinReq_waits (hst : (viewOf s n).st = .changing) :
    exec (.joinReq h j inc) s = .next (modView s n fun v => { v with joins := v.joins ++ [⟨j, inc⟩] }) := by
  simp only [joinReq_held hn, hf, Bool.false_eq_true, if_false, if_neg hs, hc, ne_eq, not_true_eq_false, ho]
  exact if_pos hst

theorem joinReq_proposes (hst : (viewOf s n).st = .active) (hv : (viewOf s n).vid % 2 ^ 16 ≠ 0xFFFF) :
    exec (.joinReq h j inc) s = .next (proposeTo (modView s n fun v => { v with holdColl := true }) n 0
      (ranked ((viewOf s n).view.filter (fun m => m.dev != j) ++ [⟨j, inc⟩]))) := by
  simp only [joinReq_held hn, hf, Bool.false_eq_true, if_false, if_neg hs, hc, ne_eq, not_true_eq_false, ho]
  exact (if_neg (by simp [hst])).trans (if_neg hv)

end

theorem outdated_iff {v : ViewSlot} {j inc : Nat} : outdated v j inc = true ↔ ∃ i, recordedInc v j = some i ∧ inc ≤ i := by
  unfold outdated
  cases recordedInc v j <;> simp

theorem joinNak_some (hg : ceGateAs s h true = (t, some n)) :
    exec (.joinNak h) s = .next (modView t n fun v => { v with joining := false }) := by
  show execJoinNak h s = _
  rw [execJoinNak, hg]

theorem joinNak_none (hg : ceGateAs s h true = (t, none)) : exec (.joinNak h) s = .next t := by
  show execJoinNak h s = _
  rw [execJoinNak, hg]

end

/-- Settles O49: each event of a view slot by the slot's state; a complete list forms at once. -/
theorem viewFormation : Obligations.ViewFormation := by
  unfold Obligations.ViewFormation
  intro s t n vid k h w rs m j inc g v u l tells
  refine ⟨fun hh => ⟨form_shut hh vid, close_shut hh, join_shut hh vid⟩, fun hh hn hf => ⟨fun ho => ?_, fun ho hi hq hp => ?_⟩,
    fun _ hf => form_held hf vid, fun hg hs hw hh => ?_, listDigest_eq, formTimeout_early,
    formTimeout_frees, close_frees, fun ho hn hs hb => heartbeatTimer_beats ho hn hs hb, fun hg => heartbeat_notes hg k j,
    fun hm hs hn hu hne hd => ⟨suspicionTimeout_suspects hm hs hn hu hd, suspects_suspectOwn hm hne⟩,
    fun hg => ⟨fun hs hv => suspect_active hg hs hv _, fun hs => suspect_changing hg hs _⟩,
    fun hh hn hs hk => join_asks hh hn hs hk vid, fun hn => joinReq_unheld hn j inc, fun hn hf => ?_,
    fun hn h1 h2 hj => ?_, joinNak_some, joinNak_none⟩
  · exact form_waits hh hn hf vid ho
  · exact form_alone hh hn hf vid ho hi hq hp
  · subst hw
    exact ⟨hello_waits hg hs hh, fun hm hi hq hp => hello_completes hg hs hh hm hi hq hp⟩
  · rw [joinReq_forged hn, ceDiscard_counts]
    rcases hf with ⟨hj, hi⟩ | ⟨hj, hjo, hi⟩
    · simp [forged, hj, hi]
    · exact (if_neg hj).trans ((staleInc_eq_true hjo h).2 hi)
  · have hf : forged v h j inc = false := by
      by_cases hj' : h.src = j
      · simp [forged, hj', h1 hj']
      · simp [forged, hj', (staleInc_eq_false hj h).2 (h2 hj')]
    refine ⟨fun ha hc => joinReq_refused hn hf (.inr ⟨ha, hc⟩), fun hst => ?_⟩
    have hs : ¬(v.joining = true ∨ (v.st ≠ .active ∧ v.st ≠ .changing)) := by
      rcases hst with hst | hst <;> simp [hj, hst]
    refine ⟨joinReq_forwarded hn hf hs, fun hc ho => joinReq_outdated hn hf hs hc (outdated_iff.2 ho), fun hc ho => ?_⟩
    have ho' : outdated v j inc = false := by
      refine Bool.eq_false_iff.2 fun hx => ?_
      obtain ⟨i, hi, hle⟩ := outdated_iff.1 hx
      exact Nat.not_lt.2 hle (ho i hi)
    exact ⟨joinReq_waits hn hf hs hc ho', joinReq_proposes hn hf hs hc ho'⟩

end Sys2Proof.Safety
end

section
/-!
CERTIFICATES. O50: the agreement table and the install of a view (R79 to R81, R89, R93, R94).
-/

namespace Sys2Proof.Safety

open Sys2Proof.Machine

/-! ## Slots that leave service (R81, R82) -/

/-- A slot goes STALLED or EXCLUDED: it agrees on nothing, and its collectives end. -/
theorem leaves_of_aborts (s : State) (n ev rank reason : Nat) (st : VSt) :
    Leaves (ceAbortAll (viewEvent (modView s n fun v => { v with st := st, agree := .idle }) n ev rank) n reason) n st := by
  refine ⟨?_, ?_, (ceAbortAll_ends _ n reason).2⟩ <;> rw [viewOf_ceAbortAll, viewOf_viewEvent, viewOf_modView]

theorem excludeSlot_leaves (s : State) (n : Nat) : Leaves (excludeSlot s n) n .excluded := leaves_of_aborts s n _ _ _ _
theorem stallSlot_leaves (s : State) (n : Nat) : Leaves (stallSlot s n) n .stalled := leaves_of_aborts s n _ _ _ _

/-! ## PROPOSE (R80) -/

/-- A list with an entry that the view does not hold. -/
theorem addsMember_iff {v : ViewSlot} {l : List Member} : addsMember v l = true ↔ ∃ m ∈ l, m ∉ v.view := by
  simp [addsMember]

/-- A slot that is idle, or CHANGING towards a candidate. -/
def Unbound (t : State) (n c since : Nat) : Prop := (viewOf t n).agree = .idle ∨ (viewOf t n).agree = .changing c since

/-- The answer to a proposal must wait for the collectives in flight. -/
def Waits (t : State) (n : Nat) (l : List Member) : Prop := (∃ m ∈ l, m ∉ (viewOf t n).view) ∧ ceFlying t n = true

theorem waits_iff {t : State} {n : Nat} {l : List Member} :
    Waits t n l ↔ (addsMember (viewOf t n) l && ceFlying t n) = true := by
  rw [Bool.and_eq_true, addsMember_iff]
  rfl

/-- What a proposer tells those that have acknowledged it, before it turns to a lower coordinator. -/
def yielded (t : State) (n src : Nat) (acks : List Nat) : State :=
  modView (tellAll t n acks .abandon) n fun v => { v with agree := .changing src t.gtc }

/-- A member acknowledges, and is bound. -/
def bound (e : State) (n src r : Nat) (adds : Bool) : State :=
  modView (ceCtl e n src (.ack r e.incarnation)) n fun v =>
    { v with st := .changing, agree := .bound src e.gtc, holdColl := v.holdColl || adds }

/-- A member that waits holds new collectives; the candidate it waits for has been heard. -/
def heldFor (v : ViewSlot) (src gtc : Nat) : ViewSlot :=
  { v with
    holdColl := true
    agree := match v.agree with
      | .changing c since => .changing c (if c = src then gtc else since)
      | a => a }

theorem heldFor_idle {v : ViewSlot} (h : v.agree = .idle) (src gtc : Nat) : (heldFor v src gtc).agree = .idle := by
  simp only [heldFor, h]

theorem heldFor_changing {v : ViewSlot} {c since : Nat} (h : v.agree = .changing c since) (src gtc : Nat) :
    (heldFor v src gtc).agree = .changing c (if c = src then gtc else since) := by
  simp only [heldFor, h]

section
variable {t : State} {n : Nat}

theorem viewOf_yielded (src : Nat) (acks : List Nat) :
    viewOf (yielded t n src acks) n = { viewOf t n with agree := .changing src t.gtc } := by
  rw [yielded, viewOf_modView, viewOf_of_unported (tellAll_unported _ _ _ _)]

theorem mem_yielded (src : Nat) (acks : List Nat) : (yielded t n src acks).mem = t.mem :=
  (mem_of_unported (tellAll_unported t n acks .abandon) :)

theorem ceFlying_yielded (src : Nat) (acks : List Nat) : ceFlying (yielded t n src acks) n = ceFlying t n :=
  (ceFlying_of_unported (tellAll_unported t n acks .abandon) n :)

theorem gtc_yielded (src : Nat) (acks : List Nat) : (yielded t n src acks).gtc = t.gtc :=
  (gtc_of_unported (tellAll_unported t n acks .abandon) :)

theorem waits_yielded (src : Nat) (acks : List Nat) (l : List Member) : Waits (yielded t n src acks) n l ↔ Waits t n l := by
  rw [Waits, viewOf_yielded, ceFlying_yielded]
  rfl

variable {h : CeHdr} {l : List Member}

theorem ackOrWait_binds (hw : ¬Waits t n l) (r : Nat) :
    ackOrWait t n h r l = bound t n h.src r (addsMember (viewOf t n) l) := if_neg (mt waits_iff.2 hw)

theorem ackOrWait_waits (hw : Waits t n l) (r : Nat) :
    let e := ackOrWait t n h r l
    viewOf e n = heldFor (viewOf t n) h.src t.gtc ∧ SameMem t e := by
  intro e
  have he : e = _ := if_pos (waits_iff.1 hw)
  have hu := ceCtl_unported t n h.src (.wait r)
  rw [he]
  refine ⟨?_, fun a => congrArg (memGet · a) (mem_of_unported hu :)⟩
  exact (viewOf_modView _ n fun v => heldFor v h.src t.gtc).trans (by rw [viewOf_of_unported hu])

variable {s : State} (hg : ceGate s h = (t, some n)) (hj : (viewOf t n).joining = false)
include hg hj

/-- A proposal at the slot it counts at, of a view held, case by case. -/
theorem propose_held (r nv : Nat) (l : List Member) : exec (.propose h r nv l) s =
    (let v := viewOf t n
    let me := inView l t.devid
    let lower := decide (rankOf v h.src < rankOf v t.devid)
    if !me ∧ lower ∧ (v.st = .active ∨ v.st = .changing ∨ v.st = .stalled) then .next (excludeSlot t n)
    else if v.st ≠ .active ∧ v.st ≠ .changing then .next t
    else match v.agree with
      | .idle | .changing .. =>
        if me then .next (ackOrWait t n h r l)
        else .next (proposeTo t n 0 (ranked (l ++ v.view.filter fun m => m.dev == t.devid)))
      | .proposing _ _ acks .. =>
        if lower then .next (ackOrWait (yielded t n h.src acks) n h r l) else .next (ceCtl t n h.src (.busy t.devid))
      | .bound c _ =>
        if c ≠ h.src then .next (ceCtl t n h.src (.busy c))
        else if me then .next (ackOrWait t n h r l)
        else .next t) := by
  show execPropose h r nv l s = _
  rw [execPropose, ceGateAs_of_ceGate hg]
  simp only [hj, Bool.false_eq_true, if_false]
  rfl

variable (hs : (viewOf t n).st = .active ∨ (viewOf t n).st = .changing)
include hs

/-- A lower coordinator leaves this member out. -/
theorem propose_excludes (hm : inView l t.devid = false) (hl : rankOf (viewOf t n) h.src < rankOf (viewOf t n) t.devid)
    (r nv : Nat) : Does (.propose h r nv l) s fun e => Leaves e n .excluded :=
  ⟨_, (propose_held hg hj r nv l).trans (if_pos ⟨by simp [hm], by simp [hl], by rcases hs with hs | hs <;> simp [hs]⟩),
    excludeSlot_leaves t n⟩

/-- Any other proposal is answered by what the slot agrees on. -/
theorem propose_answered (hm : inView l t.devid = true ∨ rankOf (viewOf t n) t.devid ≤ rankOf (viewOf t n) h.src)
    (r nv : Nat) : exec (.propose h r nv l) s = (match (viewOf t n).agree with
      | .idle | .changing .. =>
        if inView l t.devid then .next (ackOrWait t n h r l)
        else .next (proposeTo t n 0 (ranked (l ++ (viewOf t n).view.filter fun m => m.dev == t.devid)))
      | .proposing _ _ acks .. =>
        if rankOf (viewOf t n) h.src < rankOf (viewOf t n) t.devid then .next (ackOrWait (yielded t n h.src acks) n h r l)
        else .next (ceCtl t n h.src (.busy t.devid))
      | .bound c _ =>
        if c ≠ h.src then .next (ceCtl t n h.src (.busy c))
        else if inView l t.devid then .next (ackOrWait t n h r l)
        else .next t) := by
  rw [propose_held hg hj]
  refine (if_neg fun hc => ?_).trans ((if_neg fun hc => hs.elim hc.1 hc.2).trans ?_)
  · rcases hm with hm | hm
    · simp [hm] at hc
    · have := hc.2.1
      simp only [decide_eq_true_eq] at this
      omega
  · simp only [decide_eq_true_eq]

variable {c since : Nat}

theorem propose_acked (hm : inView l t.devid = true) (ha : Unbound t n c since ∨ (viewOf t n).agree = .bound h.src since)
    (r nv : Nat) : exec (.propose h r nv l) s = .next (ackOrWait t n h r l) := by
  rw [propose_answered hg hj hs (.inl hm)]
  rcases ha with (ha | ha) | ha <;> simp [ha, hm]

theorem propose_countered (hm : inView l t.devid = false)
    (hl : rankOf (viewOf t n) t.devid ≤ rankOf (viewOf t n) h.src) (ha : Unbound t n c since) (r nv : Nat) :
    exec (.propose h r nv l) s =
      .next (proposeTo t n 0 (ranked (l ++ (viewOf t n).view.filter fun m => m.dev == t.devid))) := by
  rw [propose_answered hg hj hs (.inr hl)]
  rcases ha with ha | ha <;> simp [ha, hm]

theorem propose_left (hm : inView l t.devid = false) (hl : rankOf (viewOf t n) t.devid ≤ rankOf (viewOf t n) h.src)
    (ha : (viewOf t n).agree = .bound h.src since) (r nv : Nat) : exec (.propose h r nv l) s = .next t := by
  rw [propose_answered hg hj hs (.inr hl)]
  simp [ha, hm]

theorem propose_busy (hm : inView l t.devid = true ∨ rankOf (viewOf t n) t.devid ≤ rankOf (viewOf t n) h.src)
    (ha : (viewOf t n).agree = .bound c since) (hc : c ≠ h.src) (r nv : Nat) :
    exec (.propose h r nv l) s = .next (ceCtl t n h.src (.busy c)) := by
  rw [propose_answered hg hj hs hm]
  simp [ha, hc]

variable {x inc : Nat} {ml : List Member} {acks ans : List Nat}
  (ha : (viewOf t n).agree = .proposing x ml acks ans since inc)
include ha

theorem propose_outranked (hm : inView l t.devid = true ∨ rankOf (viewOf t n) t.devid ≤ rankOf (viewOf t n) h.src)
    (hl : rankOf (viewOf t n) t.devid ≤ rankOf (viewOf t n) h.src) (r nv : Nat) :
    exec (.propose h r nv l) s = .next (ceCtl t n h.src (.busy t.devid)) := by
  rw [propose_answered hg hj hs hm]
  simp [ha, Nat.not_lt.2 hl]

theorem propose_yields (hm : inView l t.devid = true) (hl : rankOf (viewOf t n) h.src < rankOf (viewOf t n) t.devid)
    (r nv : Nat) : exec (.propose h r nv l) s = .next (ackOrWait (yielded t n h.src acks) n h r l) := by
  rw [propose_answered hg hj hs (.inl hm)]
  simp [ha, hl]

end

/-! ## Answers to a proposal, and what comes to a bound member (R80, R81) -/

/-- A member has answered without acknowledging. -/
theorem answered_notes {t : State} {n r since nv : Nat} {l : List Member} {acks ans : List Nat}
    (ha : (viewOf t n).agree = .proposing r l acks ans since nv) (src : Nat) :
    (viewOf (answered t n src) n).agree = .proposing r l acks (nins ans src) since nv ∧ SameMem t (answered t n src) := by
  refine ⟨?_, fun a => rfl⟩
  rw [answered, viewOf_modView]
  simp only [ha]

section
variable {s t : State} {n : Nat} {h : CeHdr} (hg : ceGate s h = (t, some n))
include hg

section
variable {r since nv inc : Nat} {l : List Member} {acks ans : List Nat}
  (ha : (viewOf t n).agree = .proposing r l acks ans since nv)
include ha

theorem ceAck_counts (hm : ∃ m ∈ l, m.dev = h.src ∧ m.inc = inc) : exec (.ceAck h r inc) s =
    .next (tryDecide (modView t n fun v => { v with agree := .proposing r l (nins acks h.src) ans since nv }) n) := by
  show execCeAck h r inc s = _
  simp only [execCeAck, hg, ha]
  exact if_pos ⟨trivial, by simpa using hm⟩

theorem busy_yields {c : Nat} (hc : rankOf (viewOf t n) c < rankOf (viewOf t n) t.devid) : exec (.busy h c) s =
    .next (modView (tellAll t n acks .abandon) n fun v => { v with agree := .changing c t.gtc }) := by
  show execBusy h c s = _
  simp only [execBusy, hg, ha]
  exact if_pos hc

theorem busy_noted {c : Nat} (hc : rankOf (viewOf t n) t.devid ≤ rankOf (viewOf t n) c) : Does (.busy h c) s fun e =>
    (viewOf e n).agree = .proposing r l acks (nins ans h.src) since nv ∧ SameMem t e := by
  refine ⟨_, ?_, answered_notes ha h.src⟩
  show execBusy h c s = _
  simp only [execBusy, hg, ha]
  exact if_neg (Nat.not_lt.2 hc)

theorem joinWait_noted : Does (.joinWait h r) s fun e =>
    (viewOf e n).agree = .proposing r l acks (nins ans h.src) since nv ∧ SameMem t e := by
  refine ⟨_, ?_, answered_notes ha h.src⟩
  show execJoinWait h r s = _
  simp only [execJoinWait, hg, ha]
  exact if_pos trivial

end

theorem exclude_leaves (hj : (viewOf t n).joining = false) (nv : Nat) :
    Does (.exclude h nv) s fun e => Leaves e n .excluded := by
  refine ⟨_, ?_, excludeSlot_leaves t n⟩
  show execExclude h nv s = _
  simp only [execExclude, hg, hj, Bool.false_eq_true, if_false]

/-- STALL of the coordinator, or of the candidate of an unbound member. -/
theorem stall_leaves {c since : Nat} (hs : (viewOf t n).st = .active ∨ (viewOf t n).st = .changing)
    (ha : (viewOf t n).agree = .bound h.src since ∨ Unbound t n c since ∧ candidate (viewOf t n) = h.src) (r : Nat) :
    Does (.stall h r) s fun e => Leaves e n .stalled := by
  refine ⟨_, ?_, stallSlot_leaves t n⟩
  show execStall h r s = _
  simp only [execStall, hg]
  refine if_pos ⟨hs, ?_⟩
  rcases ha with ha | ⟨ha | ha, hc⟩
  · simp [ha]
  · simp [ha, hc]
  · simp [ha, hc]

theorem fetch_answered : exec (.fetch h) s =
    .next (ceCtl t n h.src (.commit (viewOf t n).vid (viewOf t n).view)) := by
  show execFetch h s = _
  rw [execFetch, hg]

theorem abandon_unbinds {since : Nat} (hj : (viewOf t n).joining = false) (ha : (viewOf t n).agree = .bound h.src since) :
    exec (.abandon h) s = .next (changeTo t n) := by
  show execAbandon h s = _
  simp only [execAbandon, ceGateAs_of_ceGate hg, ha, if_true, unbind, hj, Bool.false_eq_true, if_false]

section
variable (hf : h.src ∉ (viewOf s n).fetching) {l : List Member}
include hf

/-- A COMMIT that no FETCH asked for. -/
theorem commit_unasked (nv : Nat) : exec (.commit h nv l) s =
    (if !inView l t.devid then .next (if (viewOf t n).joining then t else excludeSlot t n)
     else match (viewOf t n).agree with
      | .bound c _ => if c = h.src then .next (installView t n nv l) else .next (ceDiscard t n)
      | _ => .next (ceDiscard t n)) := by
  obtain ⟨hn, -⟩ := ceGate_some hg
  show execCommit h nv l s = _
  simp only [execCommit, hn, ceGateAs_of_ceGate hg]
  exact if_neg (by simp [hf])

theorem commit_installs {since : Nat} (hm : inView l t.devid = true) (ha : (viewOf t n).agree = .bound h.src since) (nv : Nat) :
    exec (.commit h nv l) s = .next (installView t n nv l) := by
  rw [commit_unasked hg hf]
  simp [hm, ha]

theorem commit_leaves (hj : (viewOf t n).joining = false) (hm : inView l t.devid = false) (nv : Nat) :
    Does (.commit h nv l) s fun e => Leaves e n .excluded := by
  refine ⟨_, ?_, excludeSlot_leaves t n⟩
  rw [commit_unasked hg hf]
  simp [hm, hj]

end

end

section
variable {s : State} {n : Nat}

/-- The COMMIT that answers a FETCH. -/
theorem commit_fetched {h : CeHdr} (hn : ceSlotOf s h.vid = some n) (hf : h.src ∈ (viewOf s n).fetching)
    (hi : incOf (viewOf s n) h.src = some h.inc) (l : List Member) :
    exec (.commit h h.vid l) s = .next (installView s n h.vid l) := by
  show execCommit h h.vid l s = _
  simp only [execCommit, hn]
  exact if_pos (by simp [hf, staleInc, hi])

/-! ## Timers (R80) -/

theorem suspectTimer_elects {c since : Nat} (hs : (viewOf s n).st = .changing) (ha : (viewOf s n).agree = .changing c since)
    (hg : since + 2000000 ≤ s.gtc) (hc : c ≠ s.devid) : exec (.suspectTimer n) s =
      .next (elect (modView s n fun v => { v with suspects := nins v.suspects c }) n) := by
  show execSuspectTimer n s = _
  simp only [execSuspectTimer, ha, if_neg hc]
  exact if_neg (by simp [hs, hg])

theorem boundTimeout_unbinds {c since : Nat} (ha : (viewOf s n).agree = .bound c since) (hj : (viewOf s n).joining = false)
    (hg : since + 2000000 ≤ s.gtc) : exec (.boundTimeout n) s =
      .next (changeTo (modView s n fun v => { v with suspects := nins v.suspects c }) n) := by
  show execBoundTimeout n s = _
  simp only [execBoundTimeout, ha, if_neg (Nat.not_lt.2 hg), unbind, viewOf_modView, hj, Bool.false_eq_true, if_false]

/-! ## The decision (R80, R81) -/

/-- Every listed member but this device has acknowledged. -/
theorem acked_iff {s : State} {l : List Member} {acks : List Nat} : (others s l).all acks.contains = true ↔
    ∀ m ∈ l, m.dev = s.devid ∨ m.dev ∈ acks := by
  simp [others, List.all_eq_true, or_iff_not_imp_left]

/-- The members of the view that stay. -/
def staying (v : ViewSlot) (l : List Member) : Nat := (v.view.filter fun m => inView l m.dev).length

/-- The devices of the view that a list omits. -/
def omitted (v : ViewSlot) (l : List Member) : List Nat := (v.view.filter fun m => !inView l m.dev).map Member.dev

section
variable {r since nv : Nat} {l : List Member} {acks ans : List Nat}
  (ha : (viewOf s n).agree = .proposing r l acks ans since nv)
include ha

theorem roundExpiry_proposes (hg : since + 1000000 ≤ s.gtc) : exec (.roundExpiry n) s =
    .next (proposeTo s n (r + 1) (l.filter fun m => m.dev == s.devid ||
      ((acks.contains m.dev || ans.contains m.dev) && !(viewOf s n).suspects.contains m.dev))) := by
  show execRoundExpiry n s = _
  simp only [execRoundExpiry, ha]
  exact if_neg (Nat.not_lt.2 hg)

theorem tryDecide_waits (hw : (∃ m ∈ l, m.dev ≠ s.devid ∧ m.dev ∉ acks) ∨ Waits s n l) : tryDecide s n = s := by
  simp only [tryDecide, ha]
  split
  · rfl
  · rename_i hall
    refine if_pos ?_
    refine waits_iff.1 (hw.resolve_left ?_)
    rintro ⟨m, hm, hne, hnot⟩
    exact (acked_iff.1 (by simpa using hall) m hm).elim hne hnot

variable (hall : ∀ m ∈ l, m.dev = s.devid ∨ m.dev ∈ acks) (hw : ¬Waits s n l)
include hall hw

theorem tryDecide_decides (hq : (viewOf s n).quorum = false ∨ (viewOf s n).view.length < 2 * staying (viewOf s n) l) :
    tryDecide s n =
      installView (tellAll (tellAll s n (others s l) (.commit nv l)) n (omitted (viewOf s n) l) (.exclude nv)) n nv l := by
  simp only [tryDecide, ha]
  rw [if_neg (by simp only [acked_iff.2 hall]; decide), if_neg (mt waits_iff.2 hw)]
  exact if_pos (by simpa [staying] using hq)

theorem tryDecide_stalls (hq : (viewOf s n).quorum = true) (hk : 2 * staying (viewOf s n) l ≤ (viewOf s n).view.length) :
    Leaves (tryDecide s n) n .stalled := by
  simp only [tryDecide, ha]
  rw [if_neg (by simp only [acked_iff.2 hall]; decide), if_neg (mt waits_iff.2 hw),
    if_neg (by simpa [hq, staying] using hk)]
  exact stallSlot_leaves _ n

end

end

/-! ## The install of a view (R80, R89, R93) -/

/-- A slot as it holds a new view. -/
def installed (v : ViewSlot) (vid : Nat) (list : List Member) (gtc stray : Nat) : ViewSlot :=
  let l := ranked list
  { v with
    st := .active, vid := vid, view := l, members := l.zipIdx.map fun p => (p.2, memberWord p.1), suspects := [],
    agree := .idle, beats := (l.map Member.dev).foldl (fun m d => fset m d gtc) [], lastBeat := gtc, joining := false,
    holdColl := false, fetching := [], known := l.foldl (fun m e => fset m e.dev e.inc) v.known, joins := [],
    hist := fset v.hist vid (l.map Member.dev),
    vdiscard := if v.joining then sat (v.vdiscard + stray) 32 else v.vdiscard }

/-- A context whose mask names the slot has VIEW_CHANGE pending. -/
def noticed (n : Nat) (c : Ctx) : Ctx :=
  if c.active && c.mtrapm.getLsbD n then { c with pendView := c.pendView ||| BitVec.ofNat 16 (2 ^ n) } else c

theorem viewTraps_unsaved {s : State} (h : s.saved = []) (n : Nat) :
    viewTraps s n = { s with ctxs := s.ctxs.map fun p => (p.1, noticed n p.2) } := by
  have hm : s.ctxs.map (fun (p : Nat × Ctx) => if p.2.active && p.2.mtrapm.getLsbD n
      then (p.1, { p.2 with pendView := p.2.pendView ||| BitVec.ofNat 16 (2 ^ n) }) else p) =
      s.ctxs.map fun p => (p.1, noticed n p.2) := List.map_congr_left fun p _ => by
    unfold noticed
    split <;> rfl
  simp only [viewTraps, h, List.foldl_nil, hm]

/-- Each of several devices has the same entry. -/
theorem fget_foldl_fset (g d : Nat) (l : List Nat) (m : FMap Nat) (h : d ∈ l ∨ fget m d = some g) :
    fget (l.foldl (fun m d => fset m d g) m) d = some g := by
  induction l generalizing m with
  | nil => exact h.resolve_left List.not_mem_nil
  | cons a l ih =>
    refine ih _ ?_
    by_cases hd : d = a
    · exact .inr (by rw [hd, fget_fset_self])
    · rw [fget_fset_ne _ _ _ _ hd]
      exact h.imp_left fun hm => (List.mem_cons.1 hm).resolve_left hd

theorem mem_ranked {m : Member} {l : List Member} : m ∈ ranked l ↔ m ∈ l := List.mem_mergeSort

theorem pairwise_ranked (l : List Member) : (ranked l).Pairwise fun a b => a.dev ≤ b.dev := by
  have h := List.pairwise_mergeSort (le := fun a b : Member => decide (a.dev ≤ b.dev))
    (fun a b c h1 h2 => by simp only [decide_eq_true_eq] at *; omega)
    (fun a b => by simp only [Bool.or_eq_true, decide_eq_true_eq]; omega) l
  exact h.imp fun h => of_decide_eq_true h

section
variable {s : State} {n : Nat} {l : List Member}

/-- A view installs at a slot without operations. -/
theorem installView_installs (hi : inView l s.devid = true) (hs : s.saved = []) (ho : ∀ o ∈ s.ceOps, o.slot ≠ n)
    (hp : ∀ o ∈ s.cePast, o.slot ≠ n) (vid : Nat) :
    viewOf (installView s n vid l) n = installed (viewOf s n) vid l s.gtc (strayEarly s n vid) ∧
    (installView s n vid l).ctxs = s.ctxs.map fun p => (p.1, noticed n p.2) := by
  have hne : ¬(!inView l s.devid) = true := by simp [hi]
  have hv := viewEvent_part (modView s n fun v => installed v vid l s.gtc (strayEarly s n vid)) n 2
    (rankOf (viewOf (modView s n fun v => installed v vid l s.gtc (strayEarly s n vid)) n) s.devid)
  have he : installView s n vid l = (viewOf s n).joins.foldl (fun u j => later u (.joinReq ⟨vid, j.dev, j.inc⟩ j.dev j.inc))
      (ceInstall (viewTraps (viewEvent (modView s n fun v => installed v vid l s.gtc (strayEarly s n vid)) n 2
        (rankOf (viewOf (modView s n fun v => installed v vid l s.gtc (strayEarly s n vid)) n) s.devid)) n) n) := if_neg hne
  rw [he]
  generalize viewEvent _ n 2 _ = t at hv ⊢
  have hview : t.views = (modView s n fun v => installed v vid l s.gtc (strayEarly s n vid)).views := (congrArg State.views hv :)
  have hsaved : t.saved = [] := ((congrArg State.saved hv :) : t.saved = s.saved).trans hs
  have hctxs : t.ctxs = s.ctxs := (congrArg State.ctxs hv :)
  have hops : t.ceOps = s.ceOps := (congrArg State.ceOps hv :)
  have hpast : t.cePast = s.cePast := (congrArg State.cePast hv :)
  rw [viewTraps_unsaved hsaved]
  obtain ⟨a, d, hc⟩ := ceInstall_quiet (s := { t with ctxs := t.ctxs.map fun p => (p.1, noticed n p.2) }) (n := n)
    (by rw [← hops] at ho; exact ho) (by rw [← hpast] at hp; exact hp)
  rw [hc]
  obtain ⟨g, hf⟩ := foldl_later_eq (fun j : Member => .joinReq ⟨vid, j.dev, j.inc⟩ j.dev j.inc) (viewOf s n).joins
    { t with ctxs := t.ctxs.map fun p => (p.1, noticed n p.2), ceEarly := a, ceDead := d }
  rw [hf]
  refine ⟨?_, congrArg (List.map fun p : Nat × Ctx => (p.1, noticed n p.2)) hctxs⟩
  show (fget t.views n).getD {} = _
  rw [hview]
  exact viewOf_modView s n _

theorem ctxOf_noticed {t : State} {k : Nat} (ht : t.ctxs = s.ctxs.map fun p => (p.1, noticed n p.2))
    (ha : (ctxOf s k).active = true) (hm : (ctxOf s k).mtrapm.getLsbD n = true) (hk : fget s.ctxs k = some (ctxOf s k)) :
    ctxOf t k = { ctxOf s k with pendView := (ctxOf s k).pendView ||| BitVec.ofNat 16 (2 ^ n) } := by
  rw [ctxOf, ht, fget_map, hk]
  exact if_pos (by simp [ha, hm])

end

/-- Settles O50: the table row by row, from what the slot agrees on; and the install at a slot without collectives. -/
theorem viewAgreement : Obligations.ViewAgreement := by
  unfold Obligations.ViewAgreement
  refine ⟨fun s t n x r nv since c inc h l ml acks ans => ?_, fun s n vid k l => ?_⟩
  · intro v u tells bind idle waits yields
    refine ⟨suspectTimer_elects, fun hg hj hs => ⟨fun hm hl => propose_excludes hg hj hs hm hl r nv,
      fun hm hl => ⟨fun ha => propose_countered hg hj hs hm hl ha r nv, fun ha => propose_left hg hj hs hm hl ha r nv⟩,
      fun hm => ⟨fun ha hc => propose_busy hg hj hs hm ha hc r nv, fun ha hl => propose_outranked hg hj hs ha hm hl r nv⟩,
      fun hm => ⟨fun hw => ?_, fun hw => ⟨fun ha => ?_, fun ha hl => ?_⟩⟩,
      fun ha => ⟨ceAck_counts hg ha, busy_yields hg ha, busy_noted hg ha, joinWait_noted hg ha⟩,
      abandon_unbinds hg hj, exclude_leaves hg hj nv, fun ha => stall_leaves hg hs ha r, fetch_answered hg,
      fun hf _ hm ha => commit_installs hg hf hm ha nv, fun hf _ hm => commit_leaves hg hf hj hm nv⟩,
      fun hn hf he hi => he ▸ commit_fetched hn hf hi l,
      fun ha => ⟨roundExpiry_proposes ha, tryDecide_waits ha, fun hall hw => ?_⟩, boundTimeout_unbinds⟩
    · refine ⟨fun ha => ?_, fun ha hl => ?_⟩
      · rw [propose_acked hg hj hs hm ha, ackOrWait_binds hw]
        rfl
      · rw [propose_yields hg hj hs ha hm hl, ackOrWait_binds (mt (waits_yielded _ _ _).1 hw), viewOf_yielded]
        rfl
    · obtain ⟨hv, he⟩ := ackOrWait_waits (h := h) hw r
      refine ⟨_, propose_acked hg hj hs hm (.inl ha) r nv, ?_⟩
      dsimp only
      rw [hv]
      exact ⟨rfl, rfl, fun hi => heldFor_idle hi _ _, fun hi => heldFor_changing hi _ _, he⟩
    · obtain ⟨hv, he⟩ := ackOrWait_waits (h := h) ((waits_yielded h.src acks l).2 hw) r
      refine ⟨_, propose_yields hg hj hs ha hm hl r nv, ?_⟩
      dsimp only
      rw [hv, gtc_yielded, viewOf_yielded]
      exact ⟨rfl, (heldFor_changing rfl _ _).trans (by rw [if_pos rfl]), fun a => (he a).trans (by rw [mem_yielded])⟩
    · have hw' : ¬Waits s n l := by
        rintro ⟨⟨m, hm, hnot⟩, hfl⟩
        rcases hw with hw | hw
        · exact hnot (hw m hm)
        · exact Bool.false_ne_true (hw.symm.trans hfl)
      exact ⟨tryDecide_decides ha hall hw', tryDecide_stalls ha hall hw'⟩
  · intro t v ho hp _
    refine ⟨fun hi hs => ?_, fun hi => ?_⟩
    · obtain ⟨hv, hc⟩ := installView_installs hi hs ho hp vid
      refine ⟨?_, ?_, ?_, ?_, fun m => ?_, ?_, ?_, ?_, ?_, fun m hm => ?_, ctxOf_noticed hc⟩
      all_goals simp only [v, t, hv]
      · rfl
      · rfl
      · rfl
      · exact pairwise_ranked l
      · exact mem_ranked
      · rfl
      · rfl
      · rfl
      · rfl
      · exact fget_foldl_fset _ _ _ _ (.inl (List.mem_map_of_mem (mem_ranked.2 hm)))
    · have he : t = excludeSlot s n := if_pos (by simp [hi])
      exact he ▸ excludeSlot_leaves s n

end Sys2Proof.Safety
end

section
/-!
SUPPORT. What inbound accesses rest on: walks, bytes read and written under a line's key, bytes of comb, and the answer to a
packet (R51, R63, R64, R219).
-/

namespace Sys2Proof.Machine

/-! ## Walks of an inbound range (R219) -/

/-- The state without what walks write. -/
def unwalked (s : State) : State := { unhoused s with fresh := 0 }

theorem unwalked_of_atHome {s t : State} (h : AtHome s t) : unwalked t = unwalked s :=
  congrArg (fun x : State => { x with fresh := 0 }) h.rest

theorem walkFill_unwalked (s : State) (asid va : Nat) : unwalked (walkFill s asid va) = unwalked s :=
  foldl_keeps unwalked _ (fun t line => by
    have h := unwalked_of_atHome (homeFor_atHome (draw t).2 line ((Config.freeWord (draw t).1).toNat % 4) 0 1)
    exact (unwalked_of_atHome (setHome_atHome _ _ _)).trans h) _ _

theorem inWalk_unwalked (s : State) (va n : Nat) : unwalked (inWalk s va n) = unwalked s :=
  foldl_keeps unwalked _ (fun t p => by
    split
    · rfl
    · exact walkFill_unwalked _ _ _) _ _

section
variable {s t : State} (h : unwalked t = unwalked s)
include h

theorem dies_of_unwalked : t.dies = s.dies := (congrArg State.dies h :)
theorem ctxs_of_unwalked : t.ctxs = s.ctxs := (congrArg State.ctxs h :)
theorem hbmLocal_of_unwalked : t.hbmLocal = s.hbmLocal := (congrArg State.hbmLocal h :)

end

/-! ## Answers (R51, R52) -/

/-- Ports, routes and the device's own id stand as before. -/
structure SameFabric (s t : State) : Prop where
  ports : t.ports = s.ports
  routes : t.routes = s.routes
  devid : t.devid = s.devid

theorem SameFabric.refl (s : State) : SameFabric s s := ⟨rfl, rfl, rfl⟩

theorem SameFabric.of_unwalked {s t : State} (h : unwalked t = unwalked s) : SameFabric s t :=
  ⟨(congrArg State.ports h :), (congrArg State.routes h :), (congrArg State.devid h :)⟩

theorem SameFabric.of_unwritten {s t : State} (h : unwritten t = unwritten s) : SameFabric s t :=
  ⟨(congrArg State.ports h :), (congrArg State.routes h :), (congrArg State.devid h :)⟩

theorem SameFabric.trans {s t u : State} (h : SameFabric s t) (h' : SameFabric t u) : SameFabric s u :=
  ⟨h'.ports.trans h.ports, h'.routes.trans h.routes, h'.devid.trans h.devid⟩

section
variable {s z : State} {p : Packet} {x : Nat} (hf : SameFabric s z)
include hf

/-- What is queued stands behind what the port held before. -/
theorem txq_of_sameFabric (k : Packet) : (portOf (txPut z x k) x).txq = (portOf s x).txq ++ [k] := by
  rw [portOf_txPut, portOf, hf.ports]
  rfl

variable (hs : p.source ≠ s.devid) (hr : routeOf s p.source = some (some x))
include hs hr

/-- The answer to a packet of another device with a route. -/
theorem answer_queues (kind : Nat) (data : List Byte) : answer z p kind data = txPut z x (Safety.answerOf s p kind data) := by
  have hz : routeOf z p.source = some (some x) := by
    rw [routeOf_congr hf.routes fun q => by rw [portOf, hf.ports]; rfl, hr]
  unfold answer Safety.answerOf
  simp only [hf.devid, if_neg hs, hz]

theorem refuse_queues (port cause : Nat) :
    refuse z port p cause = txPut z x (Safety.answerOf s p 7 (leBytes 16 cause)) := by
  have hz : routeOf z p.source = some (some x) := by
    rw [routeOf_congr hf.routes fun q => by rw [portOf, hf.ports]; rfl, hr]
  rw [refuse, if_neg (by rw [hf.devid]; exact hs), hz]
  exact answer_queues hf hs hr 7 (leBytes 16 cause)

end

/-! ## Bytes of comb (R63, R202) -/

/-- A part in comb is named by its cluster and offset. -/
theorem combKey_part {q : Part} (h : q.isComb = true) : combKey q.combCl q.combOff = q.pa := by
  have h := of_decide_eq_true h
  unfold combKey Part.combCl Part.combOff
  omega

theorem mem_combStore (s : State) (cl off : Nat) (bs : List Byte) :
    (combStore s cl off bs).mem = memWrite s.mem (combKey cl off) bs := rfl

theorem ctxs_combStore (s : State) (cl off : Nat) (bs : List Byte) : (combStore s cl off bs).ctxs = s.ctxs := rfl

theorem combStore_fabric (s : State) (cl off : Nat) (bs : List Byte) : SameFabric s (combStore s cl off bs) := ⟨rfl, rfl, rfl⟩

theorem cellOf_combStore (s : State) (cl off : Nat) (bs : List Byte) (i : Nat) :
    cellOf (combStore s cl off bs) cl i = cellOf s cl i := by
  unfold combStore
  extract_lets full
  rw [cellOf, clOf_modCl]
  rfl

/-- Bits of a run of ones. -/
theorem testBit_two_pow_sub {a b : Nat} (h : a ≤ b) (j : Nat) :
    (2 ^ b - 2 ^ a).testBit j = (decide (a ≤ j) && decide (j < b)) := by
  obtain ⟨c, rfl⟩ := Nat.exists_eq_add_of_le h
  rw [Nat.pow_add, ← Nat.mul_sub_one, Nat.testBit_two_pow_mul, Nat.testBit_two_pow_sub_one]
  by_cases hj : a ≤ j
  · simp only [hj, decide_true, Bool.true_and, decide_eq_decide]
    omega
  · simp [hj]

/-- The rows that a range of bytes covers. -/
theorem getLsbD_or_rows (v : BitVec 32) {a b : Nat} (h : a ≤ b) {j : Nat} (hj : j < 32) :
    (v ||| BitVec.ofNat 32 (2 ^ (b + 1) - 2 ^ a)).getLsbD j = (v.getLsbD j || (decide (a ≤ j) && decide (j ≤ b))) := by
  rw [BitVec.getLsbD_or, BitVec.getLsbD_ofNat, testBit_two_pow_sub (Nat.le_succ_of_le h)]
  simp [hj]

/-! ## Bytes under a line's own key (R45) -/

theorem readUnder_same {s : State} {key pa n : Nat} (hn : pa % 64 + n ≤ 64)
    (hk : fget s.keys key = some (lineKeyOf s (pa / 64))) : readUnder s key pa n = memRead s.mem pa n := by
  rw [← map_memGet_eq_memRead]
  refine List.map_congr_left fun i hi => ?_
  have hi := List.mem_range.1 hi
  have hl : (pa + i) / 64 = pa / 64 := by omega
  unfold byteUnder
  split
  · simp [hk, hl]
  · rfl

end Sys2Proof.Machine

namespace Sys2Proof.Safety

open Sys2Proof.Machine

/-! ## A store at home of a line that the L2 holds (R64, R69) -/

/-- A store at home, with FITS of the line's die raised to its timestamp. -/
def storedIn (s : State) (q : Part) (bs : List Byte) : State :=
  let x := homeStore s q 0 bs
  raiseFits x.2 (homeDie x.2 q.line) x.1

theorem homeDie_congr {s t : State} (h : t.hbmLocal = s.hbmLocal) (line : Nat) : homeDie t line = homeDie s line := by
  simp only [homeDie, sliceOf, stackOf, h]

theorem not_comb_of_hbm {q : Part} (h : isHbm q.pa = true) : q.isComb = false := by
  have h := of_decide_eq_true h
  exact decide_eq_false (by omega)

theorem storedIn_held {y : State} {q : Part} {h : Home} (hl : HeldLine y q h) {bs : List Byte} (hn : bs.length = q.n) :
    memRead (storedIn y q bs).mem q.pa q.n = bs ∧ SameMemBut y (storedIn y q bs) q.pa q.n ∧ SameFabric y (storedIn y q bs) ∧
    (storedIn y q bs).ctxs = y.ctxs ∧
    (dieOf (storedIn y q bs) (homeDie y q.line)).fits = max (dieOf y (homeDie y q.line)).fits (h.rts + 1) := by
  obtain ⟨hts, hm, -⟩ := homeStore_held hl 0 bs hn
  obtain ⟨hb, -, -, -, -, -, -, hw, -⟩ := hl
  have hb := of_decide_eq_true hb
  obtain ⟨hr, hu⟩ := homeStore_mem y q 0 (bs := bs) (by omega)
  unfold storedIn
  generalize homeStore y q 0 bs = x at hts hm hr hu ⊢
  have hd : homeDie x.2 q.line = homeDie y q.line := homeDie_congr (congrArg State.hbmLocal hu :) _
  have hdies : x.2.dies = y.dies := (congrArg State.dies hu :)
  refine ⟨hn ▸ hr, hm, ?_, (congrArg State.ctxs hu :), ?_⟩
  · obtain ⟨h1, h2, h3⟩ := SameFabric.of_unwritten hu
    exact ⟨h1, h2, h3⟩
  · dsimp only
    rw [raiseFits, hd, dieOf_modDie, dieOf, hdies, hts, Nat.zero_max]
    rfl

end Sys2Proof.Safety
end

section
/-!
CERTIFICATES. O47: packets that arrive (R63 to R69).
-/

namespace Sys2Proof.Safety

open Sys2Proof.Machine

/-! ## Answers and refusals (R67) -/

/-- The answer to a packet stands last in the queue of the port of its route. -/
def Sends (s t : State) (x : Nat) (p : Packet) (kind : Nat) (data : List Byte) : Prop :=
  (portOf t x).txq = (portOf s x).txq ++ [answerOf s p kind data]

/-- A packet is refused with a cause, and nothing performs. -/
def Refused (s y t : State) (x : Nat) (p : Packet) (cause : Nat) : Prop :=
  Sends s t x p 7 (leBytes 16 cause) ∧ SameMem y t ∧ t.ctxs = s.ctxs

section
variable {s : State} {x : Nat} {p : Packet} (hs : p.source ≠ s.devid) (hr : routeOf s p.source = some (some x))
include hs hr

theorem refuse_refuses {y : State} (hf : SameFabric s y) (hc : y.ctxs = s.ctxs) (port cause : Nat) :
    Refused s y (refuse y port p cause) x p cause := by
  rw [refuse_queues hf hs hr]
  exact ⟨txq_of_sameFabric hf _, fun a => rfl, hc⟩

theorem refuse_here (port cause : Nat) : Refused s s (refuse s port p cause) x p cause :=
  refuse_refuses hs hr (.refl s) rfl port cause

theorem answer_sends {z : State} (hf : SameFabric s z) (kind : Nat) (data : List Byte) :
    Sends s (answer z p kind data) x p kind data := by
  rw [answer_queues hf hs hr]
  exact txq_of_sameFabric hf _

theorem answer_keeps {z : State} (hf : SameFabric s z) (kind : Nat) (data : List Byte) :
    (answer z p kind data).mem = z.mem ∧ (answer z p kind data).ctxs = z.ctxs ∧ (answer z p kind data).dies = z.dies ∧
    (answer z p kind data).clusters = z.clusters := by
  rw [answer_queues hf hs hr]
  exact ⟨rfl, rfl, rfl, rfl⟩

/-- No inbound access performs while inbound traffic is off (R63). -/
theorem inbound_off (hi : s.inboundEn = false) (port : Nat) :
    ∀ j ∈ [Instr.inWrite port p, .inCput port p, .inAmoAdd port p, .inAmoSwap port p],
      Does j s fun t => Refused s s t x p 0x05 := by
  have h := refuse_here hs hr port 0x05
  simp only [List.forall_mem_cons, List.not_mem_nil, false_imp_iff, implies_true, and_true]
  refine ⟨⟨_, if_pos (by simp [hi]), h⟩, ⟨_, if_pos (by simp [hi]), h⟩, ⟨_, ?_, h⟩, ⟨_, ?_, h⟩⟩
  · exact congrArg Host.Outcome.next (if_pos (by simp [hi]))
  · exact congrArg Host.Outcome.next (if_pos (by simp [hi]))

end

/-! ## Inbound writes (R63, R64, R68, R107) -/

section
variable {s : State} {p : Packet} (hi : s.inboundEn = true)
include hi

theorem inWrite_waits {line : Nat}
    (hl : ((inPend s (p.addr.toNat % 2 ^ 48) p.data.length).orElse fun _ => waitsAhead s p) = some line) (port : Nat) :
    exec (.inWrite port p) s = .next (biWait s line (.inWrite port p)) := by
  show execInWrite port p s = _
  simp only [execInWrite, hi, hl, Bool.not_true, Bool.false_eq_true, if_false]

variable (hp : inPend s (p.addr.toNat % 2 ^ 48) p.data.length = none) (ha : waitsAhead s p = none)
include hp ha

theorem inWrite_stops {e : Trap} (he : inPieces s (p.addr.toNat % 2 ^ 48) p.data.length .write = .error e) (port : Nat) :
    exec (.inWrite port p) s =
      .next (refuse (inWalk s (p.addr.toNat % 2 ^ 48) p.data.length) port p e.cause) := by
  show execInWrite port p s = _
  simp only [execInWrite, hi, hp, ha, he, Option.orElse_none, Bool.not_true, Bool.false_eq_true, if_false]

/-- A write of one part that may perform does. -/
theorem inWrite_performs {q : Part} (hq : inPieces s (p.addr.toNat % 2 ^ 48) p.data.length .write = .ok [q])
    (hn : q.n = p.data.length) (h0 : q.at_ = 0)
    (hw : teWriteStop (inWalk s (p.addr.toNat % 2 ^ 48) p.data.length) (p.addr.toNat % 2 ^ 48) q = none) (port : Nat) :
    exec (.inWrite port p) s =
      .next (answer (inPut (inWalk s (p.addr.toNat % 2 ^ 48) p.data.length) q p.data) p 6 []) := by
  show execInWrite port p s = _
  simp only [execInWrite, hi, hp, ha, hq, hw, h0, hn, Option.orElse_none, Bool.not_true, Bool.false_eq_true, if_false,
    List.findSome?_cons, List.findSome?_nil, List.foldl_cons, List.foldl_nil, List.drop_zero, List.take_length]

end

theorem teWriteStop_comb {y : State} {va : Nat} {q : Part} (hc : q.isComb = true) (h0 : q.at_ = 0)
    (hok : combStoreOk y va q.combCl q.combOff q.n = .ok ()) : teWriteStop y va q = none := by
  rw [teWriteStop, if_pos hc, h0, Nat.add_zero, hok]

theorem teWriteStop_home {y : State} {q : Part} (hc : q.isComb = false) (hb : biBlocks y q.line = false) (va : Nat) :
    teWriteStop y va q = none := by
  simp [teWriteStop, hc, hb]

theorem inPut_home {q : Part} (hc : q.isComb = false) (y : State) (bs : List Byte) : inPut y q bs = storedIn y q bs :=
  if_neg (by simp [hc])

section
variable {s : State} {x : Nat} {p : Packet} {q : Part} (hs : p.source ≠ s.devid)
  (hr : routeOf s p.source = some (some x)) {y : State} (hy : unwalked y = unwalked s)
include hs hr hy

/-- A part in comb that may be written. -/
theorem inPut_comb (hc : q.isComb = true) (bs : List Byte) : let t := answer (inPut y q bs) p 6 []
    memRead t.mem q.pa bs.length = bs ∧ SameMemBut y t q.pa bs.length ∧ Sends s t x p 6 [] ∧ t.ctxs = s.ctxs := by
  intro t
  have he : inPut y q bs = combStore y q.combCl q.combOff bs := if_pos hc
  have hf : SameFabric s (inPut y q bs) := he ▸ (SameFabric.of_unwalked hy).trans (combStore_fabric _ _ _ _)
  obtain ⟨hm, hctx, -, -⟩ := answer_keeps hs hr hf 6 []
  have hmem : t.mem = memWrite y.mem q.pa bs := by rw [hm, he, mem_combStore, combKey_part hc]
  refine ⟨by rw [hmem, memRead_memWrite], fun a ha => ?_, answer_sends hs hr hf 6 [], hctx.trans ?_⟩
  · rw [hmem, memGet_memWrite_out _ _ _ _ (by omega)]
  · rw [he, ctxs_combStore]
    exact ctxs_of_unwalked hy

/-- A part of a line that the L2 holds, stored at home: its bytes, its answer, FITS. -/
theorem storedIn_answered {h : Home} (hl : HeldLine y q h) {bs : List Byte} (hn : bs.length = q.n) (kind : Nat)
    (data : List Byte) : let t := answer (storedIn y q bs) p kind data
    memRead t.mem q.pa q.n = bs ∧ SameMemBut y t q.pa q.n ∧ Sends s t x p kind data ∧ t.ctxs = s.ctxs ∧
    (dieOf t (homeDie s q.line)).fits = max (dieOf s (homeDie s q.line)).fits (h.rts + 1) := by
  intro t
  obtain ⟨h1, h2, h3, h4, h5⟩ := storedIn_held hl hn
  have hf : SameFabric s (storedIn y q bs) := (SameFabric.of_unwalked hy).trans h3
  obtain ⟨hm, hctx, hdies, -⟩ := answer_keeps hs hr hf kind data
  have hd : homeDie y q.line = homeDie s q.line := homeDie_congr (hbmLocal_of_unwalked hy) _
  have hdy : dieOf y (homeDie s q.line) = dieOf s (homeDie s q.line) := by
    rw [dieOf, dies_of_unwalked hy]; rfl
  refine ⟨by rw [hm]; exact h1, fun a ha => by rw [hm]; exact h2 a ha, answer_sends hs hr hf kind data,
    (hctx.trans h4).trans (ctxs_of_unwalked hy), ?_⟩
  rw [hd, hdy] at h5
  rw [← h5, dieOf, hdies]
  rfl

end

/-! ## Inbound CPUTs (R65, R213) -/

section
variable {s : State} {p : Packet} (hi : s.inboundEn = true)
include hi

/-- An inbound CPUT, case by case. -/
theorem exec_inCput (port : Nat) : exec (.inCput port p) s =
    (let h := fld p.addr.toNat 32 32
    let off := p.addr.toNat % 2 ^ 16
    let cl := handleCl h
    let k := cellOf s cl (handleIx h)
    let n := p.data.length
    if fld h 0 8 ≠ 0 ∨ !clusterOk cl then .next (refuse s port p 0x16)
    else if k.st ≠ .opn ∨ k.dlx ∨ k.cgen ≠ handleGen h then .next (refuse s port p 0x09)
    else if k.extent < off + n then .next (refuse s port p 0x18)
    else if spillBase s cl < k.base * 512 + off + n then .next (refuse s port p 0x05)
    else if n = 0 then .next (answer s p 6 [])
    else .next (answer (modCell (combStore s cl (k.base * 512 + off) p.data) cl (handleIx h) fun c =>
      { c with
        valid := c.valid ||| BitVec.ofNat 32 (2 ^ ((off + n - 1) / (k.pitch * 16) + 1) - 2 ^ (off / (k.pitch * 16))),
        cts := Nat.max c.cts (dieOf s (clDie cl)).fits }) p 6 [])) :=
  if_neg (by simp [hi])

end

/-- The cell an inbound CPUT names can be written. -/
def Live (k : Cell) (gen : Nat) : Prop := k.st = .opn ∧ k.dlx = false ∧ k.cgen = gen

section
variable {s : State} {x : Nat} {p : Packet} (hs : p.source ≠ s.devid) (hr : routeOf s p.source = some (some x))
  (hi : s.inboundEn = true)
include hs hr hi

theorem inCput_badTarget (h : fld (fld p.addr.toNat 32 32) 0 8 ≠ 0 ∨ clusterOk (handleCl (fld p.addr.toNat 32 32)) = false)
    (port : Nat) : Does (.inCput port p) s fun t => Refused s s t x p 0x16 :=
  ⟨_, (exec_inCput hi port).trans (if_pos (by simpa using h)), refuse_here hs hr port _⟩

variable (h0 : fld (fld p.addr.toNat 32 32) 0 8 = 0) {cl i : Nat} (hc : clusterOk cl = true)
  (hcl : cl = handleCl (fld p.addr.toNat 32 32)) (hix : i = handleIx (fld p.addr.toNat 32 32))
include h0 hc hcl hix

omit hs hr in
/-- An inbound CPUT of a handle that names a cell. -/
theorem inCput_named (port : Nat) : exec (.inCput port p) s =
    (let off := p.addr.toNat % 2 ^ 16
    let k := cellOf s cl i
    let n := p.data.length
    if k.st ≠ .opn ∨ k.dlx ∨ k.cgen ≠ handleGen (fld p.addr.toNat 32 32) then .next (refuse s port p 0x09)
    else if k.extent < off + n then .next (refuse s port p 0x18)
    else if spillBase s cl < k.base * 512 + off + n then .next (refuse s port p 0x05)
    else if n = 0 then .next (answer s p 6 [])
    else .next (answer (modCell (combStore s cl (k.base * 512 + off) p.data) cl i fun c =>
      { c with
        valid := c.valid ||| BitVec.ofNat 32 (2 ^ ((off + n - 1) / (k.pitch * 16) + 1) - 2 ^ (off / (k.pitch * 16))),
        cts := Nat.max c.cts (dieOf s (clDie cl)).fits }) p 6 [])) := by
  subst hcl hix
  exact (exec_inCput hi port).trans (if_neg (by simp [h0, hc]))

theorem inCput_notLive (hl : ¬Live (cellOf s cl i) (handleGen (fld p.addr.toNat 32 32))) (port : Nat) :
    Does (.inCput port p) s fun t => Refused s s t x p 0x09 := by
  refine ⟨_, (inCput_named hi h0 hc hcl hix port).trans (if_pos ?_), refuse_here hs hr port _⟩
  by_contra hn
  simp only [not_or, ne_eq, Decidable.not_not, Bool.not_eq_true] at hn
  exact hl hn

variable (hl : Live (cellOf s cl i) (handleGen (fld p.addr.toNat 32 32)))
include hl

omit hs hr in
/-- An inbound CPUT into a live cell. -/
theorem inCput_live (port : Nat) : exec (.inCput port p) s =
    (let off := p.addr.toNat % 2 ^ 16
    let k := cellOf s cl i
    let n := p.data.length
    if k.extent < off + n then .next (refuse s port p 0x18)
    else if spillBase s cl < k.base * 512 + off + n then .next (refuse s port p 0x05)
    else if n = 0 then .next (answer s p 6 [])
    else .next (answer (modCell (combStore s cl (k.base * 512 + off) p.data) cl i fun c =>
      { c with
        valid := c.valid ||| BitVec.ofNat 32 (2 ^ ((off + n - 1) / (k.pitch * 16) + 1) - 2 ^ (off / (k.pitch * 16))),
        cts := Nat.max c.cts (dieOf s (clDie cl)).fits }) p 6 [])) := by
  obtain ⟨h1, h2, h3⟩ := hl
  exact (inCput_named hi h0 hc hcl hix port).trans (if_neg (by simp [h1, h2, h3]))

theorem inCput_beyond (he : (cellOf s cl i).extent < p.addr.toNat % 2 ^ 16 + p.data.length) (port : Nat) :
    Does (.inCput port p) s fun t => Refused s s t x p 0x18 :=
  ⟨_, (inCput_live hi h0 hc hcl hix hl port).trans (if_pos he), refuse_here hs hr port _⟩

variable (he : p.addr.toNat % 2 ^ 16 + p.data.length ≤ (cellOf s cl i).extent)
include he

theorem inCput_spill (hb : ¬(cellOf s cl i).base * 512 + p.addr.toNat % 2 ^ 16 + p.data.length ≤ spillBase s cl) (port : Nat) :
    Does (.inCput port p) s fun t => Refused s s t x p 0x05 :=
  ⟨_, (inCput_live hi h0 hc hcl hix hl port).trans ((if_neg (Nat.not_lt.2 he)).trans (if_pos (Nat.not_le.1 hb))),
    refuse_here hs hr port _⟩

variable (hb : (cellOf s cl i).base * 512 + p.addr.toNat % 2 ^ 16 + p.data.length ≤ spillBase s cl)
include hb

theorem inCput_empty (hn : p.data.length = 0) (port : Nat) : Does (.inCput port p) s fun t =>
    Sends s t x p 6 [] ∧ SameMem s t ∧ t.ctxs = s.ctxs ∧ cellOf t cl i = cellOf s cl i := by
  obtain ⟨hm, hctx, -, hclu⟩ := answer_keeps hs hr (.refl s) 6 []
  refine ⟨_, (inCput_live hi h0 hc hcl hix hl port).trans
    ((if_neg (Nat.not_lt.2 he)).trans ((if_neg (Nat.not_lt.2 hb)).trans (if_pos hn))),
    answer_sends hs hr (.refl s) 6 [], fun a => by rw [hm], hctx, ?_⟩
  rw [cellOf, clOf, hclu]
  rfl

theorem inCput_writes (hn : 0 < p.data.length) (port : Nat) :
    let off := p.addr.toNat % 2 ^ 16
    let k := cellOf s cl i
    let a := combKey cl (k.base * 512 + off)
    Does (.inCput port p) s fun t => memRead t.mem a p.data.length = p.data ∧ SameMemBut s t a p.data.length ∧
      Sends s t x p 6 [] ∧ t.ctxs = s.ctxs ∧ (cellOf t cl i).cts = max k.cts (dieOf s (clDie cl)).fits ∧
      ∀ j < 32, (cellOf t cl i).valid.getLsbD j = (k.valid.getLsbD j ||
        (off / (k.pitch * 16) ≤ j && decide (j ≤ (off + p.data.length - 1) / (k.pitch * 16)))) := by
  intro off k a
  refine ⟨_, (inCput_live hi h0 hc hcl hix hl port).trans
    ((if_neg (Nat.not_lt.2 he)).trans ((if_neg (Nat.not_lt.2 hb)).trans (if_neg (by omega)))), ?_⟩
  have hf : SameFabric s (modCell (combStore s cl (k.base * 512 + off) p.data) cl i fun c =>
      { c with
        valid := c.valid ||| BitVec.ofNat 32 (2 ^ ((off + p.data.length - 1) / (k.pitch * 16) + 1) - 2 ^ (off / (k.pitch * 16))),
        cts := Nat.max c.cts (dieOf s (clDie cl)).fits }) := ⟨rfl, rfl, rfl⟩
  obtain ⟨hm, hctx, -, hclu⟩ := answer_keeps hs hr hf 6 []
  have hmem := hm.trans (mem_combStore s cl (k.base * 512 + off) p.data)
  have hcell := congrArg (fun m => (fget ((fget m cl).getD {}).cells i).getD {}) hclu
  have hcell' := hcell.trans ((cellOf_modCell _ cl i _).trans (by rw [cellOf_combStore]))
  refine ⟨by rw [hmem, memRead_memWrite], fun b hb => ?_, answer_sends hs hr hf 6 [], hctx, congrArg Cell.cts hcell',
    fun j hj => (congrArg (fun c : Cell => c.valid.getLsbD j) hcell').trans ?_⟩
  · rw [hmem, memGet_memWrite_out _ _ _ _ (by omega)]
  · exact getLsbD_or_rows _ (Nat.div_le_div_right (by omega)) hj

end

/-! ## Inbound atomics (R66) -/

section
variable {s : State} {x : Nat} {p : Packet} (hs : p.source ≠ s.devid) (hr : routeOf s p.source = some (some x))
  (hi : s.inboundEn = true)
include hs hr hi

/-- Width of an inbound AMO. -/
abbrev amoWidth (p : Packet) : Nat := leNat ((p.data.drop 8).take 1)

theorem inAmo_misaligned (hw : (amoWidth p ≠ 4 ∧ amoWidth p ≠ 8) ∨ p.addr.toNat % 2 ^ 48 % amoWidth p ≠ 0) (port : Nat)
    (op : AmoOp) (again : Instr) : Refused s s (inAmo s port p op again) x p 0x03 := by
  have he : inAmo s port p op again = refuse s port p 0x03 := (if_neg (by simp [hi])).trans (if_pos hw)
  exact he ▸ refuse_here hs hr port _

variable (hw : amoWidth p = 4 ∨ amoWidth p = 8) (ha : p.addr.toNat % 2 ^ 48 % amoWidth p = 0)
include hw ha

omit hs hr in
theorem inAmo_waits {line : Nat} (hl : inPend s (p.addr.toNat % 2 ^ 48) (amoWidth p) = some line) (port : Nat) (op : AmoOp)
    (again : Instr) : inAmo s port p op again = biWait s line again := by
  refine (if_neg (by simp [hi])).trans ((if_neg fun h => h.elim (fun h => hw.elim h.1 h.2) fun h => h ha).trans ?_)
  simp only [hl]

omit hs hr in
/-- An AMO of a line that the L2 holds performs at home. -/
theorem inAmo_performs {q : Part} {h : Home} (hp : inPend s (p.addr.toNat % 2 ^ 48) (amoWidth p) = none)
    (hq : inPieces s (p.addr.toNat % 2 ^ 48) (amoWidth p) .amo = .ok [q]) (hn : q.n = amoWidth p)
    (hl : HeldLine (inWalk s (p.addr.toNat % 2 ^ 48) (amoWidth p)) q h)
    (hb : biBlocks (inWalk s (p.addr.toNat % 2 ^ 48) (amoWidth p)) q.line = false) (port : Nat) (op : AmoOp) (again : Instr) :
    let y := inWalk s (p.addr.toNat % 2 ^ 48) (amoWidth p)
    let o := leNat (memRead y.mem q.pa (amoWidth p))
    inAmo s port p op again = answer (storedIn y q (leBytes (amoWidth p)
      (amoVal op (amoWidth p) o (wd (leNat (p.data.take 8))).toNat 0))) p 5 (leBytes 16 o) := by
  intro y o
  have hcomb := not_comb_of_hbm hl.1
  obtain ⟨hbm, -, -, hkey, hpo, hlat, hlat2, hfit, -, -⟩ := hl
  have hro : readUnder y q.key q.pa (amoWidth p) = memRead y.mem q.pa (amoWidth p) := readUnder_same (by omega) hkey
  refine (if_neg (by simp [hi])).trans ((if_neg fun h => h.elim (fun h => hw.elim h.1 h.2) fun h => h ha).trans ?_)
  simp only [hp, hq, hcomb, hbm, hb, lineDetect_none hlat hlat2, List.contains_eq_mem, hpo, decide_false, Bool.not_true,
    Bool.false_eq_true, if_false]
  show answer (storedIn y q (leBytes (amoWidth p) (amoVal op (amoWidth p) (leNat (readUnder y q.key q.pa (amoWidth p)))
    (wd (leNat (p.data.take 8))).toNat 0))) p 5 (leBytes 16 (leNat (readUnder y q.key q.pa (amoWidth p)))) = _
  rw [hro]

end

/-! ## Answers to packets of this device (R66 to R68) -/

/-- The cause stands in the low byte of TCAUSE. -/
theorem fld_tcause {cause : Nat} (hc : cause < 256) (m a b : Bool) :
    fld (wd (cause % 256 + b2n b * 256 + b2n m * 512 + b2n a * 1024)).toNat 0 8 = cause := by
  rw [wd, BitVec.toNat_ofNat, fld]
  omega

/-- A trap of an instruction of a context at U that its handler takes (R182). -/
theorem takeTrapAt_handled {u : State} {n : Nat} {t : Trap} (hu : (ctxOf u n).priv = .u) (ht : (ctxOf u n).tl = 0)
    (hv : (ctxOf u n).tvec ≠ 0) (hc : t.cause < 256) (hn : t.next = false) : let e := takeTrapAt u n t
    e.tags = u.tags ∧ e.mem = u.mem ∧ (ctxOf e n).tl = 1 ∧ (ctxOf e n).pc = (ctxOf u n).tvec ∧
    (ctxOf e n).tepc1 = (ctxOf u n).pc ∧ fld (ctxOf e n).tcause1.toNat 0 8 = t.cause ∧ (ctxOf e n).tval1 = wd t.tval ∧
    (ctxOf e n).wait = .none := by
  intro e
  have hother : ¬((ctxOf u n).priv = .s ∨ (ctxOf u n).tl = 2 ∨ ((ctxOf u n).tl = 0 ∧ (ctxOf u n).tvec = 0)) := by
    rintro (h | h | h)
    · simp [hu] at h
    · omega
    · exact hv h.2
  have htags : e.tags = u.tags := by
    simp only [e, takeTrapAt]
    rw [if_neg hother]
    rfl
  have hx : ctxOf e n = _ := takeTrapAt_tl0 u n t hu ht hv
  refine ⟨htags, (takeTrapAt_other u n t hother).1, ?_⟩
  simp only [hx, hn, Bool.false_eq_true, if_false, true_and, and_true]
  exact fld_tcause hc _ _ _

/-- The trap of an AMO that a NACK answers. -/
def nackTrap (s : State) (r : TagRec) (cause : Nat) : Trap :=
  { cause := cause, tval := nackTval r cause (Config.freeWord s.fresh).toNat, abnd := true }

/-- What the end of a wait makes of a context. -/
def woken (f : Wait → Bool) (c : Ctx) : Ctx := if f c.wait then { c with wait := .none } else c

/-- Contexts in a wait go on; another keeps what it holds. -/
theorem ctxOf_wakeIf {s : State} {n : Nat} {c : Ctx} (hc : fget s.ctxs n = some c) {f : Wait → Bool} (hf : f c.wait = false) :
    ctxOf (wakeIf s f) n = c := by
  have hm : s.ctxs.map (fun c => if f c.2.wait then (c.1, { c.2 with wait := .none }) else c) =
      s.ctxs.map fun c => (c.1, woken f c.2) := List.map_congr_left fun c _ => by
    unfold woken
    split <;> rfl
  rw [ctxOf, wakeIf, hm, fget_map, hc]
  exact if_neg (by simp [hf])

/-- The class of a unit's message. -/
theorem msgCls_mkMsg (s : State) (src : Nat) {cls kind : Nat} (h : cls < 4) (hk : kind < 16) (w1 w2 w3 : Word) :
    msgCls (mkMsg s src cls kind none w1 w2 w3) = cls := by
  show fld (msgHead src cls kind none).toNat 34 2 = cls
  simp only [msgHead, wd, BitVec.toNat_ofNat, fld]
  omega

section
variable {s : State} {n : Nat} {r : TagRec} {p : Packet} (hg : fget s.tags p.tag = some r) (hw : whereIs s r.issuer = some n)
include hw

theorem standOf_here : standOf s r.issuer = .at_ n := by rw [standOf, hw]

/-- One outstanding write of a context fewer. -/
theorem unackedDown_here (hc : (ctxOf s n).wait = .none) : let t := unackedDown s r.issuer
    ctxOf t n = { ctxOf s n with unacked := (ctxOf s n).unacked - 1 } ∧ t.tags = s.tags ∧ t.mem = s.mem ∧
      t.agenda = s.agenda := by
  have he : unackedDown s r.issuer = wakeIf (modCtx s n fun c => { c with unacked := c.unacked - 1 }) (· == .fenceSys) := by
    rw [unackedDown, standOf_here hw]
  rw [he]
  exact ⟨ctxOf_wakeIf (fget_fset_self _ _ _) (by simp [hc]), rfl, rfl, rfl⟩

include hg

theorem inAck_counts (hk : r.kind = .write ∨ r.kind = .rsd) (hc : (ctxOf s n).wait = .none) (port : Nat) :
    Does (.inAck port p) s fun t => t.tags = (tagDone s p.tag r).tags ∧ SameMem s t ∧
      ctxOf t n = { ctxOf s n with unacked := (ctxOf s n).unacked - 1 } := by
  refine ⟨unackedDown (tagDone s p.tag r) r.issuer, ?_, ?_⟩
  · show execInAck port p s = _
    obtain ⟨l, hl⟩ := tagDone_eq s p.tag r
    have hst : standOf (tagDone s p.tag r) r.issuer = .at_ n := standOf_here (by rw [hl]; exact hw)
    rcases hk with hk | hk <;> simp only [execInAck, hg, hk, ackWrite, hst]
  · obtain ⟨l, hl⟩ := tagDone_eq s p.tag r
    rw [hl]
    obtain ⟨h1, h2, h3, -⟩ := unackedDown_here (s := { s with tags := fdel s.tags p.tag, agenda := l }) hw hc
    exact ⟨h2, fun a => by rw [h3], h1⟩

/-- A NACK of a write: the message of R67. -/
theorem inNack_tells (hk : r.kind = .write ∨ r.kind = .rsd) (hc : (ctxOf s n).wait = .none) {port : Nat} (hp : port < 12) :
    Does (.inNack port p) s fun t => t.tags = (tagDone s p.tag r).tags ∧ SameMem s t ∧
      ctxOf t n = { ctxOf s n with unacked := (ctxOf s n).unacked - 1 } ∧
      ∃ m, Instr.messageDelivery r.issuer m none ∈ t.agenda ∧ (r.cls < 4 → msgCls m = r.cls) ∧ m.w1 = r.addr ∧
        m.w2 = wd (leNat (p.data.take 1) + r.dest * 2 ^ 16) ∧ m.w3 = wd s.gtc := by
  refine ⟨unackedDown (nackMessage (tagDone s p.tag r) port (leNat (p.data.take 1)) r) r.issuer, ?_, ?_⟩
  · show execInNack port p s = _
    rcases hk with hk | hk <;> simp only [execInNack, hg, hk]
  · obtain ⟨l, hl⟩ := tagDone_eq s p.tag r
    have hm (u : State) : nackMessage u port (leNat (p.data.take 1)) r = later u (.messageDelivery r.issuer
        (mkMsg u (unitSrc 5 port) r.cls 6 none r.addr (wd (leNat (p.data.take 1) + r.dest * 2 ^ 16)) (wd u.gtc)) none) := by
      simp only [nackMessage, if_pos hp]
      rfl
    rw [hm, hl]
    generalize hmm : mkMsg _ _ _ _ _ _ _ _ = m
    obtain ⟨h1, h2, h3, h4⟩ := unackedDown_here
      (s := later { s with tags := fdel s.tags p.tag, agenda := l } (.messageDelivery r.issuer m none)) hw hc
    refine ⟨h2, fun a => by rw [h3]; rfl, h1, m, ?_, fun hcls => ?_, ?_, ?_, ?_⟩
    · rw [h4]
      exact List.mem_append_right _ (List.mem_singleton_self _)
    · rw [← hmm, msgCls_mkMsg _ _ hcls (by decide)]
    · rw [← hmm]; rfl
    · rw [← hmm]; rfl
    · rw [← hmm]; rfl

section
variable {d w : Nat} (hk : r.kind = .amo d w) (hc : (ctxOf s n).wait = .remoteAmo p.tag d w)
include hk hc

theorem inAmoReply_completes (port : Nat) : exec (.inAmoReply port p) s =
    .next (modCtx (tagDone s p.tag r) n fun c =>
      (c.setX (Fin.ofNat 32 d) (amoRd w (leNat (p.data.take w)))).goto (c.pc + 4)) := by
  show execInAmoReply port p s = _
  obtain ⟨l, hl⟩ := tagDone_eq s p.tag r
  have hst : standOf (tagDone s p.tag r) r.issuer = .at_ n := standOf_here (by rw [hl]; exact hw)
  have hwt : (ctxOf (tagDone s p.tag r) n).wait = .remoteAmo p.tag d w := by rw [hl]; exact hc
  simp only [execInAmoReply, hg, hk, hst, hwt, if_true]

/-- The NACK of an AMO is the trap of the context that waits for it. -/
theorem inNack_amo {l : List Instr} (hl : tagDone s p.tag r = { s with tags := fdel s.tags p.tag, agenda := l }) (port : Nat) :
    exec (.inNack port p) s = .next (takeTrapAt { s with tags := fdel s.tags p.tag, agenda := l, fresh := s.fresh + 1 } n
      (nackTrap s r (leNat (p.data.take 1)))) := by
  have hst : standOf { s with tags := fdel s.tags p.tag, agenda := l, fresh := s.fresh + 1 } r.issuer = .at_ n :=
    standOf_here (s := { s with tags := fdel s.tags p.tag, agenda := l, fresh := s.fresh + 1 }) hw
  have hwt : (ctxOf { s with tags := fdel s.tags p.tag, agenda := l, fresh := s.fresh + 1 } n).wait = .remoteAmo p.tag d w := hc
  show execInNack port p s = _
  simp only [execInNack, hg, hk, hl, draw, amoTrapped, hst, hwt, if_true]
  rfl

/-- A NACK of an AMO of a context at U: a trap that ends its wait. -/
theorem inNack_traps (hu : (ctxOf s n).priv = .u) (ht : (ctxOf s n).tl = 0) (hv : (ctxOf s n).tvec ≠ 0) (port : Nat) :
    Does (.inNack port p) s fun t => t.tags = (tagDone s p.tag r).tags ∧ (ctxOf t n).tl = 1 ∧
      (ctxOf t n).pc = (ctxOf s n).tvec ∧ (ctxOf t n).tepc1 = (ctxOf s n).pc ∧
      fld (ctxOf t n).tcause1.toNat 0 8 = leNat (p.data.take 1) ∧
      (leNat (p.data.take 1) = 3 ∨ leNat (p.data.take 1) = 7 → (ctxOf t n).tval1 = wd (r.addr.toNat % 2 ^ 48)) ∧
      (ctxOf t n).wait = .none ∧ SameMem s t := by
  obtain ⟨l, hl⟩ := tagDone_eq s p.tag r
  have hcause : leNat (p.data.take 1) < 256 := by
    cases p.data with
    | nil => simp [leNat]
    | cons b bs => simp [leNat, b.isLt]
  obtain ⟨h1, h2, h3, h4, h5, h6, h7, h8⟩ := takeTrapAt_handled
    (u := { s with tags := fdel s.tags p.tag, agenda := l, fresh := s.fresh + 1 }) (n := n)
    (t := nackTrap s r (leNat (p.data.take 1))) hu ht hv hcause rfl
  refine ⟨_, inNack_amo hg hw hk hc hl port, h1.trans (by rw [hl]), h3, h4, h5, h6, fun h37 => h7.trans ?_, h8,
    fun a => by rw [h2]⟩
  rw [nackTrap, nackTval, if_pos h37]

end

end

/-- A packet without a tag outstanding. -/
theorem untagged_ignored {s : State} {p : Packet} (hg : fget s.tags p.tag = none) (port : Nat) :
    ∀ j ∈ [Instr.inAck port p, .inNack port p, .inAmoReply port p], exec j s = .next s := by
  simp only [List.forall_mem_cons, List.not_mem_nil, false_imp_iff, implies_true, and_true]
  refine ⟨?_, ?_, ?_⟩
  · show execInAck port p s = _; simp only [execInAck, hg]
  · show execInNack port p s = _; simp only [execInNack, hg]
  · show execInAmoReply port p s = _; simp only [execInAmoReply, hg]

/-! ## Messages (R69, R163) -/

/-- The message of a packet: REMOTE set, its class the packet's, its timestamp the largest FITS. -/
def inMsgOf (s : State) (p : Packet) : Msg :=
  let d (k : Nat) : Nat := leNat ((p.data.drop (8 * k)).take 8)
  let fits := max (max (dieOf s 0).fits (dieOf s 1).fits) (max (dieOf s 2).fits (dieOf s 3).fits)
  ⟨wd (setFld (setFld (setFld (d 0) 34 2 p.cls) 27 2 3) 0 24 fits), wd (d 1), wd (d 2), wd (d 3), p.source⟩

theorem inMsg_delivers (s : State) (port : Nat) (p : Packet) :
    exec (.inMsg port p) s = .next (deliver s (p.addr.toNat % 2 ^ 28) (inMsgOf s p) none) := by
  have hm : (List.range 4).foldl (fun m d => Nat.max m (dieOf s d).fits) 0 =
      max (max (dieOf s 0).fits (dieOf s 1).fits) (max (dieOf s 2).fits (dieOf s 3).fits) := by
    show max (max (max (max 0 _) _) _) _ = _
    rw [Nat.zero_max, Nat.max_assoc (max _ _)]
  show execInMsg port p s = _
  simp only [execInMsg, hm]
  rfl

/-- A message for a context with room in its mailbox enters it. -/
theorem deliver_enters {s : State} {n name : Nat} (hlt : name < 2 ^ 28) (hn : n = name % 2 ^ 15) (hh : holds s n name = true)
    (hf : fwdEntry s name = none) (hb : (ctxOf s n).mailbox.length < 8) (hsp : ∀ j, ∀ e ∈ (clOf s j).spill, e.dest ≠ name)
    (hw : (ctxOf s n).wait = .none) (m : Msg) :
    deliver s name m none = modCtx s n fun d => { d with mailbox := d.mailbox ++ [m] } := by
  have hspill (k : Nat) : ((clOf s k).spill.any (·.dest == name)) = false :=
    List.any_eq_false.2 fun e he => by simpa using hsp k e he
  have hput : mailPut s n m = modCtx s n fun d => { d with mailbox := d.mailbox ++ [m] } := by
    rw [mailPut, mailWake]
    simp only [ctxOf_modCtx, hw]
    rfl
  unfold deliver
  simp only [Nat.mod_eq_of_lt hlt, hf, show name % 32768 = n from hn.symm, deliverAt, hh, hspill, hb, if_true]
  exact (if_pos (by simp)).trans hput

/-- Settles O47: an inbound access by its checks, performed at home or in comb and answered; an answer by the tag it names. -/
theorem inboundPackets : Obligations.InboundPackets := by
  unfold Obligations.InboundPackets
  intro s port x n cl i p q h r op again va w c sends refused raised hn off k len
  refine ⟨fun hs hr => ⟨fun hi => inbound_off hs hr hi port, fun hi => ⟨fun line hl => inWrite_waits hi hl port,
    fun hp ha => ?_,
    fun hb => inCput_badTarget hs hr hi hb port, fun h0 hc hcl hix => ?_, fun hop => ?_⟩⟩, fun hg hw => ?_,
    fun hg => untagged_ignored hg port, ?_⟩
  · have hy := inWalk_unwalked s va len
    refine ⟨fun hq hqn h0 => ⟨fun hc hok => ?_, fun hc hl hb => ?_⟩, fun e he =>
      ⟨_, inWrite_stops hi hp ha he port, refuse_refuses hs hr (.of_unwalked hy) (ctxs_of_unwalked hy) port e.cause⟩⟩
    · exact ⟨_, inWrite_performs hi hp ha hq hqn h0 (teWriteStop_comb hc h0 hok) port, inPut_comb hs hr hy hc p.data⟩
    · refine ⟨_, inWrite_performs hi hp ha hq hqn h0 (teWriteStop_home hc hb va) port, ?_⟩
      obtain ⟨h1, h2, h3, h4, h5⟩ := storedIn_answered hs hr hy hl hqn.symm 6 []
      rw [hqn] at h1 h2
      rw [inPut_home hc]
      exact ⟨h1, h2, h3, h4, h5⟩
  · replace hc : clusterOk cl = true := by rw [hcl]; exact hc
    exact ⟨fun hl => inCput_notLive hs hr hi h0 hc hcl hix hl port,
      fun hl he => inCput_beyond hs hr hi h0 hc hcl hix hl he port,
      fun hl he hb => inCput_spill hs hr hi h0 hc hcl hix hl he hb port,
      fun hl he hb hz => inCput_empty hs hr hi h0 hc hcl hix hl he hb hz port,
      fun hl he hb hz => inCput_writes hs hr hi h0 hc hcl hix hl he hb hz port⟩
  · have hx : exec again s = .next (inAmo s port p op again) := by
      rcases hop with ⟨rfl, rfl⟩ | ⟨rfl, rfl⟩ <;> rfl
    refine ⟨fun hw => ⟨_, hx, inAmo_misaligned hs hr hi hw port op again⟩,
      fun hw ha line hl => hx.trans (congrArg _ (inAmo_waits hi hw ha hl port op again)), fun hw ha hp hq hqn hl _ hb => ?_⟩
    obtain ⟨h1, h2, h3, h4, h5⟩ := storedIn_answered hs hr (inWalk_unwalked s va w) hl
      (bs := leBytes w (amoVal op w (leNat (memRead (inWalk s va w).mem q.pa w)) (wd (leNat (p.data.take 8))).toNat 0))
      (by rw [leBytes_length, hqn]) 5 (leBytes 16 (leNat (memRead (inWalk s va w).mem q.pa w)))
    rw [hqn] at h1 h2
    exact ⟨_, hx.trans (congrArg _ (inAmo_performs hi hw ha hp hq hqn hl hb port op again)), h1, h2, h3, h5, h4⟩
  · exact ⟨fun hk hc => ⟨inAck_counts hg hw hk hc port, fun hp => inNack_tells hg hw hk hc hp⟩,
      fun d wd' hk hc => ⟨inAmoReply_completes hg hw hk hc port, fun hu ht hv => inNack_traps hg hw hk hc hu ht hv port⟩⟩
  · intro d fits m name
    have hd := inMsg_delivers s port p
    have hlt : name < 2 ^ 28 := Nat.mod_lt _ (by decide)
    exact ⟨hd, fun h1 h2 h3 h4 h5 h6 => hd.trans (congrArg _ (deliver_enters hlt h1 h2 h3 h4 h5 h6 _))⟩

end Sys2Proof.Safety
end

section
/-!
SUPPORT. The end of a wait by a trap, and the AMOs of a context at the banks (R181, R182, R206, R334).
-/

namespace Sys2Proof.Machine

/-! ## A wait is given up (R168, R196) -/

/-- A context that has given up its wait without effect. -/
def Ctx.unwaiting (c : Ctx) : Ctx := { c with wait := .none, waitSince := none, parked := false, fencing := false, pledge := none }

/-- The cluster without the requests of a slot at its full/empty words. -/
def withoutFe (n : Nat) (c : Cluster) : Cluster := { c with fe := c.fe.filter (·.cxa != n) }

/-- The AMO is one that the context of a slot waits for. -/
def DefSig.ofSlot (n : Nat) (d : DefSig) : Bool := match d.who with | .ctx m _ => m == n | _ => false

/-- The cluster without the AMOs that the context of a slot waits for. -/
def withoutAmos (n : Nat) (c : Cluster) : Cluster := { c with defer := c.defer.filter (!·.ofSlot n) }

/-- An AMO whose result a slot no longer waits for. -/
def DefSig.disowned (n : Nat) (d : DefSig) : DefSig := match d.who with
  | .ctx m _ => if m = n then { d with who := .nobody } else d
  | _ => d

/-- The cluster in which a slot waits for the result of no AMO. -/
def disownAmos (n : Nat) (c : Cluster) : Cluster := { c with defer := c.defer.map (·.disowned n) }

/-- Every listed cluster changes. -/
def mapCl (s : State) (f : Cluster → Cluster) : State := { s with clusters := s.clusters.map fun p => (p.1, f p.2) }

section
variable {s : State} {n : Nat}

theorem leaveWait_fe {va : Nat} (h : (ctxOf s n).wait = .fe va) :
    leaveWait s n = mapCl (modCtx s n Ctx.unwaiting) (withoutFe n) := by
  simp only [leaveWait, h]; rfl

theorem leaveWait_send {d : Nat} {m : Msg} {f : Bool} (h : (ctxOf s n).wait = .send d m f) :
    leaveWait s n = modCtx s n Ctx.unwaiting := by
  simp only [leaveWait, h]; rfl

theorem leaveWait_launch {cl : Nat} {r : LRec} {f : Bool} (h : (ctxOf s n).wait = .launch cl r f) :
    leaveWait s n = modCtx s n Ctx.unwaiting := by
  simp only [leaveWait, h]; rfl

theorem leaveWait_combAmo {rd w va : Nat} (h : (ctxOf s n).wait = .combAmo rd w va) :
    leaveWait s n = mapCl (modCtx s n Ctx.unwaiting) (disownAmos n) := by
  simp only [leaveWait, h]; rfl

end

/-! ## Banks in which no AMO waits for a place (R206) -/

/-- A bank fills no place where every AMO of the cluster has one. -/
theorem deferFill_of_entered {s : State} {cl : Nat} (h : ∀ d ∈ (clOf s cl).defer, d.entered = true) (bank k : Nat) :
    deferFill s cl bank k = s := by
  cases k with
  | zero => rfl
  | succ k =>
    have hf : (clOf s cl).defer.find? (fun e => bankOf e.off == bank && !e.entered) = none :=
      List.find?_eq_none.2 fun d hd => by simp [h d hd]
    simp only [deferFill, hf]

/-- What every listed cluster has, and the cluster of reset, a cluster of any number has. -/
theorem clOf_of_all {s : State} {P : Cluster → Prop} (h : ∀ e ∈ s.clusters, P e.2) (h0 : P {}) (cl : Nat) : P (clOf s cl) := by
  unfold clOf
  cases hc : fget s.clusters cl with
  | none => exact h0
  | some c => exact h (cl, c) (mem_of_fget hc)

/-- An AMO that leaves banks in which every other has a place lets none in. -/
theorem dropDeferred_of_entered {s : State} (h : ∀ e ∈ s.clusters, ∀ d ∈ e.2.defer, d.entered = true) (n : Nat) :
    dropDeferred s n = mapCl s (withoutAmos n) := by
  have hall : ∀ e ∈ (mapCl s (withoutAmos n)).clusters, ∀ d ∈ e.2.defer, d.entered = true := by
    intro e he d hd
    obtain ⟨p, hp, rfl⟩ := List.mem_map.1 he
    exact h p hp d (List.mem_filter.1 hd).1
  have hdef : ∀ cl, ∀ d ∈ (clOf (mapCl s (withoutAmos n)) cl).defer, d.entered = true :=
    clOf_of_all (P := fun c => ∀ d ∈ c.defer, d.entered = true) hall nofun
  have hfold (l : List (Nat × Nat)) :
      l.foldl (fun u g => deferRefill u g.1 g.2) (mapCl s (withoutAmos n)) = mapCl s (withoutAmos n) := by
    induction l with
    | nil => rfl
    | cons g l ih =>
      rw [List.foldl_cons, deferRefill, deferFill_of_entered (hdef g.1), ih]
  exact hfold _

/-- No AMO is of a slot that has none. -/
theorem withoutAmos_who {n : Nat} {c : Cluster} {d : DefSig} (h : d ∈ (withoutAmos n c).defer) (x : Nat) : d.who ≠ .ctx n x := by
  intro hw
  have := (List.mem_filter.1 h).2
  simp [DefSig.ofSlot, hw] at this

theorem disowned_who {n m x : Nat} {d : DefSig} (h : d.who ≠ .ctx m x) : (d.disowned n).who ≠ .ctx m x := by
  unfold DefSig.disowned
  split
  · split
    · nofun
    · exact h
  · exact h

/-! ## The trap -/

/-- A trap that its context can take changes that context alone. -/
theorem takeTrapAt_modCtx {s : State} {n : Nat} (t : Trap) (hp : (ctxOf s n).priv = .u) (hl : (ctxOf s n).tl = 0)
    (hv : (ctxOf s n).tvec ≠ 0) : ∃ f, takeTrapAt s n t = modCtx s n f := by
  have hc : ¬((ctxOf s n).priv = .s ∨ (ctxOf s n).tl = 2 ∨ ((ctxOf s n).tl = 0 ∧ (ctxOf s n).tvec = 0)) := by
    rintro (h | h | h)
    · simp [hp] at h
    · omega
    · exact hv h.2
  exact ⟨_, if_neg hc⟩

end Sys2Proof.Machine

namespace Sys2Proof.Safety

open Sys2Proof.Machine

/-- The context of a slot can take a trap at TL0. -/
def CanTrapAt (s : State) (n : Nat) : Prop := (ctxOf s n).priv = .u ∧ (ctxOf s n).tl = 0 ∧ (ctxOf s n).tvec ≠ 0

/-- A trap with ABND ends the wait of a context (R181, R182). -/
def EndsInTrap (s t : State) (n cause tval : Nat) : Prop :=
  let c := ctxOf s n
  (ctxOf t n).tl = 1 ∧ (ctxOf t n).tepc1 = c.pc ∧ (ctxOf t n).tval1 = wd tval ∧
    (ctxOf t n).tcause1 = wd (cause + 512 * b2n c.mhInh + 1024) ∧ (ctxOf t n).pc = c.tvec ∧ (ctxOf t n).wait = .none ∧
    (∀ r, (ctxOf t n).getX r = c.getX r) ∧ SameMem s t

/-- A context leaves nothing behind of what it was about to send (R152). -/
def Unsent (s t : State) (n : Nat) : Prop :=
  (ctxOf t n).pledge = none ∧ (ctxOf t n).lastC0 = (ctxOf s n).lastC0 ∧ (ctxOf t n).nxtdl = (ctxOf s n).nxtdl

/-- A trap of a context that has given up its wait. -/
theorem takeTrapAt_ends_wait {s u : State} {n cause : Nat} (hc : CanTrapAt s n) (hu : ctxOf u n = (ctxOf s n).unwaiting)
    (hm : u.mem = s.mem) (h8 : cause < 256) (tval : Nat) : let t := takeTrapAt u n { cause := cause, tval := tval, abnd := true }
    EndsInTrap s t n cause tval ∧ Unsent s t n ∧ t.clusters = u.clusters := by
  intro t
  obtain ⟨hp, hl, hv⟩ := hc
  have hp' : (ctxOf u n).priv = .u := by rw [hu]; exact hp
  have hl' : (ctxOf u n).tl = 0 := by rw [hu]; exact hl
  have hv' : (ctxOf u n).tvec ≠ 0 := by rw [hu]; exact hv
  have hx : ctxOf t n = _ := takeTrapAt_tl0 u n _ hp' hl' hv'
  have hcode : cause % 256 + b2n false * 256 + b2n (ctxOf s n).mhInh * 512 + b2n true * 1024 =
      cause + 512 * b2n (ctxOf s n).mhInh + 1024 := by
    simp only [b2n, Bool.false_eq_true, if_false, if_true]
    omega
  obtain ⟨f, hf⟩ := takeTrapAt_modCtx { cause := cause, tval := tval, abnd := true } hp' hl' hv'
  rw [hu] at hx
  have hmem : t.mem = s.mem := (congrArg State.mem hf :).trans hm
  refine ⟨?_, ?_, (congrArg State.clusters hf :)⟩
  · refine ⟨by rw [hx], by rw [hx]; rfl, by rw [hx], ?_, by rw [hx]; rfl, by rw [hx], fun r => by rw [hx]; rfl,
      fun a => by rw [hmem]⟩
    rw [hx]
    exact congrArg wd hcode
  · exact ⟨by rw [hx], by rw [hx]; rfl, by rw [hx]; rfl⟩

end Sys2Proof.Safety
end

section
/-!
CERTIFICATES. Timers (R128, R129, R169, R171, R206, R212, R238, R334).
-/

namespace Sys2Proof.Machine

/-! ## What the timers run -/

theorem exec_deadline (s : State) (n : Nat) : exec (.deadline n) s = execDeadline n s := rfl
theorem exec_feTimeout (s : State) (n : Nat) : exec (.feTimeout n) s = execFeTimeout n s := rfl
theorem exec_sendTimeout (s : State) (n : Nat) : exec (.sendTimeout n) s = execSendTimeout n s := rfl
theorem exec_deferredSignalTimeout (s : State) (n : Nat) :
    exec (.deferredSignalTimeout n) s = execDeferredSignalTimeout n s := rfl
theorem exec_cellDeadlineExpiry (s : State) (cl i : Nat) :
    exec (.cellDeadlineExpiry cl i) s = execCellDeadlineExpiry cl i s := rfl
theorem exec_timerSealPostRetry (s : State) (cl i : Nat) :
    exec (.timerSealPostRetry cl i) s = execTimerSealPostRetry cl i s := rfl

/-- A timestamp below the limit of R252 starts no rebase. -/
theorem tsCheck_low (s : State) {ts : Nat} (h : ts < 0xE00000) : tsCheck s ts = s := if_pos h

theorem waitedFor_of_le {s : State} {n limit g : Nat} (hs : (ctxOf s n).waitSince = some g) (h : g + limit ≤ cycOf s n) :
    waitedFor s n limit = true := by
  simpa only [waitedFor, hs, decide_eq_true_eq] using h

theorem deadlineDue_of_le {s : State} {dl : DeadlineRec} (hd : dl.done = false) (h : dl.gtc ≤ s.gtc) :
    deadlineDue s (some dl) = some dl := by
  simp [deadlineDue, Option.filter, hd, h]

/-- A deadline record leaves every context. -/
theorem ctxOf_deadlineRecord (s : State) (name src gtc : Nat) (tag : Word) (late trapped : Bool) (n : Nat) :
    ctxOf (deadlineRecord s name src gtc tag late trapped) n = ctxOf s n := by
  have h : (deadlineRecord s name src gtc tag late trapped).ctxs = s.ctxs :=
    (congrArg State.ctxs (eventBytes_keeps s _).rest :)
  rw [ctxOf, h, ctxOf]

end Sys2Proof.Machine

namespace Sys2Proof.Safety

open Sys2Proof.Machine

/-! ## Counters and deadlines of a context (R128, R129, R169, R238) -/

section
variable {s : State} {n : Nat}

theorem driftTick_raises (ha : (ctxOf s n).active = true) (hd : 1024 ≤ (ctxOf s n).drift) (hp : (ctxOf s n).pts + 1 < 0xE00000) :
    exec (.driftTick n) s = .next (modCtx s n fun c => { c with drift := c.drift - 1024, pts := c.pts + 1 }) := by
  have hn : ¬(!(ctxOf s n).active || decide ((ctxOf s n).drift < 1024)) = true := by simpa [ha] using hd
  exact (if_neg hn).trans (congrArg _ (tsCheck_low _ hp))

theorem msgmaskOverrun_clears (ha : (ctxOf s n).active = true) (hm : (ctxOf s n).mhMask = true) (h : 4096 ≤ (ctxOf s n).masked) :
    exec (.msgmaskOverrun n) s =
      .next (modCtx s n fun c => { c with mhMask := false, masked := 0, pendMask := true }) :=
  if_neg (by simpa [ha, hm] using h)

/-- The record of a deadline that is not late (R128). -/
def deadlineBytes (s : State) (c : Ctx) (dl : DeadlineRec) : List Byte :=
  record 64 [(0, 8, s.gtc), (8, 2, c.nameCxa % 32768), (10, 2, s.devid), (12, 1, 0x21), (16, 4, nameOf c), (20, 1, 2 * b2n dl.trap),
    (24, 8, dl.gtc), (32, 8, c.tag.toNat)]

theorem deadlineRecord_eq (s : State) (c : Ctx) (dl : DeadlineRec) :
    deadlineRecord s (nameOf c) (c.nameCxa % 32768) dl.gtc c.tag false dl.trap = eventBytes s (deadlineBytes s c dl) := by
  rw [deadlineRecord, show b2n false + 2 * b2n dl.trap = 2 * b2n dl.trap from Nat.zero_add _]
  rfl

theorem deadline_records {dl : DeadlineRec} (ha : (ctxOf s n).active = true) (hs : fget s.saved n = none)
    (hd : (ctxOf s n).deadline = some dl) (hdone : dl.done = false) (hg : dl.gtc ≤ s.gtc) : Does (.deadline n) s fun t =>
      ctxOf t n = { ctxOf s n with deadline := some { dl with done := true }, pendDl := (ctxOf s n).pendDl || dl.trap } ∧
      (s.evq.en = false → s.evq.held.length < 256 → s.evq.dropped = 0 →
        t.evq.held = s.evq.held ++ [deadlineBytes s (ctxOf s n) dl]) := by
  have hc : deadlineCtx s n = modCtx (deadlineRecord s (nameOf (ctxOf s n)) ((ctxOf s n).nameCxa % 32768) dl.gtc (ctxOf s n).tag
      false dl.trap) n fun c => { c with deadline := some { dl with done := true }, pendDl := c.pendDl || dl.trap } := by
    simp only [deadlineCtx, ha, if_true, hd, deadlineDue_of_le hdone hg]
  have hsv : fget (deadlineCtx s n).saved n = none := by
    rw [hc, deadlineRecord_eq]
    exact (congrArg (fget · n) (congrArg State.saved (eventBytes_keeps s _).rest :)).trans hs
  have he : exec (.deadline n) s = .next (deadlineCtx s n) := by
    rw [exec_deadline, execDeadline, deadlineSaved, hsv]
  refine ⟨_, he, ?_, fun hen hlen _ => ?_⟩
  · rw [hc, ctxOf_modCtx, ctxOf_deadlineRecord]
  · rw [hc, deadlineRecord_eq, eventBytes_held s _ hen hlen]
    rfl

end

/-! ## Waits at their limit (R171, R206, R334) -/

section
variable {s : State} {n g : Nat} (hc : CanTrapAt s n) (hs : (ctxOf s n).waitSince = some g)
include hc hs

theorem feTimeout_traps {va : Nat} (hw : (ctxOf s n).wait = .fe va) (hg : g + 2 ^ 20 ≤ cycOf s n) :
    Does (.feTimeout n) s fun t => EndsInTrap s t n 0x07 va ∧ ∀ e ∈ t.clusters, ∀ r ∈ e.2.fe, r.cxa ≠ n := by
  have he : exec (.feTimeout n) s = .next (takeTrapAt (leaveWait s n) n { cause := 0x07, tval := va, abnd := true }) := by
    simp only [exec_feTimeout, execFeTimeout, hw, waitedFor_of_le hs hg, if_true]
  rw [leaveWait_fe hw] at he
  obtain ⟨htrap, -, hcl⟩ := takeTrapAt_ends_wait (u := mapCl (modCtx s n Ctx.unwaiting) (withoutFe n)) hc (ctxOf_modCtx _ _ _) rfl
    (by decide : 0x07 < 256) va
  refine ⟨_, he, htrap, fun e hm r hr => ?_⟩
  rw [hcl] at hm
  obtain ⟨p, -, rfl⟩ := List.mem_map.1 hm
  simpa using (List.mem_filter.1 hr).2

theorem sendTimeout_send {d : Nat} {m : Msg} {f : Bool} (hw : (ctxOf s n).wait = .send d m f) (hg : g + 2 ^ 16 ≤ cycOf s n) :
    Does (.sendTimeout n) s fun t => EndsInTrap s t n 0x08 d ∧ Unsent s t n := by
  have he : exec (.sendTimeout n) s = .next (takeTrapAt (leaveWait s n) n { cause := 0x08, tval := d, abnd := true }) := by
    simp only [exec_sendTimeout, execSendTimeout, waitedFor_of_le hs hg, hw, Bool.not_true, Bool.false_eq_true, if_false]
  rw [leaveWait_send hw] at he
  obtain ⟨htrap, hun, -⟩ := takeTrapAt_ends_wait hc (ctxOf_modCtx _ _ _) rfl (by decide : 0x08 < 256) d
  exact ⟨_, he, htrap, hun⟩

theorem sendTimeout_named {cl : Nat} {r : LRec} {f : Bool} (hw : (ctxOf s n).wait = .launch cl r f) (hr : r.form = .named)
    (hg : g + 2 ^ 16 ≤ cycOf s n) : Does (.sendTimeout n) s fun t => EndsInTrap s t n 0x08 r.target ∧ Unsent s t n := by
  have he : exec (.sendTimeout n) s = .next (takeTrapAt (leaveWait s n) n { cause := 0x08, tval := r.target, abnd := true }) := by
    simp only [exec_sendTimeout, execSendTimeout, waitedFor_of_le hs hg, hw, hr, Bool.not_true, Bool.false_eq_true, if_false, if_true]
  rw [leaveWait_launch hw] at he
  obtain ⟨htrap, hun, -⟩ := takeTrapAt_ends_wait hc (ctxOf_modCtx _ _ _) rfl (by decide : 0x08 < 256) r.target
  exact ⟨_, he, htrap, hun⟩

theorem deferredSignalTimeout_traps {rd w va : Nat} (hw : (ctxOf s n).wait = .combAmo rd w va) (hg : g + 2 ^ 20 ≤ cycOf s n)
    (hd : ∀ e ∈ s.clusters, ∀ d ∈ e.2.defer, d.entered = true) : Does (.deferredSignalTimeout n) s fun t =>
      EndsInTrap s t n 0x07 va ∧ ∀ e ∈ t.clusters, ∀ d ∈ e.2.defer, ∀ x, d.who ≠ .ctx n x := by
  have he : exec (.deferredSignalTimeout n) s =
      .next (takeTrapAt (leaveWait (dropDeferred s n) n) n { cause := 0x07, tval := va, abnd := true }) := by
    simp only [exec_deferredSignalTimeout, execDeferredSignalTimeout, hw, waitedFor_of_le hs hg, Bool.not_true, Bool.false_eq_true,
      if_false]
  rw [dropDeferred_of_entered hd, leaveWait_combAmo (s := mapCl s (withoutAmos n)) hw] at he
  obtain ⟨htrap, -, hcl⟩ := takeTrapAt_ends_wait (u := mapCl (modCtx (mapCl s (withoutAmos n)) n Ctx.unwaiting) (disownAmos n)) hc
    (ctxOf_modCtx _ _ _) rfl (by decide : 0x07 < 256) va
  refine ⟨_, he, htrap, fun e hm d hdm x => ?_⟩
  rw [hcl] at hm
  obtain ⟨p, hp, rfl⟩ := List.mem_map.1 hm
  obtain ⟨q, -, rfl⟩ := List.mem_map.1 hp
  obtain ⟨d', hd', rfl⟩ := List.mem_map.1 hdm
  exact disowned_who (withoutAmos_who hd' x)

end

/-- An AMO of a packet that has stood in its bank for 2^20 cycles (R206). -/
def bankDue (tag now : Nat) (d : DefSig) : Bool := match d.who with
  | .remote p => p.tag == tag && decide (d.since + 2 ^ 20 ≤ now)
  | _ => false

/-- The sender of an AMO learns that the bank has dropped it. -/
def bankTold (cl : Nat) (u : State) (d : DefSig) : State := match d.who with
  | .remote p => nack (deferRefill u cl (bankOf d.off)) p 0x07
  | _ => deferRefill u cl (bankOf d.off)

theorem remoteAmoBankTimeout_eq (s : State) (cl tag : Nat) : exec (.remoteAmoBankTimeout cl tag) s =
    let due := bankDue tag (clOf s cl).cyc
    let gone := (clOf s cl).defer.filter due
    .next (gone.foldl (bankTold cl)
      (if gone.isEmpty then s else modCl s cl fun c => { c with defer := c.defer.filter (!due ·) })) := rfl

theorem remoteAmoBankTimeout_nacks {s : State} {cl : Nat} {q : DefSig} {pk : Packet} (hd : (clOf s cl).defer = [q])
    (hw : q.who = .remote pk) (hg : q.since + 2 ^ 20 ≤ (clOf s cl).cyc) : exec (.remoteAmoBankTimeout cl pk.tag) s =
      .next (nack (modCl s cl fun c => { c with defer := [] }) pk 0x07) := by
  have hdue : bankDue pk.tag (clOf s cl).cyc q = true := by simp only [bankDue, hw, hg, beq_self_eq_true, decide_true, Bool.and_self]
  have hgone : (clOf s cl).defer.filter (bankDue pk.tag (clOf s cl).cyc) = [q] := by simp [hd, hdue]
  have hleft : modCl s cl (fun c => { c with defer := c.defer.filter (!bankDue pk.tag (clOf s cl).cyc ·) }) =
      modCl s cl fun c => { c with defer := [] } := by simp [modCl, hd, hdue]
  have hrefill : deferRefill (modCl s cl fun c => { c with defer := [] }) cl (bankOf q.off) =
      modCl s cl fun c => { c with defer := [] } :=
    deferFill_of_entered (by simp) _ _
  simp only [remoteAmoBankTimeout_eq, hgone, List.isEmpty_cons, Bool.false_eq_true, if_false, hleft, List.foldl_cons, List.foldl_nil,
    bankTold, hw, hrefill]

/-! ## Seal deadlines (R212, R214) -/

section
variable {s : State} {cl i : Nat} {tgt : Nat × Nat}

theorem cellDeadlineExpiry_seals (he : expiryDue (cellOf s cl i) = true) (ht : targetOf (cellOf s cl i).dltgt = .ok tgt)
    (hr : 0 < tqRoom s tgt.1 tgt.2) :
    exec (.cellDeadlineExpiry cl i) s = .next (sealCell s cl i (cellOf s cl i).cts [tgt] true) := by
  simp [exec_cellDeadlineExpiry, execCellDeadlineExpiry, he, ht, Nat.ne_of_gt hr]

/-- The seal of a cell without a target. -/
theorem cellOf_sealCell (s : State) (cl i sts : Nat) (timeout : Bool) : cellOf (sealCell s cl i sts [] timeout) cl i =
    { cellOf s cl i with
      st := .sealed, zero := cellZero s cl (cellOf s cl i), sts := sts, dlv := false, dlx := false, tout := timeout } :=
  cellOf_modCell s cl i fun c =>
    { c with st := .sealed, zero := cellZero s cl (cellOf s cl i), sts := sts, dlv := false, dlx := false, tout := timeout }

theorem cellDeadlineExpiry_posts_later (he : expiryDue (cellOf s cl i) = true) (ht : targetOf (cellOf s cl i).dltgt = .ok tgt)
    (hr : tqRoom s tgt.1 tgt.2 = 0) : Does (.cellDeadlineExpiry cl i) s fun t => cellOf t cl i = { cellOf s cl i with
      st := .sealed, zero := cellZero s cl (cellOf s cl i), sts := (cellOf s cl i).cts, dlv := false, dlx := false, tout := true,
      refcnt := (cellOf s cl i).refcnt + 1, tpost := some (s.gtc + 40) } ∧ ∀ av, avOf t av = avOf s av := by
  have hx : exec (.cellDeadlineExpiry cl i) s = .next (modCell (sealCell s cl i (cellOf s cl i).cts [] true) cl i fun c =>
      { c with refcnt := c.refcnt + 1, tpost := some (s.gtc + 40) }) := by
    simp [exec_cellDeadlineExpiry, execCellDeadlineExpiry, he, ht, hr]
  refine ⟨_, hx, ?_, fun av => rfl⟩
  rw [cellOf_modCell, cellOf_sealCell]

theorem cellDeadlineExpiry_waits (he : expired (cellOf s cl i) = true) (hc : (cellOf s cl i).counted ≠ 0) :
    exec (.cellDeadlineExpiry cl i) s = .next (modCell s cl i fun c => { c with dlx := true }) := by
  simp [exec_cellDeadlineExpiry, execCellDeadlineExpiry, expiryDue, he, hc]

theorem timerSealPostRetry_posts {g : Nat} (hp : (cellOf s cl i).tpost = some g) (hg : g ≤ s.gtc)
    (ht : targetOf (cellOf s cl i).dltgt = .ok tgt) (hr : 0 < tqRoom s tgt.1 tgt.2) : exec (.timerSealPostRetry cl i) s =
      .next (modCell (tqPut s tgt.1 tgt.2 (handleOf cl i (cellOf s cl i).cgen) (1 + 2 * b2n (cellOf s cl i).zero)) cl i fun c =>
        { c with tpost := none }) := by
  simp [exec_timerSealPostRetry, execTimerSealPostRetry, hp, ht, Nat.not_lt.2 hg, Nat.ne_of_gt hr]

theorem timerSealPostRetry_waits {g : Nat} (hp : (cellOf s cl i).tpost = some g) (hg : g ≤ s.gtc)
    (ht : targetOf (cellOf s cl i).dltgt = .ok tgt) (hr : tqRoom s tgt.1 tgt.2 = 0) : exec (.timerSealPostRetry cl i) s =
      .next (modCell s cl i fun c => { c with tpost := some (s.gtc + 40) }) := by
  simp [exec_timerSealPostRetry, execTimerSealPostRetry, hp, ht, Nat.not_lt.2 hg, hr]

end

/-- Settles O34: each timer by what it does at its limit. -/
theorem timers : Obligations.Timers := by
  unfold Obligations.Timers
  intro s n va cl i g d m f dl q rd w pk tgt c k cyc can trapped unsent
  refine ⟨driftTick_raises, msgmaskOverrun_clears, deadline_records, fun hc hs => ⟨feTimeout_traps hc hs, sendTimeout_send hc hs,
    fun e r => sendTimeout_named hc hs, deferredSignalTimeout_traps hc hs⟩, remoteAmoBankTimeout_nacks,
    fun he ht => ⟨cellDeadlineExpiry_seals he ht, cellDeadlineExpiry_posts_later he ht⟩, cellDeadlineExpiry_waits,
    fun hp hg ht => ⟨timerSealPostRetry_posts hp hg ht, timerSealPostRetry_waits hp hg ht⟩⟩

end Sys2Proof.Safety
end

section
/-!
SUPPORT. Launch queues and the start of a record: its place in a queue, what leaves the queues, the registers of the context it
starts, and the acceptance of a record that its issuer holds (R118, R130, R132, R157).
-/

namespace Sys2Proof.Machine

/-! ## Places in a queue (R130, R157) -/

theorem insRec_last {r : LRec} (h : r.cls ≠ 0) (l : List LRec) : insRec l r = l ++ [r] := by
  induction l with
  | nil => rfl
  | cons a l ih => rw [insRec, if_neg fun hc => h hc.1, ih]; rfl

theorem insRec_one {r : LRec} (h : r.cls = 0) (a : LRec) :
    insRec [a] r = if a.cls = 0 ∧ a.at_ = r.at_ ∧ recSrc r < recSrc a then [r, a] else [a, r] := by
  simp only [insRec, h, true_and]

/-- A record as it stands in a queue. -/
def queuedRec (s : State) (r : LRec) : LRec := { r with seq := s.seq, passed := 0, hops := 0, at_ := meshCyc s }

/-- The queue of a record's class has room (R130). -/
def RoomFor (s : State) (cl : Nat) (r : LRec) : Prop := ((clOf s cl).lq.filter (·.cls == r.cls)).length < 64

/-- A record has entered its queue. -/
def entered (s : State) (cl : Nat) (r : LRec) : State :=
  modCl { s with seq := s.seq + 1 } cl fun c => { c with lq := insRec c.lq (queuedRec s r) }

section
variable {s : State} {cl : Nat} {r : LRec}

theorem lqPut_of_room (h : RoomFor s cl r) : lqPut s cl r = some (entered s cl r) := if_neg (Nat.not_le.2 h)

theorem lqPut_of_full (h : ¬RoomFor s cl r) : lqPut s cl r = none := if_pos (Nat.not_lt.1 h)

theorem lq_entered : (clOf (entered s cl r) cl).lq = insRec (clOf s cl).lq (queuedRec s r) := by
  rw [entered, clOf_modCl]; rfl

theorem entered_part {α : Type} (π : Cluster → α) (h : ∀ c x, π { c with lq := x } = π c) (j : Nat) :
    π (clOf (entered s cl r) j) = π (clOf s j) :=
  modCl_part π { s with seq := s.seq + 1 } cl j _ (h _ _)

end

/-! ## A record has left every queue -/

/-- No queue holds the record of a serial number. -/
def NoRec (s : State) (q : Nat) : Prop := ∀ e ∈ s.clusters, ∀ w ∈ e.2.lq, w.seq ≠ q

theorem noRec_lqDrop (s : State) (q : Nat) : NoRec (lqDrop s q) q := by
  intro e he w hw
  obtain ⟨p, -, rfl⟩ := List.mem_map.1 he
  simpa using (List.mem_filter.1 hw).2

namespace NoRec
variable {s : State} {q : Nat}

theorem modCl (h : NoRec s q) (k : Nat) {f : Cluster → Cluster} (hf : (f (clOf s k)).lq = (clOf s k).lq) :
    NoRec (modCl s k f) q := by
  intro e he
  rcases mem_fset he with rfl | he
  · show ∀ w ∈ (f (clOf s k)).lq, w.seq ≠ q
    rw [hf]
    exact clOf_of_all (P := fun c => ∀ w ∈ c.lq, w.seq ≠ q) h nofun k
  · exact h e he

theorem idleNotices (h : NoRec s q) (n : Nat) : NoRec (idleNotices s n) q := by
  refine List.foldlRecOn (motive := fun t => NoRec t q) _ _ h fun t ht g _ => ?_
  extract_lets some?
  split
  · exact ht
  · exact ht.modCl (slotCl n) (f := fun c => { c with told := if some? then nins c.told g else nrem c.told g }) rfl

end NoRec

/-! ## The start of a record (R118) -/

/-- The pc at which a record starts. -/
def startPc (s : State) (r : LRec) : Nat := if r.pc = 0 ∧ r.form = .group then (groupOf s r.target).entrypc else r.pc

theorem activate_of_no_deadline {r : LRec} (h : r.deadline = none) (s : State) (n : Nat) : activate s n r =
    idleNotices (modCtx s n fun c => c.activated n r (startPc s r) s.gtc s.devid) n := by
  have hpc : (if r.pc = 0 ∧ r.form = .named then 0 else r.pc) = r.pc := by
    split
    · next hp => exact hp.1.symm
    · rfl
  simp only [activate, h, hpc]
  rfl

/-- A context starts with its arguments in x4 and x5, and zero in every other register. -/
theorem getX_activated (c : Ctx) (n : Nat) (r : LRec) (pc gtc devid : Nat) (q : XReg) :
    (c.activated n r pc gtc devid).getX q = if q = 4 then r.a0 else if q = 5 then r.a1 else 0 := by
  have h4 : q = 4 ↔ q.val = 4 := Fin.ext_iff
  have h5 : q = 5 ↔ q.val = 5 := Fin.ext_iff
  have hzero : (Vector.replicate 32 (0 : Word))[q.val]! = 0 := by
    rw [getElem!_pos (Vector.replicate 32 (0 : Word)) q.val q.isLt, Vector.getElem_replicate]
  show (if q.val = 0 then 0 else (((Vector.replicate 32 (0 : Word)).set! 4 r.a0).set! 5 r.a1)[q.val]!) = _
  rw [vec_get_set _ _ _ _ (by decide), vec_get_set _ _ _ _ (by decide), hzero]
  simp only [h4, h5]
  by_cases h0 : q.val = 0
  · simp [h0]
  · by_cases hq : q.val = 5 <;> simp [h0, hq]

section
variable {r : LRec} (hd : r.deadline = none) (s : State) (n : Nat)
include hd

theorem ctxOf_activate : ctxOf (activate s n r) n = (ctxOf s n).activated n r (startPc s r) s.gtc s.devid := by
  rw [activate_of_no_deadline hd, ctxOf_of_unclocked (idleNotices_unclocked _ _), ctxOf_modCtx]

theorem activate_saved : (activate s n r).saved = s.saved := by
  rw [activate_of_no_deadline hd]
  exact (congrArg State.saved (idleNotices_unclocked _ _) :)

theorem activate_part {α : Type} (π : Cluster → α) (h : ∀ c x, π { c with told := x } = π c) (j : Nat) :
    π (clOf (activate s n r) j) = π (clOf s j) := by
  rw [activate_of_no_deadline hd]
  exact idleNotices_part π h _ _ _

end

theorem NoRec.activate {s : State} {q : Nat} (h : NoRec s q) {r : LRec} (hd : r.deadline = none) (n : Nat) :
    NoRec (activate s n r) q := by
  rw [activate_of_no_deadline hd]
  exact NoRec.idleNotices (s := modCtx s n _) h n

/-! ## A record that its issuer holds (R132) -/

theorem launchHolder_congr {s t : State} (hc : t.ctxs = s.ctxs) (hf : ∀ j, (clOf t j).fwd = (clOf s j).fwd) (r : LRec) :
    launchHolder t r = launchHolder s r := by
  simp only [launchHolder, whereIs, holds, ctxOf, hc, fwdEntry_congr hf]
  rfl

/-- What a send leaves behind when it is accepted: its pc stands, and nothing is pledged. -/
theorem ctxOf_pledged (s : State) (n : Nat) :
    (ctxOf (pledged s n) n).pc = (ctxOf s n).pc ∧ (ctxOf (pledged s n) n).pledge = none := by
  unfold pledged
  split
  · exact ⟨rfl, ‹_›⟩
  · rename_i p hp
    extract_lets keep t
    have ht : (ctxOf t n).pc = (ctxOf s n).pc ∧ (ctxOf t n).pledge = none := by
      rw [ctxOf_modCtx]
      refine ⟨?_, rfl⟩
      cases p.rel with
      | none => rfl
      | some sc => simp only [Ctx.released]; split <;> rfl
    split <;> exact ht

theorem pledged_part {α : Type} (π : Cluster → α) (h : ∀ c x, π { c with demoted := x } = π c) (s : State) (n j : Nat) :
    π (clOf (pledged s n) j) = π (clOf s j) := by
  unfold pledged
  split
  · rfl
  · extract_lets keep t
    split
    · exact modCl_part π t _ j _ (h _ _)
    · rfl

end Sys2Proof.Machine

namespace Sys2Proof.Safety

open Sys2Proof.Machine

/-- The issuer of a record goes on. -/
def GoesOn (s t : State) (n : Nat) : Prop :=
  (ctxOf t n).pc = (ctxOf s n).pc + 4 ∧ (ctxOf t n).wait = .none ∧ (ctxOf t n).pledge = none

theorem acceptedAt_goes_on (s : State) (n : Nat) : GoesOn s (acceptedAt s n) n := by
  obtain ⟨hpc, hpl⟩ := ctxOf_pledged s n
  rw [GoesOn, acceptedAt, nextAt, ctxOf_modCtx]
  exact ⟨congrArg (· + 4) hpc, rfl, hpl⟩

/-- The record stands in its queue and its issuer goes on. -/
theorem launchDone_entered {s : State} {cl n : Nat} {r : LRec} (h : launchHolder s r = some n) :
    (clOf (launchDone (entered s cl r) r) cl).lq = insRec (clOf s cl).lq (queuedRec s r) ∧
      GoesOn s (launchDone (entered s cl r) r) n := by
  have hh : launchHolder (entered s cl r) r = some n :=
    (launchHolder_congr (s := s) (t := entered s cl r) rfl (entered_part (·.fwd) fun _ _ => rfl) r).trans h
  rw [launchDone, hh]
  exact ⟨(pledged_part (·.lq) (fun _ _ => rfl) _ n cl).trans lq_entered, acceptedAt_goes_on (entered s cl r) n⟩

/-- A record that starts in a state with the slot's generation and clock, and the groups, as they were. -/
theorem activate_starts {s u : State} {n : Nat} {r : LRec} (hd : r.deadline = none) (hg : (ctxOf u n).gen = (ctxOf s n).gen)
    (hp : (ctxOf u n).pts = (ctxOf s n).pts) (hgr : u.groups = s.groups) : Started s (activate u n r) n r := by
  have hpc : startPc u r = startPc s r := by rw [startPc, startPc, groupOf, groupOf, hgr]
  simp only [Started, ctxOf_activate hd, getX_activated, hpc]
  rw [← hg, ← hp]
  exact ⟨rfl, rfl, rfl, rfl, rfl, rfl, rfl, rfl, rfl, fun _ => trivial, rfl, rfl, rfl, rfl, rfl, rfl, rfl⟩

end Sys2Proof.Safety
end

section
/-!
CERTIFICATES. The launch window, the launch queues and the SPAWN packets (R110 to R117, R130, R132, R139).
-/

namespace Sys2Proof.Machine

/-! ## What the events of the queues run -/

theorem exec_launchDelivery (s : State) : exec .launchDelivery s = execLaunchDelivery s := rfl
theorem exec_launchQueueEntry (s : State) (cl : Nat) (r : LRec) :
    exec (.launchQueueEntry cl r) s = execLaunchQueueEntry cl r s := rfl
theorem exec_spawnPacketArrival (s : State) (cl : Nat) (r : LRec) :
    exec (.spawnPacketArrival cl r) s = execSpawnPacketArrival cl r s := rfl

/-- A record of class other than 0 and with no address enters the receiver as it came (R111). -/
theorem launchIn_takes {s : State} {bs : List Byte} (hdev : s.devst = .ready) (hst : s.stopped = false)
    (hbuf : s.launchBuf.length < 1024) (hbad : launchBad s bs (hostRec s bs) = none) (hf : (hostRec s bs).form ≠ .spawn)
    (hc : (hostRec s bs).cls ≠ 0) : launchIn s bs =
      later { s with seq := s.seq + 1, launchBuf := s.launchBuf ++ [{ hostRec s bs with seq := s.seq }] } .launchDelivery := by
  have hsoon (b : Bool) : ((hostRec s bs).cls == 0 && b) = false := by simp [hc]
  simp only [launchIn, hdev, hst, hbad, hf, hc, hsoon, Nat.not_le.2 hbuf, ne_eq, not_true_eq_false, false_and, if_false,
    Bool.false_eq_true]

/-- One record is taken in alone. -/
theorem launchAll_one (s : State) {bs : List Byte} (h : bs.length = 64) : launchAll (bs.length / 64) s bs = launchIn s bs := by
  have hne : bs.isEmpty = false := by cases bs <;> simp_all
  rw [h]
  show (if bs.isEmpty then s else launchIn s (bs.take 64)) = _
  rw [hne, List.take_of_length_le (Nat.le_of_eq h)]
  rfl

end Sys2Proof.Machine

namespace Sys2Proof.Safety

open Sys2Proof.Machine

/-! ## The launch window (R110, R115) -/

section
variable {s : State} {off : Nat} {bs : List Byte}

theorem launchWrite_shut (h : hostShut s = true) : exec (.launchWrite off bs) s = .next s := if_pos h

theorem launchWrite_malformed (hs : hostShut s = false)
    (h : off % 64 ≠ 0 ∨ bs.length % 64 ≠ 0 ∨ bs = [] ∨ 2 ^ 20 < off + bs.length) :
    exec (.launchWrite off bs) s = .next { s with launchMalformed := min (s.launchMalformed + 1) 65535 } :=
  (if_neg (by simp [hs])).trans (if_pos h)

theorem launchWrite_one (hs : hostShut s = false) (ho : off % 64 = 0) (hl : bs.length = 64) (he : off + 64 ≤ 2 ^ 20) :
    exec (.launchWrite off bs) s = .next (launchIn s bs) := by
  have hok : ¬(off % 64 ≠ 0 ∨ bs.length % 64 ≠ 0 ∨ bs = [] ∨ 2 ^ 20 < off + bs.length) := by
    rintro (h | h | rfl | h)
    · exact h ho
    · omega
    · cases hl
    · omega
  exact ((if_neg (by simp [hs])).trans (if_neg hok)).trans (congrArg _ (launchAll_one s hl))

theorem launchWrite_early (hs : hostShut s = false) (ho : off % 64 = 0) (hl : bs.length = 64) (he : off + 64 ≤ 2 ^ 20)
    (hd : s.devst ≠ .ready) : exec (.launchWrite off bs) s = .next { s with early := min (s.early + 1) 65535 } :=
  (launchWrite_one hs ho hl he).trans (congrArg _ (if_pos hd))

end

/-! ## Delivery of host records (R111, R132) -/

section
variable {s : State} {cl : Nat} {r : LRec}

theorem launchDelivery_empty (h : s.launchBuf = []) : exec .launchDelivery s = .next s := by
  rw [exec_launchDelivery, execLaunchDelivery, h]
  rfl

theorem launchDelivery_enters (hb : s.launchBuf = [r]) (hc : hostCluster s r = some cl) (hs : staleNamed s r = false)
    (hr : RoomFor s cl r) : Does .launchDelivery s fun t =>
      t.launchBuf = [] ∧ (clOf t cl).lq = insRec (clOf s cl).lq (queuedRec s r) ∧ t.seq = s.seq + 1 := by
  have he : exec .launchDelivery s =
      .next { entered s cl r with launchBuf := s.launchBuf.filter (·.seq != r.seq) } := by
    simp only [exec_launchDelivery, execLaunchDelivery, hb, deliverFrom, hc, hs, lqPut_of_room hr, List.contains_nil,
      Bool.false_eq_true, if_false]
    rw [← hb]
    rfl
  exact ⟨_, he, by simp [hb], lq_entered, rfl⟩

theorem launchDelivery_waits (hb : s.launchBuf = [r]) (hc : hostCluster s r = some cl) (hs : staleNamed s r = false)
    (hr : ¬RoomFor s cl r) : exec .launchDelivery s = .next s := by
  simp only [exec_launchDelivery, execLaunchDelivery, hb, deliverFrom, hc, hs, lqPut_of_full hr, List.contains_nil,
    Bool.false_eq_true, if_false]

/-! ## Records of contexts (R132) -/

/-- An issuer that has given up sent nothing. -/
theorem unheld_ignored (h : launchHolder s r = none) :
    exec (.launchQueueEntry cl r) s = .next s ∧ exec (.spawnPacketArrival cl r) s = .next s :=
  ⟨if_pos (by rw [h]; rfl), if_pos (by rw [h]; rfl)⟩

theorem launchQueueEntry_enters {n : Nat} (h : launchHolder s r = some n) (hs : staleNamed s r = false) (hr : RoomFor s cl r) :
    Does (.launchQueueEntry cl r) s fun t => (clOf t cl).lq = insRec (clOf s cl).lq (queuedRec s r) ∧ GoesOn s t n := by
  have he : exec (.launchQueueEntry cl r) s = .next (launchDone (entered s cl r) r) := by
    simp only [exec_launchQueueEntry, execLaunchQueueEntry, h, hs, lqPut_of_room hr, Option.isNone_some, Bool.false_eq_true,
      if_false]
  exact ⟨_, he, launchDone_entered h⟩

theorem launchQueueEntry_refused {n : Nat} (h : launchHolder s r = some n) (hs : staleNamed s r = false) (hr : ¬RoomFor s cl r) :
    Does (.launchQueueEntry cl r) s fun t => (clOf t cl).lq = (clOf s cl).lq ∧ (ctxOf t n).wait = .launch cl r true ∧
      (ctxOf t n).pc = (ctxOf s n).pc ∧ (ctxOf t n).nxtdl = (ctxOf s n).nxtdl ∧ (ctxOf t n).lastC0 = (ctxOf s n).lastC0 := by
  have he : exec (.launchQueueEntry cl r) s = .next (modCtx s n fun c => { c with wait := .launch cl r true }) := by
    simp only [exec_launchQueueEntry, execLaunchQueueEntry, h, hs, lqPut_of_full hr, launchRefused, Option.isNone_some,
      Bool.false_eq_true, if_false]
  refine ⟨_, he, rfl, ?_⟩
  rw [ctxOf_modCtx]
  exact ⟨rfl, rfl, rfl, rfl⟩

/-! ## SPAWN packets (R139) -/

theorem spawnPacketArrival_enters {n : Nat} (h : launchHolder s r = some n) (ho : (spawnOwners s r.target).all (poolless s) = false)
    (hf : spawnFits s cl r = true ∨ (spawnOwners s r.target).length ≤ r.hops) (hr : RoomFor s cl r) :
    Does (.spawnPacketArrival cl r) s fun t => (clOf t cl).lq = insRec (clOf s cl).lq (queuedRec s r) ∧ GoesOn s t n := by
  have hstay : spawnFits s cl r ∨ (spawnOwners s r.target).length ≤ r.hops ∨ (spawnOwners s r.target).length = 1 :=
    hf.imp_right .inl
  have he : exec (.spawnPacketArrival cl r) s = .next (launchDone (entered s cl r) r) := by
    simp only [exec_spawnPacketArrival, execSpawnPacketArrival, h, ho, hstay, lqPut_of_room hr, Option.isNone_some,
      Bool.false_eq_true, if_false, if_true]
  exact ⟨_, he, launchDone_entered h⟩

theorem spawnPacketArrival_hops {n g h k : Nat} (hh : launchHolder s r = some n)
    (ho : (spawnOwners s r.target).all (poolless s) = false) (hf : spawnFits s cl r = false)
    (hg : spawnOwners s r.target = [g, h, k]) (hl : r.hops < 3) : exec (.spawnPacketArrival cl r) s =
      .next (later s (.spawnPacketArrival ([g, h, k].getD ((r.hops + 1) % 3) cl) { r with hops := r.hops + 1, via := cl })) := by
  have hgo : ¬(spawnFits s cl r ∨ (spawnOwners s r.target).length ≤ r.hops ∨ (spawnOwners s r.target).length = 1) := by
    rw [hf, hg]
    rintro (h | h | h)
    · cases h
    · exact Nat.not_le.2 hl h
    · cases h
  simp only [exec_spawnPacketArrival, execSpawnPacketArrival, hh, ho, hgo, Option.isNone_some, Bool.false_eq_true, if_false]
  rw [hg]
  rfl

end

end Sys2Proof.Safety
end

section
/-!
CERTIFICATES. The scheduler cycle, the records that a group's home forwards, and the save of a victim (R133, R135, R136, R140,
R196).
-/

namespace Sys2Proof.Machine

theorem exec_schedulerStart (s : State) (cl : Nat) : exec (.schedulerStart cl) s = execSchedulerStart cl s := rfl
theorem exec_preemptSaveDone (s : State) (n : Nat) : exec (.preemptSaveDone n) s = execPreemptSaveDone n s := rfl

/-! ## The choice of a record (R133) -/

theorem schedPick_nil : schedPick [] = none := rfl

/-- A record that stands alone is the one chosen. -/
theorem schedPick_one {r : LRec} (h : r.cls < 4) : schedPick [r] = some r := by
  obtain hc | hc | hc | hc : r.cls = 0 ∨ r.cls = 1 ∨ r.cls = 2 ∨ r.cls = 3 := by omega
  · simp [schedPick, inOrder, insBy, hc]
  all_goals by_cases hp : 64 ≤ r.passed <;> simp [schedPick, inOrder, hc, hp, List.range_succ]

section
variable {s : State} {cl : Nat} {r : LRec}

theorem schedulerStart_idle (hq : (clOf s cl).lq = []) (ha : (clOf s cl).arrived = []) : exec (.schedulerStart cl) s = .next s := by
  simp [exec_schedulerStart, execSchedulerStart, hq, ha, schedPick_nil]

/-- A record of the cluster's own that stands alone starts. -/
theorem schedulerStart_own (hq : (clOf s cl).lq = [r]) (ha : (clOf s cl).arrived = []) (hc : r.cls < 4)
    (hs : staleNamed s r = false) (hf : forwardNamed s cl r = s) (hgo : canStart s cl r = true) :
    exec (.schedulerStart cl) s = .next (schedStart (modCl s cl id) cl r) :=
  calc exec (.schedulerStart cl) s
    _ = .next (schedStart (modCl s cl fun c => { c with lq := c.lq, arrived := c.arrived }) cl r) := by
      simp [exec_schedulerStart, execSchedulerStart, hq, ha, hs, hf, hgo, oldestOf, schedPick_one hc]
    _ = _ := rfl

/-- A record that stands alone among those forwarded here starts. -/
theorem schedulerStart_arrived (hq : (clOf s cl).lq = []) (ha : (clOf s cl).arrived = [r]) (hc : r.cls < 4)
    (hgo : arrivedFits s cl r = true) : exec (.schedulerStart cl) s = .next (arrivedStart (modCl s cl id) cl r) :=
  calc exec (.schedulerStart cl) s
    _ = .next (arrivedStart (modCl s cl fun c => { c with lq := c.lq, arrived := c.arrived }) cl r) := by
      simp [exec_schedulerStart, execSchedulerStart, hq, ha, arrivedBack, hgo, schedPick_one hc]
    _ = _ := rfl

end

/-! ## Forwarded records (R136) -/

/-- A notice that is repeated enters the agenda alone. -/
theorem freshNotice_eq (s : State) (cl g : Nat) : ∃ l, freshNotice s cl g = { s with agenda := s.agenda ++ l } := by
  unfold freshNotice
  split
  · exact ⟨[], by rw [List.append_nil]⟩
  · exact ⟨[_], rfl⟩

theorem lq_arrivedDrop (s : State) (cl : Nat) (r : LRec) : (clOf (arrivedDrop s cl r) cl).lq = (clOf s cl).lq := by
  rw [arrivedDrop, clOf_modCl]

theorem arrived_arrivedDrop {s : State} {cl : Nat} {r : LRec} (ha : (clOf s cl).arrived = [r]) :
    (clOf (arrivedDrop s cl r) cl).arrived = [] := by
  rw [arrivedDrop, clOf_modCl]
  simp [ha]

theorem lqDrop_part {α : Type} (π : Cluster → α) (h : ∀ c x, π { c with lq := x } = π c) (s : State) (q j : Nat) :
    π (clOf (lqDrop s q) j) = π (clOf s j) :=
  mapCl_part π s j (fun c => { c with lq := c.lq.filter (·.seq != q) }) fun c => h c _

/-- The record chosen among those forwarded here has left the cluster and its queue at home. -/
def tookArrived (s : State) (cl : Nat) (r : LRec) : State := lqDrop (arrivedDrop (modCl s cl id) cl r) r.seq

theorem arrived_tookArrived {s : State} {cl : Nat} {r : LRec} (ha : (clOf s cl).arrived = [r]) :
    (clOf (tookArrived s cl r) cl).arrived = [] := by
  rw [tookArrived, lqDrop_part (·.arrived) fun _ _ => rfl]
  exact arrived_arrivedDrop ((congrArg Cluster.arrived (clOf_modCl s cl id)).trans ha)

/-- A record that is discarded changes no cluster and no context. -/
theorem launchDiscard_keeps (s : State) (k : Nat) (r : LRec) :
    (launchDiscard s k r).clusters = s.clusters ∧ (launchDiscard s k r).ctxs = s.ctxs := by
  have h := (eventBytes_keeps s (record 64 ([(0, 8, s.gtc), (8, 2, unitSrc 9 0), (10, 2, s.devid), (12, 1, 0x22)] ++
    [(16, 1, k), (24, 8, r.hdr.toNat), (32, 8, r.tgtWord.toNat), (40, 8, r.tag.toNat)]))).rest
  exact ⟨(congrArg State.clusters h :), (congrArg State.ctxs h :)⟩

/-- A forwarded record that finds no context and no victim goes back. -/
theorem schedulerStart_back {s : State} {cl : Nat} {r : LRec} (hq : (clOf s cl).lq = []) (ha : (clOf s cl).arrived = [r])
    (hno : arrivedFits s cl r = false) : exec (.schedulerStart cl) s =
      .next (freshNotice (later (arrivedDrop s cl r) (.returnedRecordArrival { r with via := cl })) cl r.target) := by
  obtain ⟨l, hl⟩ := freshNotice_eq (later (arrivedDrop s cl r) (.returnedRecordArrival { r with via := cl })) cl r.target
  have hb : arrivedBack s cl r =
      freshNotice (later (arrivedDrop s cl r) (.returnedRecordArrival { r with via := cl })) cl r.target :=
    if_neg (by simp [hno])
  have hq' : (clOf (arrivedBack s cl r) cl).lq = [] := by
    rw [hb, hl]
    exact (lq_arrivedDrop s cl r).trans hq
  have ha' : (clOf (arrivedBack s cl r) cl).arrived = [] := by
    rw [hb, hl]
    exact arrived_arrivedDrop ha
  rw [← hb]
  simp [exec_schedulerStart, execSchedulerStart, hq, ha, hq', ha', schedPick_nil]

/-! ## The save of a victim (R196, R197) -/

theorem writeSpan_part (key k : Nat) (s : State) (pa : Nat) (bs : List Byte) : unwritten (writeSpan s key k pa bs) = unwritten s := by
  induction k generalizing s pa bs with
  | zero => rfl
  | succ k ih =>
    rw [writeSpan]
    split
    · rfl
    · rw [ih, writeUnder_part]

/-- The image of a slot's context in memory (R197). -/
def imaged (t : State) (n : Nat) : State :=
  writeSpan { t with fresh := t.fresh + 1 } 0 20 (imageAddr t n) (imageOf t n (ctxOf t n).pc
    (match (ctxOf t n).wait with | .remoteAmo .. => true | _ => false))

theorem imaged_part (t : State) (n : Nat) : unwritten (imaged t n) = unwritten { t with fresh := t.fresh + 1 } :=
  writeSpan_part _ _ _ _ _

/-- What a write of an image leaves as it stood. -/
theorem kept_of_unwritten {s t : State} (h : unwritten t = unwritten s) :
    t.clusters = s.clusters ∧ t.ctxs = s.ctxs ∧ t.groups = s.groups :=
  ⟨(congrArg State.clusters h :), (congrArg State.ctxs h :), (congrArg State.groups h :)⟩

/-- The slot of a context that is saved, and counted in its cluster, once its image stands in memory. -/
def vacatedBySave (w : State) (n : Nat) (v : Saved) : State :=
  modCtx (modCl { w with saved := fset w.saved n v } (slotCl n) fun k => { k with preempts := sat (k.preempts + 1) 16 }) n fun d =>
    { d with active := false, wait := .none, preempt := none, offAfter := false }

theorem ctxOf_vacatedBySave (w : State) (n : Nat) (v : Saved) : ctxOf (vacatedBySave w n v) n =
    { ctxOf w n with active := false, wait := .none, preempt := none, offAfter := false } :=
  ctxOf_modCtx _ _ _

/-- A record whose group, if it names one, is valid starts on the slot that it has chosen. -/
theorem startChosen_of_valid {u : State} {r : LRec} (h : r.form = .group → (groupOf u r.target).valid = true) (n : Nat) :
    startChosen u n r = activate (lqDrop u r.seq) n r := by
  refine if_neg ?_
  rintro ⟨hf, hn⟩
  rw [h hf] at hn
  cases hn

section
variable {s : State} {n : Nat} (hw : (ctxOf s n).wait = .none) (hg : (ctxOf s n).grant = none)
include hw hg

theorem ctxOf_standDown : ctxOf (standDown s n) n = { ctxOf s n with dlPaused := true } := by
  rw [standDown_eq hw hg, ctxOf_pauseOf_self]
  rfl

theorem standDown_groups : (standDown s n).groups = s.groups := by
  rw [standDown_eq hw hg]
  rfl

theorem standDown_part {α : Type} (π : Cluster → α) (h : ∀ c x, π { c with cells := x } = π c) (j : Nat) :
    π (clOf (standDown s n) j) = π (clOf s j) := by
  rw [standDown_eq hw hg, pauseOf_part π h]
  rfl

end

/-- A context at a boundary, with nothing left to store, is saved, and the record that chose it starts. -/
theorem preemptSaveDone_saves {s t : State} {n : Nat} {r : LRec} (hr : (ctxOf s n).preempt = some r)
    (ha : (ctxOf s n).active = true) (hd : (ctxOf s n).dying = false) (hb : atBoundary (ctxOf s n) = true)
    (hi : imagePend s n = none) (ht : tePreempt (standDown s n) (slotCl n) (nameOf (ctxOf s n)) = t)
    (hsb : (ctxOf t n).sb = []) (ho : (ctxOf t n).offAfter = false) :
    exec (.preemptSaveDone n) s =
      .next (startChosen (vacatedBySave (imaged t n) n (savedEntry (ctxOf t n))) n r) := by
  subst ht
  have hgo : ¬(!(ctxOf s n).active ∨ (ctxOf s n).dying ∨ !atBoundary (ctxOf s n) ∨ (imagePend s n).isSome) := by
    simp [ha, hd, hb, hi]
  rw [exec_preemptSaveDone, execPreemptSaveDone, hr]
  exact (if_neg hgo).trans ((if_neg (by simp [hsb])).trans (congrArg _ (if_neg (by simp [ho]))))

end Sys2Proof.Machine

namespace Sys2Proof.Safety

open Sys2Proof.Machine

/-! ## Starts (R118, R133, R136) -/

section
variable {s : State} {cl : Nat} {r : LRec}

theorem schedulerStart_starts_named {n : Nat} (hq : (clOf s cl).lq = [r]) (ha : (clOf s cl).arrived = []) (hr : r.form = .named)
    (hc : r.cls < 4) (hn : n = r.target % 2 ^ 15) (hi : Machine.idle s n = true) (hs : staleNamed s r = false)
    (hf : fwdEntry s r.target = none) (hd : r.deadline = none) : Does (.schedulerStart cl) s fun t =>
      Started s t n r ∧ NoRec t r.seq := by
  subst hn
  have hstay : forwardNamed s cl r = s := by simp [forwardNamed, hf]
  have hgo : canStart s cl r = true := by simpa [canStart, hr, hf] using hi
  have hst : schedStart (modCl s cl id) cl r = activate (lqDrop (modCl s cl id) r.seq) (r.target % 2 ^ 15) r := by
    simp only [schedStart, hr]
    rfl
  refine ⟨_, schedulerStart_own hq ha hc hs hstay hgo, ?_⟩
  rw [hst]
  exact ⟨activate_starts hd rfl rfl rfl, (noRec_lqDrop _ _).activate hd _⟩

theorem schedulerStart_starts_arrived {n : Nat} (hq : (clOf s cl).lq = []) (ha : (clOf s cl).arrived = [r]) (hc : r.cls < 4)
    (hp : pickCtx s cl r = some n) (hv : (groupOf s r.target).valid = true) (hd : r.deadline = none) :
    Does (.schedulerStart cl) s fun t => Started s t n r ∧ NoRec t r.seq ∧ (clOf t cl).arrived = [] := by
  have hfit : arrivedFits s cl r = true := by simp [arrivedFits, hp]
  have hp' : pickCtx (arrivedDrop (modCl s cl id) cl r) cl r = some n := hp
  have hv' : (groupOf (modCl s cl id) r.target).valid = true := hv
  have hst : arrivedStart (modCl s cl id) cl r =
      freshNotice (activate (tookArrived s cl r) n r) cl r.target := by
    simp [arrivedStart, hv', hp', tookArrived]
  obtain ⟨l, hl⟩ := freshNotice_eq (activate (tookArrived s cl r) n r) cl r.target
  refine ⟨_, schedulerStart_arrived hq ha hc hfit, ?_⟩
  rw [hst, hl]
  exact ⟨activate_starts hd rfl rfl rfl, (noRec_lqDrop _ _).activate hd _,
    (activate_part hd _ _ (·.arrived) (fun _ _ => rfl) _).trans (arrived_tookArrived ha)⟩

theorem schedulerStart_discards_arrived {n : Nat} (hq : (clOf s cl).lq = []) (ha : (clOf s cl).arrived = [r]) (hc : r.cls < 4)
    (hp : pickCtx s cl r = some n) (hv : (groupOf s r.target).valid = false) :
    Does (.schedulerStart cl) s fun t => NoRec t r.seq ∧ (clOf t cl).arrived = [] ∧ t.ctxs = s.ctxs := by
  have hfit : arrivedFits s cl r = true := by simp [arrivedFits, hp]
  have hst : arrivedStart (modCl s cl id) cl r =
      freshNotice (launchDiscard (tookArrived s cl r) 0x16 r) cl r.target :=
    if_pos (by rw [show (groupOf (modCl s cl id) r.target).valid = false from hv]; rfl)
  obtain ⟨l, hl⟩ := freshNotice_eq (launchDiscard (tookArrived s cl r) 0x16 r) cl r.target
  obtain ⟨hcl, hctx⟩ := launchDiscard_keeps (tookArrived s cl r) 0x16 r
  refine ⟨_, schedulerStart_arrived hq ha hc hfit, ?_⟩
  rw [hst, hl]
  refine ⟨?_, ?_, hctx⟩
  · rw [NoRec, hcl]
    exact noRec_lqDrop _ _
  · rw [clOf, hcl]
    exact arrived_tookArrived ha

theorem schedulerStart_returns_arrived (hq : (clOf s cl).lq = []) (ha : (clOf s cl).arrived = [r])
    (hp : pickCtx s cl r = none) (hv : pickVictim s cl r = none) : Does (.schedulerStart cl) s fun t =>
      .returnedRecordArrival { r with via := cl } ∈ t.agenda ∧ (clOf t cl).arrived = [] ∧ t.ctxs = s.ctxs ∧ SameMem s t := by
  obtain ⟨l, hl⟩ := freshNotice_eq (later (arrivedDrop s cl r) (.returnedRecordArrival { r with via := cl })) cl r.target
  refine ⟨_, schedulerStart_back hq ha (by simp [arrivedFits, hp, hv]), ?_⟩
  rw [hl]
  exact ⟨by simp [later], arrived_arrivedDrop ha, rfl, fun _ => rfl⟩

/-! ## Notices and forwarded records (R136) -/

theorem idleNotice_marks {g : Nat} {idle : Bool} (h : clusterOk (groupOf s g).bcluster = true) :
    Does (.idleNotice g cl idle) s fun t => ∃ w, fget (clOf t (groupOf s g).bcluster).homes g = some w ∧
      (cl ∈ w.marks ↔ idle = true) ∧ SameMem s t := by
  refine ⟨_, if_neg (by simp [h]), _, (congrArg (fun c => fget c.homes g) (clOf_modCl _ _ _)).trans (fget_fset_self _ _ _), ?_,
    fun _ => rfl⟩
  cases idle with
  | true => simp [mem_nins]
  | false => simp [nrem]

theorem forwardedRecordArrival_enters (h : ∃ e ∈ s.clusters, ∃ w ∈ e.2.lq, w.seq = r.seq) :
    exec (.forwardedRecordArrival cl r) s =
      .next (modCl s cl fun c => { c with arrived := c.arrived ++ [{ r with at_ := meshCyc s }] }) :=
  if_neg (by simpa using h)

theorem forwardedRecordArrival_gone (h : NoRec s r.seq) : exec (.forwardedRecordArrival cl r) s = .next s :=
  if_pos (by simpa [NoRec] using h)

end

/-! ## The save of a victim (R140, R196) -/

section
variable {s : State} {n : Nat} {r : LRec}

theorem preemptSaveDone_none (hr : (ctxOf s n).preempt = none) (h : (ctxOf s n).active = true ∨ fget s.saved n = none) :
    exec (.preemptSaveDone n) s = .next s := by
  simp only [exec_preemptSaveDone, execPreemptSaveDone, hr]
  exact congrArg _ (if_pos (h.imp_right fun h => by rw [h]; rfl))

theorem preemptSaveDone_starts (hr : (ctxOf s n).preempt = some r) (ha : (ctxOf s n).active = true)
    (hd : (ctxOf s n).dying = false) (hw : (ctxOf s n).wait = .none) (hl : (ctxOf s n).loads = []) (hsb : (ctxOf s n).sb = [])
    (hg : (ctxOf s n).grant = none) (hte : (clOf s (slotCl n)).te = []) (hi : imagePend s n = none)
    (ho : (ctxOf s n).offAfter = false) (hdl : r.deadline = none) (hv : r.form = .group → (groupOf s r.target).valid = true) :
    Does (.preemptSaveDone n) s fun t => Started s t n r ∧
      (∃ v, fget t.saved n = some v ∧ v.cxa = (ctxOf s n).nameCxa ∧ v.gen = (ctxOf s n).nameGen ∧ v.tag = (ctxOf s n).tag ∧
        v.unacked = (ctxOf s n).unacked) ∧
      (clOf t (slotCl n)).preempts = min ((clOf s (slotCl n)).preempts + 1) 65535 := by
  have hctx := ctxOf_standDown hw hg
  have hte' : (clOf (standDown s n) (slotCl n)).te = [] := (standDown_part hw hg (·.te) (fun _ _ => rfl) _).trans hte
  have he := preemptSaveDone_saves hr ha hd (by simp [atBoundary, hl, hw]) hi (tePreempt_of_no_te _ hte')
    (by rw [hctx]; exact hsb) (by rw [hctx]; exact ho)
  obtain ⟨kcl, kctx, kgr⟩ := kept_of_unwritten (imaged_part (standDown s n) n)
  generalize imaged (standDown s n) n = w at he kcl kctx kgr
  have hgr : w.groups = s.groups := kgr.trans (standDown_groups hw hg)
  have hwc : ctxOf w n = { ctxOf s n with dlPaused := true } := by rw [← hctx, ctxOf, kctx]; rfl
  have hwp : (clOf w (slotCl n)).preempts = (clOf s (slotCl n)).preempts := by
    rw [← standDown_part hw hg (·.preempts) fun _ _ => rfl, clOf, kcl]
    rfl
  generalize hu : vacatedBySave w n (savedEntry (ctxOf (standDown s n) n)) = u at he
  have hug : u.groups = s.groups := by rw [← hu]; exact hgr
  have huc : ctxOf u n = { ctxOf s n with dlPaused := true, active := false, wait := .none, preempt := none, offAfter := false } := by
    rw [← hu, ctxOf_vacatedBySave, hwc]
  have hus : fget u.saved n = some (savedEntry { ctxOf s n with dlPaused := true }) := by
    rw [← hu, hctx]
    exact fget_fset_self _ _ _
  have hup : (clOf u (slotCl n)).preempts = min ((clOf s (slotCl n)).preempts + 1) 65535 := by
    rw [← hu, vacatedBySave, clOf_modCtx, clOf_modCl, ← hwp]
    rfl
  rw [startChosen_of_valid (by simpa only [groupOf, hug] using hv)] at he
  have hslot : ctxOf (lqDrop u r.seq) n = ctxOf u n := rfl
  refine ⟨_, he, activate_starts hdl (by rw [hslot, huc]) (by rw [hslot, huc]) hug,
    ⟨savedEntry { ctxOf s n with dlPaused := true }, ?_, rfl, rfl, rfl, rfl⟩, ?_⟩
  · rw [activate_saved hdl]
    exact hus
  · rw [activate_part hdl _ _ (·.preempts) (fun _ _ => rfl), lqDrop_part (·.preempts) (fun _ _ => rfl), hup]

end

/-- Settles O42: each event of a record by the room, the holder and the contexts it finds. -/
theorem scheduling : Obligations.Scheduling := by
  unfold Obligations.Scheduling
  intro s bs off cl n g h r idle k lq taken room queued on gone
  refine ⟨fun hc => insRec_last (r := taken) hc lq,
    fun a _ hc hq => (congrArg (insRec · taken) hq).trans (insRec_one (r := taken) hc a), launchWrite_shut,
    fun hs => ⟨launchWrite_malformed hs, fun ho hl he => ⟨launchWrite_early hs ho hl he, ?_⟩⟩, launchDelivery_empty,
    fun hb hc hs => ⟨launchDelivery_enters hb hc hs, launchDelivery_waits hb hc hs⟩, unheld_ignored,
    fun hh hs => ⟨launchQueueEntry_enters hh hs, launchQueueEntry_refused hh hs⟩,
    fun hh ho => ⟨spawnPacketArrival_enters hh ho, spawnPacketArrival_hops hh ho⟩, schedulerStart_idle,
    schedulerStart_starts_named, idleNotice_marks, forwardedRecordArrival_enters, forwardedRecordArrival_gone,
    fun hq ha _ hc => ⟨schedulerStart_starts_arrived hq ha hc, schedulerStart_discards_arrived hq ha hc,
      schedulerStart_returns_arrived hq ha⟩, rfl, preemptSaveDone_none,
    fun hr ha hd hw hl hsb hg hte _ => preemptSaveDone_starts hr ha hd hw hl hsb hg hte⟩
  rintro hd hst hb rfl hbad hf hc
  exact (launchWrite_one hs ho hl he).trans (congrArg _ (launchIn_takes hd hst hb hbad hf hc))

end Sys2Proof.Safety
end

section
/-!
SUPPORT. A context of an anvil whose pc stands further on: what reads the same in that state, and the slots, each of which does
the same there. No slot but LOOP reads its own pc, so a bundle's size can be added to it before its slots act or after (R392).
-/

namespace Sys2Proof.Machine

/-! ## Changes of several entries -/

/-- Entries of different keys may be written in either order. -/
theorem fset_fset_comm {α : Type} (m : FMap α) {i j : Nat} (h : i ≠ j) (v w : α) :
    fset (fset m i v) j w = fset (fset m j w) i v := by
  induction m with
  | nil => grind [fset]
  | cons p t ih => grind [fset]

/-- The last of two writes of an entry stands. -/
theorem fset_fset_self {α : Type} (m : FMap α) (i : Nat) (v w : α) : fset (fset m i v) i w = fset m i w := by
  induction m with
  | nil => simp [fset]
  | cons p t ih => grind [fset]

/-- Only what a change makes of the anvil that it meets matters. -/
theorem modAv_congr {s : State} {i : Nat} {f g : Anvil → Anvil} (h : f (avOf s i) = g (avOf s i)) :
    modAv s i f = modAv s i g := by
  simp only [modAv, h]

theorem modAv_modAv (s : State) (i : Nat) (f g : Anvil → Anvil) : modAv (modAv s i g) i f = modAv s i fun a => f (g a) := by
  simp only [modAv, avOf, fget_fset_self, Option.getD_some, fset_fset_self]

/-- Changes of anvils that commute on an anvil commute on the machine. -/
theorem modAv_comm (s : State) (i j : Nat) (f g : Anvil → Anvil) (h : ∀ a, f (g a) = g (f a)) :
    modAv (modAv s i g) j f = modAv (modAv s j f) i g := by
  by_cases hij : i = j
  · subst hij; simp only [modAv_modAv, h]
  · simp only [modAv, avOf, fget_fset_ne _ _ _ _ hij, fget_fset_ne _ _ _ _ (Ne.symm hij), fset_fset_comm _ hij]

/-! ## A context of an anvil whose pc stands further on -/

/-- The anvil with the pc of one of its contexts `n` bytes on. -/
def Anvil.pcOn (k n : Nat) (a : Anvil) : Anvil :=
  if k = 0 then { a with a := { a.a with pc := a.a.pc + n } } else { a with b := { a.b with pc := a.b.pc + n } }

/-- The state with the pc of one context of an anvil `n` bytes on. -/
def pcOn (av k n : Nat) (s : State) : State := modAv s av (·.pcOn k n)

theorem pcOn_eq_modAvCtx (av k n : Nat) (s : State) : pcOn av k n s = modAvCtx s av k fun c => { c with pc := c.pc + n } := rfl

section
variable (av k n : Nat) (s : State)

/-- A part of an anvil other than the pcs of its contexts is as it was. -/
theorem pcOn_part {α : Type} (π : Anvil → α) (h : ∀ a : Anvil, π (a.pcOn k n) = π a) (j : Nat) :
    π (avOf (pcOn av k n s) j) = π (avOf s j) := by
  by_cases hj : j = av
  · subst hj; rw [pcOn, avOf_modAv, h]
  · rw [pcOn, avOf_modAv_ne _ _ _ _ hj]

theorem Anvil.pcOn_cyc (a : Anvil) : (a.pcOn k n).cyc = a.cyc := by unfold pcOn; split <;> rfl
theorem Anvil.pcOn_cur (a : Anvil) : (a.pcOn k n).cur = a.cur := by unfold pcOn; split <;> rfl
theorem Anvil.pcOn_qs (a : Anvil) : (a.pcOn k n).qs = a.qs := by unfold pcOn; split <;> rfl
theorem Anvil.pcOn_ldBusy (a : Anvil) : (a.pcOn k n).ldBusy = a.ldBusy := by unfold pcOn; split <;> rfl

@[simp] theorem cyc_pcOn (j : Nat) : (avOf (pcOn av k n s) j).cyc = (avOf s j).cyc :=
  pcOn_part av k n s (·.cyc) (Anvil.pcOn_cyc k n) j
@[simp] theorem ldBusy_pcOn (j : Nat) : (avOf (pcOn av k n s) j).ldBusy = (avOf s j).ldBusy :=
  pcOn_part av k n s (·.ldBusy) (Anvil.pcOn_ldBusy k n) j
@[simp] theorem ic_pcOn : ic (pcOn av k n s) = ic s := pcOn_part av k n s (·.cur) (Anvil.pcOn_cur k n) s.av
@[simp] theorem tqOf_pcOn (j q : Nat) : tqOf (pcOn av k n s) j q = tqOf s j q :=
  pcOn_part av k n s (·.qs[q % 8]!) (fun a => by rw [a.pcOn_qs]) j
@[simp] theorem tqRoom_pcOn (j q : Nat) : tqRoom (pcOn av k n s) j q = tqRoom s j q := by simp only [tqRoom, tqOf_pcOn]
@[simp] theorem avCyc_pcOn : avCyc (pcOn av k n s) = avCyc s := cyc_pcOn av k n s s.av
@[simp] theorem cellOf_pcOn (c i : Nat) : cellOf (pcOn av k n s) c i = cellOf s c i := rfl
@[simp] theorem cellZero_pcOn (c : Nat) (x : Cell) : cellZero (pcOn av k n s) c x = cellZero s c x := rfl
@[simp] theorem clOf_pcOn (c : Nat) : clOf (pcOn av k n s) c = clOf s c := rfl
@[simp] theorem av_pcOn : (pcOn av k n s).av = s.av := rfl
@[simp] theorem evq_pcOn : (pcOn av k n s).evq = s.evq := rfl

/-- A change of an anvil that neither reads nor writes a pc. -/
theorem modAv_pcOn (j : Nat) {f : Anvil → Anvil} (h : ∀ a : Anvil, f (a.pcOn k n) = (f a).pcOn k n) :
    modAv (pcOn av k n s) j f = pcOn av k n (modAv s j f) := modAv_comm s av j f _ h

/-- A change of an anvil that leaves its contexts alone. -/
theorem modAv_pcOn_of_ctxs (j : Nat) {f : Anvil → Anvil}
    (h : ∀ (a : Anvil) (x y : AvCtx), f { a with a := x, b := y } = { f a with a := x, b := y }) :
    modAv (pcOn av k n s) j f = pcOn av k n (modAv s j f) :=
  modAv_pcOn av k n s j fun a => by
    have ha : (f a).a = a.a := (congrArg Anvil.a (h a a.a a.b) :)
    have hb : (f a).b = a.b := (congrArg Anvil.b (h a a.a a.b) :)
    unfold Anvil.pcOn
    split
    · exact (h a _ a.b).trans (by rw [ha, ← hb])
    · exact (h a a.a _).trans (by rw [hb, ← ha])

@[simp] theorem modTq_pcOn (j q : Nat) (f : TileQ → TileQ) : modTq (pcOn av k n s) j q f = pcOn av k n (modTq s j q f) :=
  modAv_pcOn_of_ctxs av k n s j fun _ _ _ => rfl

@[simp] theorem tqPut_pcOn (j q h f : Nat) : tqPut (pcOn av k n s) j q h f = pcOn av k n (tqPut s j q h f) :=
  modTq_pcOn av k n s j q _

/-- A change of a context that neither reads nor writes its pc. -/
theorem modIc_pcOn {f : AvCtx → AvCtx} (h : ∀ c : AvCtx, f { c with pc := c.pc + n } = { f c with pc := (f c).pc + n }) :
    modIc (pcOn av k n s) f = pcOn av k n (modIc s f) := by
  simp only [modIc, modAvCtx, ic_pcOn]
  refine modAv_pcOn av k n s s.av fun a => ?_
  unfold Anvil.pcOn
  by_cases hk : k = 0 <;> by_cases hi : ic s = 0 <;> simp only [hk, hi, if_true, if_false, h]

@[simp] theorem land_pcOn (lat : Nat) (e : AvEff) : land (pcOn av k n s) lat e = pcOn av k n (land s lat e) := by
  simp only [land, avCyc_pcOn]
  exact modIc_pcOn av k n s fun _ => rfl

@[simp] theorem branchSlot_pcOn (b : Bool) (t : BitVec 14) : branchSlot (pcOn av k n s) b t = pcOn av k n (branchSlot s b t) :=
  modIc_pcOn av k n s fun _ => rfl

@[simp] theorem debit_pcOn (m : Nat) : debit (pcOn av k n s) m = pcOn av k n (debit s m) :=
  modIc_pcOn av k n s fun _ => rfl

@[simp] theorem unitPut_pcOn (m : Nat) (op : VgaRun ⊕ ScanRun) : unitPut (pcOn av k n s) m op = pcOn av k n (unitPut s m op) :=
  modAv_pcOn av k n s s.av fun a => by
    unfold Anvil.pcOn avCtx
    by_cases hk : k = 0 <;> by_cases hc : a.cur = 0 <;> simp [hk, hc]

@[simp] theorem loadPath_pcOn (lat occ : Nat) : loadPath (pcOn av k n s) lat occ =
    ((loadPath s lat occ).1, pcOn av k n (loadPath s lat occ).2) := by
  simp only [loadPath, av_pcOn, cyc_pcOn, ldBusy_pcOn, Prod.mk.injEq, true_and]
  exact modAv_pcOn_of_ctxs av k n s s.av fun _ _ _ => rfl

/-! ### What leaves the anvils alone -/

@[simp] theorem modCell_pcOn (c i : Nat) (f : Cell → Cell) :
    modCell (pcOn av k n s) c i f = pcOn av k n (modCell s c i f) := rfl
@[simp] theorem modCl_pcOn (c : Nat) (f : Cluster → Cluster) : modCl (pcOn av k n s) c f = pcOn av k n (modCl s c f) := rfl

theorem foldl_pcOn {β : Type} (f : State → β → State) (h : ∀ s b, f (pcOn av k n s) b = pcOn av k n (f s b))
    (l : List β) : l.foldl f (pcOn av k n s) = pcOn av k n (l.foldl f s) := List.foldl_hom (pcOn av k n) h

@[simp] theorem eventBytes_pcOn (bs : List Byte) : eventBytes (pcOn av k n s) bs = pcOn av k n (eventBytes s bs) := by
  simp only [eventBytes, apply_ite (pcOn av k n), evq_pcOn]
  rfl

@[simp] theorem combRecord_pcOn (c w sev : Nat) : combRecord (pcOn av k n s) c w sev = pcOn av k n (combRecord s c w sev) :=
  eventBytes_pcOn av k n { s with fresh := s.fresh + 1 } _

@[simp] theorem combDetect_pcOn (c off m : Nat) : combDetect (pcOn av k n s) c off m = pcOn av k n (combDetect s c off m) :=
  foldl_pcOn av k n s _ (fun t w => by
    simp only [clOf_pcOn, modCl_pcOn, combRecord_pcOn, apply_ite (pcOn av k n)]) _

@[simp] theorem countUp_pcOn (l : List (Nat × Nat × Nat)) : countUp (pcOn av k n s) l = pcOn av k n (countUp s l) :=
  foldl_pcOn av k n s _ (fun _ _ => rfl) _

@[simp] theorem tqFreed_pcOn : tqFreed (pcOn av k n s) = pcOn av k n (tqFreed s) :=
  foldl_pcOn av k n s _ (fun _ _ => rfl) _

@[simp] theorem dropPost_pcOn (c i : Nat) : dropPost (pcOn av k n s) c i = pcOn av k n (dropPost s c i) := by
  simp only [dropPost, cellOf_pcOn]
  split
  · rfl
  · split <;> simp

@[simp] theorem doneCell_pcOn (c i : Nat) : doneCell (pcOn av k n s) c i = pcOn av k n (doneCell s c i) := by
  simp only [doneCell, cellOf_pcOn, freeCell, dropPost_pcOn, modCell_pcOn, apply_ite (pcOn av k n)]
  congr 1
  exact foldl_pcOn av k n _ _ (fun _ _ => rfl) _

@[simp] theorem sealCell_pcOn (c i sts : Nat) (l : List (Nat × Nat)) (b : Bool) :
    sealCell (pcOn av k n s) c i sts l b = pcOn av k n (sealCell s c i sts l b) := by
  simp only [sealCell, cellOf_pcOn, cellZero_pcOn, modCell_pcOn]
  exact foldl_pcOn av k n _ _ (fun _ _ => tqPut_pcOn ..) _

@[simp] theorem postSeal_pcOn (c i : Nat) : postSeal (pcOn av k n s) c i = pcOn av k n (postSeal s c i) := by
  simp only [postSeal, cellOf_pcOn]
  cases (cellOf s c i).apost with
  | none => rfl
  | some p =>
    simp only [apply_ite (pcOn av k n)]
    cases p.tgt <;> simp

@[simp] theorem popEntry_pcOn (q : Nat) (e : TqEntry) : popEntry (pcOn av k n s) q e = pcOn av k n (popEntry s q e) := by
  simp [popEntry]

/-! ### Slots -/

theorem loadRows_pcOn (b : State) (h v : BitVec 32) (m w f : Nat) :
    loadRows b (pcOn av k n s) h v m w f = (fun r => (r.1, pcOn av k n r.2)) <$> loadRows b s h v m w f := by
  have hc (c : Cell) (l : List Nat) : l.foldl (fun u i => combDetect u (s.av / 2) (rowOff c (offRow v + i) (offCol v)) w)
      (pcOn av k n s) = pcOn av k n (l.foldl (fun u i => combDetect u (s.av / 2) (rowOff c (offRow v + i) (offCol v)) w) s) :=
    foldl_pcOn av k n s _ (fun t i => combDetect_pcOn av k n t _ _ _) l
  simp only [loadRows, map_bind, av_pcOn, hc]
  refine bind_congr fun c => ?_
  split
  · rfl
  · rw [map_bind]
    refine bind_congr fun _ => ?_
    split <;> rfl

theorem storeRows_pcOn (b : State) (h v : BitVec 32) (q : Bool) (l : List (List (BitVec 36))) (t : Tgt) (i : Bool) :
    storeRows b (pcOn av k n s) h v q l t i = pcOn av k n <$> storeRows b s h v q l t i := by
  simp only [storeRows, map_bind, av_pcOn, countUp_pcOn]
  refine bind_congr fun c => ?_
  split
  · rfl
  · rw [map_bind]
    refine bind_congr fun _ => ?_
    rw [modAv_pcOn_of_ctxs _ _ _ _ _ fun _ _ _ => rfl, land_pcOn]
    rfl

section
variable (b : State)

theorem ok_land_pcOn (lat : Nat) (e : AvEff) :
    (.ok (land (pcOn av k n s) lat e) : Ares) = pcOn av k n <$> .ok (land s lat e) :=
  congrArg Except.ok (land_pcOn ..)

theorem ok_branchSlot_pcOn (t : Bool) (d : BitVec 14) :
    (.ok (branchSlot (pcOn av k n s) t d) : Ares) = pcOn av k n <$> .ok (branchSlot s t d) :=
  congrArg Except.ok (branchSlot_pcOn ..)

theorem ok_modIc_pcOn {f : AvCtx → AvCtx} (h : ∀ c : AvCtx, f { c with pc := c.pc + n } = { f c with pc := (f c).pc + n }) :
    (.ok (modIc (pcOn av k n s) f) : Ares) = pcOn av k n <$> .ok (modIc s f) := congrArg Except.ok (modIc_pcOn av k n s h)

theorem slotLext_pcOn (l : Fin 8) (a : Fin 16) :
    slotLext l a b (pcOn av k n s) = pcOn av k n <$> slotLext l a b s :=
  ok_modIc_pcOn av k n s fun c => by dsimp only; split <;> rfl

theorem slotPopq_pcOn (h : Fin 8) (q : Option (Fin 8)) (f : Option (Fin 16)) :
    slotPopq h q f b (pcOn av k n s) = pcOn av k n <$> slotPopq h q f b s := by
  have hm (s : State) : modIc (pcOn av k n s) (fun c => { c with resv := none }) =
      pcOn av k n (modIc s fun c => { c with resv := none }) := modIc_pcOn av k n s fun _ => rfl
  simp only [slotPopq, av_pcOn, tqOf_pcOn, ic_pcOn, popEntry_pcOn, hm]
  cases q with
  | none =>
    cases (icx b).resv with
    | none => rfl
    | some r =>
      cases he : (tqOf s s.av r.1).es.find? fun e => e.num == r.2 && e.resv == some (ic s) with
      | none => simp only [he]; rfl
      | some e => cases f <;> simp [he]
  | some q =>
    cases he : freeEntry (tqOf s s.av q) with
    | none => simp only [he]; rfl
    | some e => cases f <;> simp [he]

theorem slotPushq_pcOn (h q : Fin 8) : slotPushq h q b (pcOn av k n s) = pcOn av k n <$> slotPushq h q b s := by
  simp [slotPushq, apply_ite (Functor.map (pcOn av k n))]

theorem slotDone_pcOn (h : Fin 8) : slotDone h b (pcOn av k n s) = pcOn av k n <$> slotDone h b s := by
  simp [slotDone]

theorem slotTrgset_pcOn (t : Fin 4) (arm : Option (Fin 8 × Fin 16 × Fin 16)) :
    slotTrgset t arm b (pcOn av k n s) = pcOn av k n <$> slotTrgset t arm b s := by
  simp only [slotTrgset, av_pcOn, ic_pcOn]
  cases arm <;> exact congrArg Except.ok (modAv_pcOn_of_ctxs av k n s s.av fun _ _ _ => rfl)

theorem slotLdt_pcOn (t : Bool) (m : Fin 4) (h : Fin 8) (r : Fin 16) :
    slotLdt t m h r b (pcOn av k n s) = pcOn av k n <$> slotLdt t m h r b s := by
  simp [slotLdt, loadRows_pcOn]

theorem slotLdth_pcOn (t : Bool) (m : Fin 4) (h : Fin 8) (r : Fin 16) (x : Fin 2) :
    slotLdth t m h r x b (pcOn av k n s) = pcOn av k n <$> slotLdth t m h r x b s := by
  simp [slotLdth, loadRows_pcOn]

theorem slotLdts_pcOn (t : Bool) (h : Fin 8) (r : Fin 16) :
    slotLdts t h r b (pcOn av k n s) = pcOn av k n <$> slotLdts t h r b s := by
  simp [slotLdts, loadRows_pcOn]

theorem slotLdw_pcOn (w : Fin 16) (h : Fin 8) (r : Fin 16) :
    slotLdw w h r b (pcOn av k n s) = pcOn av k n <$> slotLdw w h r b s := by
  simp [slotLdw, loadRows_pcOn, apply_ite (Functor.map (pcOn av k n))]

theorem mmaSlot_pcOn (o : MmaOps) (half : Bool) (x y : Nat) :
    mmaSlot o half x y b (pcOn av k n s) = pcOn av k n <$> mmaSlot o half x y b s := by
  simp only [mmaSlot, map_bind, debit_pcOn, av_pcOn]
  rw [modAv_pcOn_of_ctxs _ _ _ _ _ fun _ _ _ => rfl, land_pcOn]
  rfl

theorem slotVga_pcOn (acc : Fin 4) (x y : Fin 8) (r : Fin 16) :
    slotVga acc x y r b (pcOn av k n s) = pcOn av k n <$> slotVga acc x y r b s := by
  simp [slotVga]

theorem slotScan_pcOn (d : Fin 16) (x y : Fin 8) :
    slotScan d x y b (pcOn av k n s) = pcOn av k n <$> slotScan d x y b s := by
  simp [slotScan]

theorem vecOp_pcOn (d a x : Fin 16) (r : Bool) (lat : Nat)
    (f : BitVec 36 → BitVec 36 → BitVec 36 → BitVec 36 × BitVec 12) :
    vecOp d a x r lat f b (pcOn av k n s) = pcOn av k n <$> vecOp d a x r lat f b s := by
  simp [vecOp, apply_ite (Functor.map (pcOn av k n))]

theorem slotWcvt_pcOn (d a : Fin 16) (f : Fin 32) (m : Fin 4) :
    slotWcvt d a f m b (pcOn av k n s) = pcOn av k n <$> slotWcvt d a f m b s := by
  unfold slotWcvt
  exact vecOp_pcOn ..

theorem specialSlot_pcOn (m : Nat) (d a : Fin 16) (f : BitVec 36 → FVal → Option (BitVec 36 × BitVec 12)) :
    specialSlot m d a f b (pcOn av k n s) = pcOn av k n <$> specialSlot m d a f b s := vecOp_pcOn ..

theorem slotRed_pcOn (p : Fin 4) (w : Fin 16) (t : Bool) (l : Fin 32) :
    slotRed p w t l b (pcOn av k n s) = pcOn av k n <$> slotRed p w t l b s := by
  simp [slotRed]

theorem slotRedmax_pcOn (p : Fin 4) (w : Fin 16) (t : Bool) (l : Fin 32) :
    slotRedmax p w t l b (pcOn av k n s) = pcOn av k n <$> slotRedmax p w t l b s := by
  simp [slotRedmax]

theorem slotMov_pcOn (w : Fin 16) (p : Fin 4) (t : Bool) :
    slotMov w p t b (pcOn av k n s) = pcOn av k n <$> slotMov w p t b s := by
  cases t <;> simp [slotMov]

theorem slotMova_pcOn (t : Bool) (acc : Fin 4) (w r : Fin 16) (c : Bool) :
    slotMova t acc w r c b (pcOn av k n s) = pcOn av k n <$> slotMova t acc w r c b s := by
  cases t <;> simp [slotMova]

theorem slotMovs_pcOn (t : Bool) (r : Fin 16) (h : Fin 8) :
    slotMovs t r h b (pcOn av k n s) = pcOn av k n <$> slotMovs t r h b s := by
  cases t <;> exact ok_land_pcOn ..

theorem slotStcw_pcOn (w : Fin 16) (h : Fin 8) (r : Fin 16) (f : Fin 32) (t : Fin 4) (i : Bool) :
    slotStcw w h r f t i b (pcOn av k n s) = pcOn av k n <$> slotStcw w h r f t i b s := by
  simp [slotStcw, storeRows_pcOn]

theorem slotPost_pcOn (h : Fin 8) (r : Option (Fin 16)) :
    slotPost h r b (pcOn av k n s) = pcOn av k n <$> slotPost h r b s := by
  have hm (s : State) (j : Nat) : modAv (pcOn av k n s) j (fun a => { a with stcBusy := a.cyc + 1 }) =
      pcOn av k n (modAv s j fun a => { a with stcBusy := a.cyc + 1 }) := modAv_pcOn_of_ctxs av k n s j fun _ _ _ => rfl
  cases r <;> simp [slotPost, hm, apply_ite (Functor.map (pcOn av k n))]

end
end

end Sys2Proof.Machine
end

section
/-!
SUPPORT. What a slot word can hold, a bundle of one slot, and the context that a fault ends (R194, R289, R392).
-/

namespace Sys2Proof.Machine

/-! ## What the operation of a slot can be -/

/-- The effect of a slot to which the pc of its own context is nothing: it does the same further on, with the same faults. -/
def PcFree (run : State → State → Ares) : Prop := ∀ b av k n s, run b (pcOn av k n s) = pcOn av k n <$> run b s

/-- The operation of a slot ends its context, waits, is LOOP, or issues by its own effect, to which no pc matters. -/
inductive SlotOp : Instr → Prop
  | halt : SlotOp .halt
  | wait {i : Instr} (h : isWait i = true) : SlotOp i
  | loop {h : Fin 8} {e : Fin 4} {f : Fin 16} {g : BitVec 10} : SlotOp (.loop h e f g)
  | plain {i : Instr} (run : State → State → Ares) (hp : PcFree run) (hr : slotRun i = run := by rfl)
      (hx : ∀ s, exec i s = runSlot i run s := by exact fun _ => rfl) : SlotOp i

/-- Every instruction given is the operation of a slot. -/
def Slots (o : Option Instr) : Prop := ∀ i, o = some i → SlotOp i

namespace Slots
variable {i : Instr} {p : Prop} [Decidable p] {o q : Option Instr}

theorem none : Slots none := fun i h => absurd h (Option.some_ne_none i).symm
theorem some (h : SlotOp i) : Slots (some i) := fun _ hi => Option.some.inj hi ▸ h
theorem ite (h : Slots o) (hq : Slots q) : Slots (if p then o else q) := by split <;> assumption
theorem guard (h : Slots o) : Slots (if p then o else .none) := ite h none
theorem accept (h : SlotOp i) : Slots (accept i) := by
  unfold Sys2Proof.accept
  exact guard (some h)
theorem plain (run : State → State → Ares) (hp : PcFree run) (hr : slotRun i = run := by rfl)
    (hx : ∀ s, exec i s = runSlot i run s := by exact fun _ => rfl) : Slots (.some i) := some (.plain run hp hr hx)

end Slots

theorem slots_decodeSeq (w : Nat) : Slots (decodeSeq w) := by
  unfold decodeSeq
  extract_lets z
  split
  · exact .guard (.plain slotNone fun _ _ _ _ _ => rfl)
  · exact .guard (.some .halt)
  · exact .guard (.plain (slotBr _) fun _ _ _ _ _ => ok_branchSlot_pcOn ..)
  · exact .guard (.plain (slotBrz _ _) fun _ _ _ _ _ => ok_branchSlot_pcOn ..)
  · exact .guard (.plain (slotBrnz _ _) fun _ _ _ _ _ => ok_branchSlot_pcOn ..)
  · exact .accept .loop
  · exact .accept (.plain (slotLstr _ _ _ _) fun _ _ _ _ _ => ok_modIc_pcOn _ _ _ _ fun _ => rfl)
  · exact .guard (.accept (.plain (slotLext _ _) fun _ _ _ _ _ => slotLext_pcOn ..))
  · exact .guard (.accept (.plain (slotLgate _) fun _ _ _ _ _ => ok_land_pcOn ..))
  · exact .guard (.accept (.wait rfl))
  · exact .guard (.some (.wait rfl))
  · exact .guard (.ite (.plain (slotPopq (hf w 16) (some (hf w 12)) _) fun _ _ _ _ _ => slotPopq_pcOn ..)
      (.guard (.plain (slotPopq (hf w 16) none _) fun _ _ _ _ _ => slotPopq_pcOn ..)))
  · exact .guard (.plain (slotPushq _ _) fun _ _ _ _ _ => slotPushq_pcOn ..)
  · exact .guard (.ite (.plain (slotTrgset _ (some (hf w 14, sf w 10, sf w 6))) fun _ _ _ _ _ => slotTrgset_pcOn ..)
      (.guard (.plain (slotTrgset _ none) fun _ _ _ _ _ => slotTrgset_pcOn ..)))
  · exact .guard (.some (.wait rfl))
  · exact .guard (.plain (slotDone _) fun _ _ _ _ _ => slotDone_pcOn ..)
  · exact .plain (slotSli _ _) fun _ _ _ _ _ => ok_land_pcOn ..
  · exact .ite (.plain (slotSadd _ _ _) fun _ _ _ _ _ => ok_land_pcOn ..)
      (.guard (.plain (slotSadd _ _ _) fun _ _ _ _ _ => ok_land_pcOn ..))
  · exact .ite (.plain (slotSsub _ _ _) fun _ _ _ _ _ => ok_land_pcOn ..)
      (.guard (.plain (slotSsub _ _ _) fun _ _ _ _ _ => ok_land_pcOn ..))
  · exact .ite (.plain (slotSand _ _ _) fun _ _ _ _ _ => ok_land_pcOn ..)
      (.guard (.plain (slotSand _ _ _) fun _ _ _ _ _ => ok_land_pcOn ..))
  · exact .guard (.plain (slotSshl _ _ _) fun _ _ _ _ _ => ok_land_pcOn ..)
  · exact .guard (.plain (slotFpcr _) fun _ _ _ _ _ => ok_land_pcOn ..)
  · exact .guard (.plain (slotFpcw _) fun _ _ _ _ _ => ok_land_pcOn ..)
  · exact .none

theorem slots_decodeLdt (w : Nat) : Slots (decodeLdt w) := by
  unfold decodeLdt
  extract_lets z m
  split
  · exact .guard (.plain (slotLdt _ _ _ _) fun _ _ _ _ _ => slotLdt_pcOn ..)
  · exact .guard (.plain (slotLdth _ _ _ _ _) fun _ _ _ _ _ => slotLdth_pcOn ..)
  · exact .guard (.plain (slotLdts _ _ _) fun _ _ _ _ _ => slotLdts_pcOn ..)
  · exact .guard (.plain (slotLdw _ _ _) fun _ _ _ _ _ => slotLdw_pcOn ..)
  · exact .none

theorem slots_decodeMma (w : Nat) : Slots (decodeMma w) := by
  unfold decodeMma
  split
  · exact .guard (.plain (slotMma _) fun _ _ _ _ _ => mmaSlot_pcOn ..)
  · exact .plain (slotMmah _ _ _) fun _ _ _ _ _ => mmaSlot_pcOn ..
  · exact .none

theorem slots_decodeVga (w : Nat) : Slots (decodeVga w) := by
  unfold decodeVga
  extract_lets z
  split
  · exact .guard (.plain (slotVga _ _ _ _) fun _ _ _ _ _ => slotVga_pcOn ..)
  · exact .guard (.some (.wait rfl))
  · exact .guard (.plain (slotScan _ _ _) fun _ _ _ _ _ => slotScan_pcOn ..)
  · exact .guard (.some (.wait rfl))
  · exact .none

theorem slots_decodeVec (w : Nat) : Slots (decodeVec w) := by
  unfold decodeVec
  extract_lets z d a x int
  split
  · exact .guard (.plain (slotWadd d a x int) fun _ _ _ _ _ => vecOp_pcOn ..)
  · exact .guard (.plain (slotWsub d a x int) fun _ _ _ _ _ => vecOp_pcOn ..)
  · exact .guard (.plain (slotWmul d a x int) fun _ _ _ _ _ => vecOp_pcOn ..)
  · exact .guard (.plain (slotWfma d a x int) fun _ _ _ _ _ => vecOp_pcOn ..)
  · exact .guard (.plain (slotWmax d a x int) fun _ _ _ _ _ => vecOp_pcOn ..)
  · exact .guard (.plain (slotWmin d a x int) fun _ _ _ _ _ => vecOp_pcOn ..)
  · exact .guard (.accept (.plain (slotWcvt d a _ _) fun _ _ _ _ _ => slotWcvt_pcOn ..))
  · exact .guard (.plain (slotWexp d a) fun _ _ _ _ _ => specialSlot_pcOn ..)
  · exact .guard (.plain (slotWlog d a) fun _ _ _ _ _ => specialSlot_pcOn ..)
  · exact .guard (.plain (slotWrcp d a) fun _ _ _ _ _ => specialSlot_pcOn ..)
  · exact .guard (.plain (slotWrsq d a) fun _ _ _ _ _ => specialSlot_pcOn ..)
  · exact .guard (.plain (slotWtanh d a) fun _ _ _ _ _ => specialSlot_pcOn ..)
  · exact .guard (.plain (slotWsig d a) fun _ _ _ _ _ => specialSlot_pcOn ..)
  · exact .none

theorem slots_decodeRed (w : Nat) : Slots (decodeRed w) := by
  unfold decodeRed
  extract_lets z p
  split
  · exact .guard (.plain (slotRed _ _ _ _) fun _ _ _ _ _ => slotRed_pcOn ..)
  · exact .guard (.plain (slotRedmax _ _ _ _) fun _ _ _ _ _ => slotRedmax_pcOn ..)
  · exact .guard (.plain (slotRedclr _ _) fun _ _ _ _ _ => ok_land_pcOn ..)
  · exact .none

theorem slots_decodeStc (w : Nat) : Slots (decodeStc w) := by
  unfold decodeStc
  extract_lets z
  split
  · exact .guard (.accept (.plain (slotStc _ _ _ _ _ _) fun _ _ _ _ _ => storeRows_pcOn ..))
  · exact .accept (.plain (slotStcw _ _ _ _ _ _) fun _ _ _ _ _ => slotStcw_pcOn ..)
  · exact .guard (.plain (slotPost _ _) fun _ _ _ _ _ => slotPost_pcOn ..)
  · exact .none

theorem slots_decodeMov (w : Nat) : Slots (decodeMov w) := by
  unfold decodeMov
  extract_lets z
  split
  · exact .guard (.plain (slotMov _ _ _) fun _ _ _ _ _ => slotMov_pcOn ..)
  · exact .guard (.plain (slotMova _ _ _ _ _) fun _ _ _ _ _ => slotMova_pcOn ..)
  · exact .guard (.plain (slotMovs _ _ _) fun _ _ _ _ _ => slotMovs_pcOn ..)
  · exact .guard (.plain (slotZacc _) fun _ _ _ _ _ => ok_land_pcOn ..)
  · exact .none

/-- A slot word holds the operation of a slot. -/
theorem slots_decodeSlotOp (w : Nat) : Slots (decodeSlotOp w) := by
  unfold decodeSlotOp
  split
  · exact slots_decodeSeq w
  · exact slots_decodeLdt w
  · exact slots_decodeMma w
  · exact slots_decodeVga w
  · exact slots_decodeVec w
  · exact slots_decodeRed w
  · exact slots_decodeStc w
  · exact slots_decodeMov w
  · exact .none


/-! ## Bundles of one slot -/

/-- The slots of a bundle that issues were decoded from words. -/
theorem mapM_of_fetchBundle {s : State} {av pc : Nat} {ss : List Slot} (h : fetchBundle s av pc = .ok ss) :
    ∃ ws : List Nat, ws.mapM decodeSlot = some ss := by
  unfold fetchBundle at h
  split at h
  · cases h
  next ws _ =>
    extract_lets bad at h
    have hbad : bad ≠ .ok ss := by
      intro hb
      simp only [bad] at hb
      split at hb <;> cases hb
    split at h
    · exact absurd h hbad
    next ss' hm =>
      split at h
      · cases h; exact ⟨ws, hm⟩
      · exact absurd h hbad

theorem mem_of_mapM {α β : Type} {f : α → Option β} {l : List α} {m : List β} (h : l.mapM f = some m) {x : β}
    (hx : x ∈ m) : ∃ a, f a = some x := by
  induction l generalizing m with
  | nil => cases h; cases hx
  | cons a l ih =>
    simp only [List.mapM_cons, Option.bind_eq_bind, Option.bind_eq_some_iff, Option.pure_def, Option.some.injEq] at h
    obtain ⟨y, hy, r, hr, rfl⟩ := h
    rcases List.mem_cons.1 hx with rfl | hx
    · exact ⟨a, hy⟩
    · exact ih hr hx

theorem slotOp_of_fetchBundle {s : State} {av pc : Nat} {ss : List Slot} (h : fetchBundle s av pc = .ok ss) {x : Slot}
    (hx : x ∈ ss) : SlotOp x.op := by
  obtain ⟨ws, hm⟩ := mapM_of_fetchBundle h
  obtain ⟨w, hw⟩ := mem_of_mapM hm hx
  simp only [decodeSlot, Option.map_eq_some_iff] at hw
  obtain ⟨i, hi, rfl⟩ := hw
  exact slots_decodeSlotOp w i hi

/-! ### Ends -/

theorem avCtx_modAvCtx (s : State) (av k : Nat) (f : AvCtx → AvCtx) :
    avCtx (avOf (modAvCtx s av k f) av) k = f (avCtx (avOf s av) k) := by
  rw [modAvCtx, avOf_modAv]
  unfold avCtx
  split <;> rfl

/-- A change of one context of an anvil keeps of both what it keeps of that one. -/
theorem avCtx_modAvCtx_part {α : Type} (π : AvCtx → α) (s : State) (av k j : Nat) {f : AvCtx → AvCtx}
    (h : ∀ c, π (f c) = π c) :
    π (avCtx (avOf (modAvCtx s av k f) av) j) = π (avCtx (avOf s av) j) := by
  rw [modAvCtx, avOf_modAv]
  unfold avCtx
  by_cases hk : k = 0 <;> by_cases hj : j = 0 <;> simp [hk, hj, h]

theorem switchTo_running (s : State) (av k c j : Nat) :
    (avCtx (avOf (switchTo s av k c) av) j).running = (avCtx (avOf s av) j).running := by
  rw [switchTo, avCtx_modAvCtx_part (·.running), avOf_modAv]
  · rfl
  · exact fun _ => rfl

/-- A context that has ended runs no more, whatever the other one does (R179, R399). -/
theorem avEnd_running (s : State) (av k : Nat) : (avCtx (avOf (avEnd s av k) av) k).running = false := by
  unfold avEnd
  extract_lets t u w a
  have hw : (avCtx (avOf w av) k).running = false := by rw [avCtx_modAvCtx]
  split
  · rw [switchTo_running, hw]
  · exact hw

/-- A fault ends its context (R194). -/
theorem avFault_running (s : State) (av k : Nat) (f : AvFault) : (avCtx (avOf (avFault s av k f) av) k).running = false :=
  avEnd_running _ _ _

/-! ### The issue of one slot -/

theorem filter_append_filter_not_one {α : Type} (p : α → Bool) (x : α) : [x].filter p ++ [x].filter (!p ·) = [x] := by
  cases h : p x <;> simp [h]

theorem waitFirst_one (i : Issue) : waitFirst [i] = [i] := filter_append_filter_not_one _ i

/-- The issuing context has nothing to wait for. -/
def unwaited (s : State) : State := modIc s fun c => { c with wait := .none, admitted := false }

theorem pcOn_unwaited (s : State) (size : Nat) :
    modIc s (fun c => { c with pc := (icx s).pc + size, wait := .none, admitted := false }) =
      pcOn s.av (ic s) size (unwaited s) := by
  rw [pcOn, unwaited, modIc, modIc, modAvCtx, modAvCtx, modAv_modAv]
  refine modAv_congr ?_
  unfold Anvil.pcOn icx avCtx
  split <;> rfl

/-- A slot that is no wait and answers a state in which its context still runs has had its own effect: a fault would have ended
the context. -/
theorem run_of_runSlot {i : Instr} {v t : State} {run : State → State → Ares} (hw : isWait i = false)
    (hc : bundleCheck v [(3, { stop := true, unit := fld (encodeWord i) 27 4, gate := 0, op := i })] = .ok ())
    (hx : runSlot i run v = .next t) (hr : (avCtx (avOf t v.av) (ic v)).running = true) : run v (unwaited v) = .ok t := by
  simp only [runSlot, hw, Bool.false_eq_true, false_and, if_false, hc] at hx
  split at hx
  · cases hx
    rw [avFault_running] at hr
    cases hr
  next u hu => cases hx; exact hu

/-- A bundle of one slot does what the slot does, and its pc moves on (R392). -/
theorem issueBundle_one {v t : State} {p size : Nat} {sl : Slot} (hs : SlotOp sl.op) (hw : isWait sl.op = false)
    (hh : sl.op ≠ .halt) (hl : ∀ h e f g, sl.op ≠ .loop h e f g) (hb : bundleCheck v [(p, sl)] = .ok ())
    (hc : bundleCheck v [(3, { stop := true, unit := fld (encodeWord sl.op) 27 4, gate := 0, op := sl.op })] = .ok ())
    (hx : exec sl.op v = .next t) (hr : (avCtx (avOf t v.av) (ic v)).running = true) :
    issueBundle v size [(p, sl)] = modAvCtx (modAvCtx t v.av (ic v) fun c => { c with pc := c.pc + size }) v.av (ic v)
      fun c => c.advance (icx v).pc := by
  rw [← pcOn_eq_modAvCtx]
  have hrun : slotRun sl.op v (pcOn v.av (ic v) size (unwaited v)) = .ok (pcOn v.av (ic v) size t) := by
    generalize sl.op = i at hs hw hh hl hc hx
    cases hs with
    | halt => exact absurd rfl hh
    | wait h => rw [hw] at h; cases h
    | loop => exact absurd rfl (hl _ _ _ _)
    | plain run hp hrun hexec =>
      rw [hrun, hp, run_of_runSlot hw hc ((hexec v).symm.trans hx) hr]
      rfl
  simp only [issueBundle, hb, waitFirst_one, runSlots, pcOn_unwaited, hrun, List.any_cons, List.any_nil, Bool.or_false,
    beq_eq_false_iff_ne.2 hh, Bool.false_eq_true, if_false]

/-- The issuing context's turn when it runs, is ready and has a bundle of one slot (R392). -/
theorem avIssue_one {s v : State} {av p : Nat} {ss : List Slot} {sl : Slot} (hv : v = { s with av := av })
    (hr : (icx v).running = true) (hsw : (avOf s av).switchEnd ≤ (avOf s av).cyc) (hra : (icx v).readyAt ≤ (avOf s av).cyc)
    (hf : fetchBundle v av (icx v).pc = .ok ss)
    (hi : ((List.range ss.length).zip ss).filter (fun i => i.2.op != .nop && (icx v).gateOk i.2.gate) = [(p, sl)])
    (hb : bundleHeld v [(p, sl)] = false) (hw : isWait sl.op = false) :
    avIssue s av = issueBundle v (4 * ss.length) [(p, sl)] := by
  subst hv
  have hsw' : ¬((avOf s av).cyc < (avOf s av).switchEnd ∨ (avOf s av).cyc < (icx { s with av := av }).readyAt) := by omega
  have ha : avOf { s with av := av } av = avOf s av := rfl
  simp only [avIssue, hr, Bool.not_true, Bool.false_eq_true, if_false, ha, if_neg hsw', hf, hi, hb, List.find?_cons,
    hw, List.find?_nil]

end Sys2Proof.Machine
end

section
/-!
SUPPORT. The step of a core: what a fetch leaves of its context, the barrel's choice, and what stands after an instruction that
has issued, and after one that an interlock holds (R142, R143, R310).
-/

namespace Sys2Proof.Machine

/-! ## What a fetch leaves of the contexts -/

theorem ctxs_of_offMemory {s t : State} (h : offMemory t = offMemory s) : t.ctxs = s.ctxs := (congrArg State.ctxs h :)

theorem lineDetect_ctxs (s : State) (line : Nat) : (lineDetect s line).ctxs = s.ctxs :=
  ctxs_of_offMemory (offMemory_of_atHome (lineDetect_finds s line).atHome)

theorem homeLoad_ctxs (s : State) (p : Part) (pts : Nat) : (homeLoad s p pts).2.ctxs = s.ctxs :=
  ctxs_of_offMemory ((setHome_offMemory _ _ _).trans (homeFor_offMemory s _ _ _ _))

theorem tlbFill_ctxs (s : State) (n asid va : Nat) (x : Xl) : (tlbFill s n asid va x).ctxs = s.ctxs := by
  unfold tlbFill
  extract_lets e t u
  change t.ctxs = s.ctxs
  simp only [t]
  split
  · rfl
  · exact ctxs_of_offMemory (walkFill_offMemory s asid va)

/-- What of a context decides that it can issue: it runs, and waits for nothing. -/
def Ctx.standing (c : Ctx) : Bool × Wait := (c.active, c.wait)

theorem standing_of_ctxs {s t : State} (h : t.ctxs = s.ctxs) (n : Nat) : (ctxOf t n).standing = (ctxOf s n).standing := by
  rw [ctxOf, ctxOf, h]

/-- A fetch that gives a word leaves its context running or not, and waiting or not, as `x` says. -/
def FetchRes.Stands (n : Nat) (x : Bool × Wait) : FetchRes → Prop
  | .other _ => True
  | .word _ t => (ctxOf t n).standing = x

variable {s t : State} {n w : Nat}

theorem fetchHome_stands (s : State) (n : Nat) (p : Part) : (fetchHome s n p).Stands n (ctxOf s n).standing := by
  unfold fetchHome
  split
  · trivial
  · have ht := lineDetect_ctxs s p.line
    generalize lineDetect s p.line = t at ht ⊢
    dsimp only
    split
    · trivial
    · have hu := homeLoad_ctxs t p (ctxOf s n).pts
      generalize homeLoad t p (ctxOf s n).pts = x at hu ⊢
      obtain ⟨h, u⟩ := x
      simp only [FetchRes.Stands, ctxOf_modCtx]
      exact standing_of_ctxs (hu.trans ht) n

theorem fetchLine_stands (s : State) (n : Nat) (p : Part) : (fetchLine s n p).Stands n (ctxOf s n).standing := by
  have hu : (ctxOf (modCtx s n fun c => { c with fetched := none }) n).standing = (ctxOf s n).standing := by
    rw [ctxOf_modCtx]; rfl
  unfold fetchLine
  generalize modCtx s n (fun c => { c with fetched := none }) = u at hu ⊢
  dsimp only
  split
  · exact hu
  · exact hu
  · trivial
  · split
    · exact hu ▸ fetchHome_stands u n p
    · split
      · trivial
      · split
        · simp only [FetchRes.Stands, ctxOf_modCtx]
          exact hu
        · trivial

theorem fetchWord_stands (s : State) (n : Nat) : (fetchWord s n).Stands n (ctxOf s n).standing := by
  unfold fetchWord
  extract_lets c pc
  split
  · trivial
  · split
    · trivial
    · split
      · trivial
      · split
        · trivial
        next x _ => exact standing_of_ctxs (tlbFill_ctxs s n c.asid pc x) n ▸ fetchLine_stands _ n _

/-! ## The barrel (R142, R143) -/

theorem mem_rotation {p i : Nat} (h : i ∈ rotation p) : i < 16 := by
  obtain ⟨j, -, rfl⟩ := List.mem_map.1 h
  omega

/-- The context that the barrel picks is a slot of the core, and ready. -/
theorem barrelPick_ready {k i : Nat} {tried : List Nat} {b : IssueBy} (h : barrelPick s k tried = some (i, b)) :
    i < 16 ∧ ready s (16 * k + i) = true := by
  have hp {p : Nat} {f : Nat → Bool} {b' : IssueBy}
      (h : ((rotation p).find? fun i => (!tried.contains i && ready s (16 * k + i)) && f i).map (fun i => (i, b')) =
        some (i, b)) :
      i < 16 ∧ ready s (16 * k + i) = true := by
    simp only [Option.map_eq_some_iff, Prod.mk.injEq] at h
    obtain ⟨j, hj, rfl, -⟩ := h
    have hj' := List.find?_some hj
    simp only [Bool.and_eq_true] at hj'
    obtain ⟨⟨-, hr⟩, -⟩ := hj'
    exact ⟨mem_rotation (List.mem_of_find?_eq_some hj), hr⟩
  unfold barrelPick at h
  extract_lets core ok zero old may pick at h
  rw [Option.orElse_eq_or, Option.orElse_eq_or, Option.or_eq_some_iff, Option.or_eq_some_iff] at h
  rcases h with h | ⟨-, h | ⟨-, h⟩⟩
  · split at h
    · exact hp h
    · cases h
  · exact hp h
  · exact hp h

theorem standing_of_ready (h : ready s n = true) : (ctxOf s n).standing = (true, .none) := by
  simp only [ready, Bool.and_eq_true, beq_iff_eq] at h
  obtain ⟨⟨⟨⟨⟨⟨ha, -⟩, hw⟩, -⟩, -⟩, -⟩, -⟩ := h
  exact Prod.ext ha hw

theorem slotCore_eq {k i : Nat} (h : i < 16) : slotCore (16 * k + i) = k := by
  unfold slotCore; omega

/-! ## After the issue -/

section
variable (k i : Nat) (b : IssueBy)

theorem issued_cx : (issued s k i b).cx = 16 * k + i := rfl

theorem issued_divWait : (coreOf (issued s k i b) k).divWait = (coreOf s k).divWait := by
  unfold issued
  extract_lets u v
  change (coreOf u k).divWait = _
  rw [coreOf_modCore]
  cases b <;> rfl

theorem ctxOf_issued : ctxOf (issued s k i b) (16 * k + i) =
    { ctxOf s (16 * k + i) with lastIssue := some (coreOf s k).cyc, readySince := none } := by
  unfold issued
  extract_lets u v
  have hu : (coreOf u k).cyc = (coreOf s k).cyc := by rw [coreOf_modCore]; cases b <;> rfl
  change ctxOf v (16 * k + i) = _
  rw [ctxOf_modCtx, hu]
  rfl
end

section
variable (t : State) (n : Nat)

theorem unpause_mem : (unpause t n).mem = t.mem := by unfold unpause; split <;> rfl
theorem coreOf_unpause (k : Nat) : coreOf (unpause t n) k = coreOf t k := by unfold unpause; split <;> rfl
theorem ctxOf_unpause : ctxOf (unpause t n) n = { ctxOf t n with dlPaused := false } := by
  unfold unpause
  split
  · rw [ctxOf_modCtx]; rfl
  next h => rw [← Bool.eq_false_iff.2 h]

end

@[simp] theorem ctxOf_again (s : State) (k i : Nat) (l : List Nat) (n : Nat) : ctxOf (again s k i l) n = ctxOf s n := rfl
@[simp] theorem coreOf_again (s : State) (k i : Nat) (l : List Nat) (n : Nat) : coreOf (again s k i l) n = coreOf s n := rfl

/-! ## The step -/

theorem step_due {i : Instr} {q : List Instr} (h : s.due = i :: q) : step s = exec i { s with due := q } := by
  simp only [step, h]

theorem step_agenda {k : Nat} {i : Instr} (hd : s.due = []) (ha : s.agenda ≠ []) (hk : agendaPick s = some k)
    (hi : s.agenda[k]? = some i) : step s = exec i (takeOff s k) := by
  simp only [step, hd, hk, hi, List.isEmpty_iff, ha, if_false]

theorem step_core {k : Nat} {tried : List Nat} {l : List Agent} (hd : s.due = []) (ha : s.agenda = [])
    (ht : s.turns = .core k tried :: l) : step s = coreTurn { s with turns := l } k tried := by
  simp only [step, hd, ha, List.isEmpty_nil, if_true, turn, ht]

/-- A fresh cycle of a core whose barrel picks a context that has a word to run. -/
theorem coreTurn_word {k i : Nat} {b : IssueBy} (hp : barrelPick (beginCycle s k) k [] = some (i, b))
    (ha : asyncDue (beginCycle s k) (16 * k + i) = none) (hh : handlerDue (ctxOf (beginCycle s k) (16 * k + i)) = false)
    (hb : boundaryHeld (beginCycle s k) (16 * k + i) = false) (hc : (ctxOf (beginCycle s k) (16 * k + i)).pc ≠ 0)
    (hf : fetchWord (beginCycle s k) (16 * k + i) = .word w t) :
    coreTurn s k [] = settle (beginCycle s k) k i [] (runWord w (issued t k i b)) := by
  simp only [coreTurn, List.isEmpty_nil, if_true, hp, runSlotOf, ha, Option.isSome_none, Bool.false_eq_true, if_false, hh,
    hb, hc, hf]

theorem settle_issued {k i : Nat} {tried : List Nat} (h : heldUp t (16 * k + i) = false) :
    settle s k i tried (.next t) = .next (unpause t (16 * k + i)) := if_neg (by simp [h])

theorem settle_held {k i : Nat} {tried : List Nat} (h : heldUp t (16 * k + i) = true) :
    settle s k i tried (.next t) = .next (again (modCtx (modCore t k fun c => { c with
        p0 := (coreOf s k).p0, p1 := (coreOf s k).p1, aged := (coreOf s k).aged }) (16 * k + i)
      fun c => { c with lastIssue := (ctxOf s (16 * k + i)).lastIssue }) k i tried) := if_pos h

/-! ## An instruction in hand -/

section
variable {i : Instr} {u : State} (hd : (coreOf s (slotCore s.cx)).divWait = [])
include hd

theorem runInstr_held (h : interlocked s s.cx i = true ∨ stalled s i = true) : runInstr i s = .next (wait310 s s.cx i) := by
  have h' : (interlocked s s.cx i || stalled s i) = true := by simpa using h
  simp only [runInstr, hd, List.isEmpty_nil, if_true, h']

theorem runInstr_traps (hi : interlocked s s.cx i = false) (hs : stalled s i = false) (hx : exec i s = .next u)
    (hu : heldUp u s.cx = false) (ht : trapped s u s.cx = true) (hl : (ctxOf s s.cx).loads = []) : runInstr i s = .next u := by
  simp only [runInstr, hd, List.isEmpty_nil, if_true, hi, hs, Bool.or_self, Bool.false_eq_true, if_false, hx, hu, ht, hl]

theorem runInstr_completes (hi : interlocked s s.cx i = false) (hs : stalled s i = false) (hx : exec i s = .next u)
    (hu : heldUp u s.cx = false) (ht : trapped s u s.cx = false) :
    runInstr i s = .next (divided s (wrote s u s.cx i) s.cx i) := by
  simp only [runInstr, hd, List.isEmpty_nil, if_true, hi, hs, Bool.or_self, Bool.false_eq_true, if_false, hx, hu, ht]

end

theorem runWord_some {i : Instr} (h : decodeSwarm w = some i) : runWord w s = runInstr i s := by simp only [runWord, h]

theorem runWord_none (h : decodeSwarm w = none) (hl : (ctxOf s s.cx).loads = []) :
    runWord w s = .next (takeTrap s { cause := 0x01, tval := w }) := by
  simp only [runWord, h, hl, List.isEmpty_nil, if_true]

/-- An interlock notes when the instruction first issued, and no more but a place among the divides that wait. -/
theorem ctxOf_wait310 (i : Instr) : ctxOf (wait310 s s.cx i) s.cx =
    { ctxOf s s.cx with waitSince := some ((ctxOf s s.cx).waitSince.getD (cycOf s s.cx)) } := by
  unfold wait310
  extract_lets u
  split <;> exact cur_hold s

theorem wait310_other (i : Instr) : (wait310 s n i).turns = s.turns ∧ (wait310 s n i).mem = s.mem := by
  unfold wait310
  extract_lets u
  split <;> exact ⟨rfl, rfl⟩

theorem wrote_of_no_loads (i : Instr) (h : (ctxOf s n).loads = []) : wrote s t n i = t := by simp [wrote, h]

theorem ctxOf_wrote (s t : State) (n : Nat) (i : Instr) : ∃ l, ctxOf (wrote s t n i) n = { ctxOf t n with loads := l } := by
  unfold wrote
  split
  · exact ⟨_, rfl⟩
  · exact ⟨_, by rw [ctxOf_modCtx]; rfl⟩

theorem wrote_other (s t : State) (n : Nat) (i : Instr) : (wrote s t n i).cores = t.cores ∧ (wrote s t n i).mem = t.mem := by
  unfold wrote
  split <;> exact ⟨rfl, rfl⟩

theorem divided_of_none {i : Instr} (h : divCycles (ctxOf s n) i = none) : divided s t n i = t := by simp only [divided, h]

theorem fget_foldl_fset_map (g : Nat → Nat) (due : Nat) {l : List Nat} {r : Nat} (h : r ∈ l) (m : FMap Nat) :
    fget (l.foldl (fun m r => fset m (g r) due) m) (g r) = some due := by
  have := Safety.fget_foldl_fset due (g r) (l.map g) m (.inl (List.mem_map_of_mem h))
  rwa [List.foldl_map] at this

/-- Only what a change makes of the context that it meets matters. -/
theorem modCtx_congr {f g : Ctx → Ctx} (h : f (ctxOf s n) = g (ctxOf s n)) : modCtx s n f = modCtx s n g := by
  simp only [modCtx, h]

/-- A divide has issued: the divider is held, and the result is readable when it is free (R310). -/
theorem divided_of_some {i : Instr} {c : Nat} (h : divCycles (ctxOf s n) i = some c) : ∃ m,
    divided s t n i = modCtx (modCore t (slotCore n) fun k => { k with
      divFree := (coreOf t (slotCore n)).cyc + c, divWait := k.divWait.filter (· != n) }) n (fun x => { x with busy := m }) ∧
    ∀ r ∈ writes i, (fget m ((ctxOf t n).reg r)).isSome = true := by
  simp only [divided, h]
  exact ⟨_, modCtx_congr rfl, fun r hr =>
    (congrArg Option.isSome (fget_foldl_fset_map (ctxOf t n).reg _ hr _) :)⟩

end Sys2Proof.Machine
end

section
/-!
CERTIFICATES. O59: the step of the machine (R142, R143, R283, R310, R392; logs 1 and 22).
-/

namespace Sys2Proof.Safety

open Sys2Proof.Machine

section
variable {s t u : State} {k i w : Nat} {b : IssueBy} {ins : Instr}

/-- A context that stands when the barrel picks it stands before its instruction. -/
theorem standing_issued (hp : barrelPick s k [] = some (i, b)) (hf : fetchWord s (16 * k + i) = .word w t) :
    (ctxOf (issued t k i b) (16 * k + i)).standing = (true, .none) := by
  have ht : (fetchWord s (16 * k + i)).Stands (16 * k + i) (ctxOf s (16 * k + i)).standing := fetchWord_stands s _
  rw [hf, standing_of_ready (barrelPick_ready hp).2] at ht
  rw [ctxOf_issued]
  exact ht

theorem divWait_issued (hi : i < 16) (hd : (coreOf t k).divWait = []) :
    (coreOf (issued t k i b) (slotCore (issued t k i b).cx)).divWait = [] := by
  rw [issued_cx, slotCore_eq hi, issued_divWait, hd]

/-- Whether an interlock holds a context depends on these of its fields alone. -/
theorem heldUp_congr {n : Nat} (hs : (ctxOf t n).standing = (ctxOf s n).standing)
    (hw : (ctxOf t n).waitSince = (ctxOf s n).waitSince) : heldUp t n = heldUp s n := by
  obtain ⟨ha, hb⟩ := Prod.mk.inj hs
  simp only [heldUp, ha, hb, hw]

theorem heldUp_of_standing {n : Nat} (hs : (ctxOf t n).standing = (true, .none)) (hw : (ctxOf t n).waitSince.isSome = true) :
    heldUp t n = true := by
  obtain ⟨ha, hb⟩ := Prod.mk.inj hs
  simp only [heldUp, ha, hb, hw, beq_self_eq_true, Bool.and_self]

theorem heldUp_wrote (s t : State) (n : Nat) (i : Instr) : heldUp (wrote s t n i) n = heldUp t n := by
  obtain ⟨l, hl⟩ := ctxOf_wrote s t n i
  exact heldUp_congr (by rw [hl]; rfl) (by rw [hl])

/-- An instruction that does not issue leaves the issue to another context (R142, R310). -/
theorem settle_wait310 (s : State) (hs : (ctxOf (issued t k i b) (16 * k + i)).standing = (true, .none)) :
    ∃ v, settle s k i [] (.next (wait310 (issued t k i b) (16 * k + i) ins)) = .next v ∧ v.turns = .core k [i] :: t.turns ∧
      (ctxOf v (16 * k + i)).pc = (ctxOf t (16 * k + i)).pc ∧ (ctxOf v (16 * k + i)).x = (ctxOf t (16 * k + i)).x ∧
      (ctxOf v (16 * k + i)).v = (ctxOf t (16 * k + i)).v ∧ v.mem = t.mem ∧ (coreOf v k).p0 = (coreOf s k).p0 ∧
      (coreOf v k).p1 = (coreOf s k).p1 ∧ (coreOf v k).aged = (coreOf s k).aged := by
  have hw := ctxOf_wait310 (s := issued t k i b) ins
  obtain ⟨ht, hm⟩ := wait310_other (s := issued t k i b) (n := 16 * k + i) ins
  rw [issued_cx] at hw
  generalize wait310 (issued t k i b) (16 * k + i) ins = z at hw ht hm ⊢
  have hh : heldUp z (16 * k + i) = true := heldUp_of_standing (by rw [hw]; exact hs) (by rw [hw]; rfl)
  refine ⟨_, settle_held hh, congrArg _ ht, ?_⟩
  simp only [ctxOf_again, ctxOf_modCtx, ctxOf_modCore, hw, ctxOf_issued, coreOf_again, coreOf_modCtx, coreOf_modCore, true_and,
    and_true]
  exact hm

/-- A divide that issues holds the divider, and its result is readable when that is free (R310). -/
theorem settle_divided (s : State) {c : Nat} (hi : i < 16) (hu : heldUp u (16 * k + i) = false)
    (hc : divCycles (ctxOf (issued t k i b) (16 * k + i)) ins = some c) :
    ∃ v, settle s k i [] (.next (divided (issued t k i b) (wrote (issued t k i b) u (16 * k + i) ins) (16 * k + i) ins)) =
        .next v ∧
      (coreOf v k).divFree = (coreOf u k).cyc + c ∧
      (∀ r ∈ writes ins, (fget (ctxOf v (16 * k + i)).busy ((ctxOf u (16 * k + i)).reg r)).isSome = true) ∧
      (ctxOf v (16 * k + i)).x = (ctxOf u (16 * k + i)).x ∧ (ctxOf v (16 * k + i)).v = (ctxOf u (16 * k + i)).v ∧
      (ctxOf v (16 * k + i)).pc = (ctxOf u (16 * k + i)).pc ∧ v.mem = u.mem := by
  have hz := heldUp_wrote (issued t k i b) u (16 * k + i) ins
  obtain ⟨l, hl⟩ := ctxOf_wrote (issued t k i b) u (16 * k + i) ins
  obtain ⟨hcores, hmem⟩ := wrote_other (issued t k i b) u (16 * k + i) ins
  generalize wrote (issued t k i b) u (16 * k + i) ins = z at hz hl hcores hmem ⊢
  obtain ⟨m, hd, hm⟩ := divided_of_some (t := z) hc
  rw [hd, slotCore_eq hi]
  have hh : heldUp (modCtx (modCore z k fun x => { x with
      divFree := (coreOf z k).cyc + c, divWait := x.divWait.filter (· != 16 * k + i) }) (16 * k + i)
      fun x => { x with busy := m }) (16 * k + i) = false := by
    refine (heldUp_congr ?_ ?_).trans (hz.trans hu) <;> rw [ctxOf_modCtx] <;> rfl
  refine ⟨_, settle_issued hh, ?_⟩
  rw [hl] at hm
  have hcyc : (coreOf z k).cyc = (coreOf u k).cyc := by rw [coreOf, hcores]; rfl
  simp only [coreOf_unpause, ctxOf_unpause, unpause_mem, ctxOf_modCtx, ctxOf_modCore, coreOf_modCtx, coreOf_modCore, hl, hcyc,
    true_and]
  exact ⟨hm, hmem⟩

end

/-- Settles O59, by the agenda of the step: a timer, a happening, or the word that the barrel's context fetches. A slot that is
no wait, end or LOOP means the same before and after its pc moves on. -/
theorem stepRunsTheDecoded : Obligations.StepRunsTheDecoded := by
  unfold Obligations.StepRunsTheDecoded
  intro s t u k i n w av p size b l ins q ss sl s1 at_
  refine ⟨?_, step_due, step_agenda, ?_⟩
  · rintro hd ha ht hp rfl has hh hb hc hf
    have hi : i < 16 := (barrelPick_ready hp).1
    have hs : (ctxOf at_ (16 * k + i)).standing = (true, .none) := standing_issued hp hf
    have hstep : step s = settle s1 k i [] (runWord w at_) :=
      (step_core hd ha ht).trans (coreTurn_word hp has hh hb hc hf)
    have hloads : (ctxOf at_ (16 * k + i)).loads = (ctxOf t (16 * k + i)).loads := by rw [ctxOf_issued]
    refine ⟨fun hw hdw => ?_, fun hw hl => ?_⟩
    · have hdiv := divWait_issued (b := b) hi hdw
      rw [hstep, runWord_some hw]
      refine ⟨fun hil hst hx hu => ?_, fun h => ?_⟩
      · refine ⟨fun htr hl => ?_, fun htr hdc => ?_, fun htr c hdc => ?_⟩
        · rw [runInstr_traps hdiv hil hst hx hu htr (hloads.trans hl)]
          exact settle_issued hu
        · rw [runInstr_completes hdiv hil hst hx hu htr, issued_cx, divided_of_none hdc]
          have hz := (heldUp_wrote at_ u (16 * k + i) ins).trans hu
          exact ⟨settle_issued hz, fun hl => by rw [wrote_of_no_loads _ (hloads.trans hl)]; exact settle_issued hu⟩
        · rw [runInstr_completes hdiv hil hst hx hu htr]
          exact settle_divided s1 hi hu hdc
      · rw [runInstr_held hdiv h]
        exact settle_wait310 s1 hs
    · rw [hstep, runWord_none hw (hloads.trans hl)]
  · intro v a c hr hsw hra hf hi hw hb hh hl hc hiss hx hrt hsize
    have hm : (p, sl) ∈ (List.range ss.length).zip ss := List.mem_of_mem_filter (hi ▸ List.mem_singleton_self _)
    have hs : SlotOp sl.op := slotOp_of_fetchBundle hf (List.of_mem_zip hm).2
    rw [avIssue_one rfl hr hsw hra hf hi hb hw, issueBundle_one hs hw hh hl hc hiss.2 hx hrt, ← hsize]
    rfl

end Sys2Proof.Safety
end

section
/-!
SUPPORT. What the end of an activation leaves of the contexts (R160, R161).
-/

namespace Sys2Proof.Machine

/-- What the end of an activation turns on: whether a context runs, the messages and stores it holds, and the record that has
chosen it as victim. -/
def Ctx.holding (c : Ctx) : Bool × List Msg × List SbEntry × Option LRec := (c.active, c.mailbox, c.sb, c.preempt)

/-- The contexts, those that are SAVED, and the slot in hand. -/
def seats (s : State) : FMap Ctx × FMap Saved × Nat := (s.ctxs, s.saved, s.cx)

/-- Every context keeps what it holds, the SAVED ones stay, and the slot in hand is the same. -/
structure CtxsKept (s t : State) : Prop where
  holding : ∀ j, (ctxOf t j).holding = (ctxOf s j).holding
  saved : t.saved = s.saved
  cx : t.cx = s.cx

namespace CtxsKept
variable {s t u : State}

theorem of_seats (h : seats t = seats s) : CtxsKept s t where
  holding j := congrArg (fun m => ((fget m j).getD ({} : Ctx)).holding) (congrArg Prod.fst h :)
  saved := (congrArg (fun x => x.2.1) h :)
  cx := (congrArg (fun x => x.2.2) h :)

theorem refl (s : State) : CtxsKept s s := of_seats rfl

theorem trans (h : CtxsKept s t) (h' : CtxsKept t u) : CtxsKept s u :=
  ⟨fun j => (h'.holding j).trans (h.holding j), h'.saved.trans h.saved, h'.cx.trans h.cx⟩

theorem modCtx {n : Nat} {f : Ctx → Ctx} (h : (f (ctxOf s n)).holding = (ctxOf s n).holding) : CtxsKept s (modCtx s n f) where
  holding j := by
    by_cases hj : j = n
    · subst hj; rw [ctxOf_modCtx, h]
    · rw [ctxOf_modCtx_ne _ _ _ _ hj]
  saved := rfl
  cx := rfl

theorem foldl {β : Type} {f : State → β → State} (h : ∀ s b, CtxsKept s (f s b)) (l : List β) (s : State) :
    CtxsKept s (l.foldl f s) := by
  induction l generalizing s with
  | nil => exact refl s
  | cons b l ih => exact (h s b).trans (ih _)

theorem mailbox (h : CtxsKept s t) (n : Nat) : (ctxOf t n).mailbox = (ctxOf s n).mailbox :=
  congrArg (fun x => x.2.1) (h.holding n)

theorem active (h : CtxsKept s t) (n : Nat) : (ctxOf t n).active = (ctxOf s n).active := congrArg Prod.fst (h.holding n)

theorem sb (h : CtxsKept s t) (n : Nat) : (ctxOf t n).sb = (ctxOf s n).sb := congrArg (fun x => x.2.2.1) (h.holding n)

theorem preempt (h : CtxsKept s t) (n : Nat) : (ctxOf t n).preempt = (ctxOf s n).preempt :=
  congrArg (fun x => x.2.2.2) (h.holding n)

end CtxsKept

/-! ## Records and messages -/

theorem eventBytes_seats (s : State) (bs : List Byte) : seats (eventBytes s bs) = seats s :=
  (congrArg seats (eventBytes_keeps s bs).rest :)

theorem deadLetter_seats (s : State) (cl dest sender : Nat) (w : Word) : seats (deadLetter s cl dest sender w) = seats s :=
  eventBytes_seats _ _

/-- A message that returns, or cannot, is no matter of any context. -/
theorem bounce_seats (s : State) (cl dest : Nat) (m : Msg) (reason : Nat) : seats (bounce s cl dest m reason) = seats s := by
  unfold bounce
  extract_lets w w₁ b
  split
  · exact deadLetter_seats _ _ _ _ _
  · split
    · rfl
    · split
      · split
        · rfl
        · exact deadLetter_seats _ _ _ _ _
      · rfl

theorem bounceAll_seats (s : State) (n name : Nat) : seats (bounceAll s n name) = seats (modCtx s n fun c => { c with mailbox := [] }) :=
  foldl_keeps seats _ (fun u m => bounce_seats u _ _ m 0) _ _

theorem killRecord_seats (s : State) (n cause tval epc : Nat) : seats (killRecord s n cause tval epc) = seats s := by
  unfold killRecord eventSoon
  dsimp only [draw]
  split
  · rfl
  · exact eventBytes_seats _ _

theorem killMessage_seats (s : State) (n cause : Nat) : seats (killMessage s n cause) = seats s := by
  unfold killMessage
  extract_lets c
  split <;> rfl

/-! ## Grants -/

/-- A grant may end the wait for it, and leaves what a context holds. -/
theorem tryGrant_kept (s : State) (d : Nat) (r : AdReq) : CtxsKept s (tryGrant s d r) := by
  unfold tryGrant
  extract_lets die a fits
  split
  · unfold giveGrant
    extract_lets g
    split
    · refine .trans (t := modDie s d fun e => { e with level := e.level - a, reqs := e.reqs.filter (·.who != r.who) })
        (.of_seats rfl) (.modCtx ?_)
      split <;> rfl
    · exact .of_seats rfl
    · exact .of_seats rfl
  · exact .refl s

theorem returnEu_kept (s : State) (d left : Nat) : CtxsKept s (returnEu s d left) :=
  .trans (t := modDie s d fun e => { e with level := e.level + left }) (.of_seats rfl)
    (.foldl (fun t r => tryGrant_kept t d r) _ _)

theorem endGrant_ctx_kept (s : State) (n : Nat) : CtxsKept s (endGrant s (.ctx n)) := by
  simp only [endGrant]
  split
  · exact .refl s
  · have h : CtxsKept s (modCtx s n fun c => { c with grant := none }) := .modCtx rfl
    exact h.trans (returnEu_kept _ _ _)

/-! ## The end of an activation -/

theorem leaveWait_none {s : State} {n : Nat} (h : (ctxOf s n).wait = .none) : leaveWait s n = modCtx s n Ctx.unwaiting := by
  simp only [leaveWait, h]; rfl

theorem unpause_kept (s : State) (n : Nat) : CtxsKept s (unpause s n) := by
  unfold unpause
  split
  · exact .trans (t := pauseCells s (nameOf (ctxOf s n)) false) (.of_seats rfl) (.modCtx rfl)
  · exact .refl s

/-- The effects of an end leave what each context holds, if the one that ends waits for nothing and has no message. -/
theorem endEffects_kept {s : State} {n : Nat} (hw : (ctxOf s n).wait = .none) (hm : (ctxOf s n).mailbox = []) :
    CtxsKept s (endEffects s n) := by
  have h1 : CtxsKept s (leaveWait s n) := leaveWait_none hw ▸ .modCtx rfl
  unfold endEffects
  extract_lets name t1 t2 t3 t4
  have h2 : CtxsKept s t2 := by
    refine (h1.trans (.modCtx ?_)).trans (.of_seats (bounceAll_seats t1 n name))
    simp only [Ctx.holding, h1.mailbox, hm]
  have h3 : CtxsKept s t3 := (h2.trans (endGrant_ctx_kept t2 n)).trans (.of_seats rfl)
  have h4 : CtxsKept s t4 := (h3.trans (.of_seats (t := freeRestarts t3 name) rfl)).trans (unpause_kept _ n)
  clear_value t4
  exact h4.trans (.trans (t := modCtx t4 n fun c => { c with deadline := none, pendDl := false, faultDone := none, loads := [] })
    (.modCtx rfl) (.of_seats rfl))

theorem bumpGen_kept (s : State) (name : Nat) : CtxsKept s (bumpGen s name) := .modCtx (by split <;> rfl)

/-- The effects of a kill leave what each context holds, if the one killed waits for nothing and has no message, and end its
activation at once if it has no store to drain. -/
theorem killCtx_ends {s : State} {n : Nat} (hw : (ctxOf s n).wait = .none) (hm : (ctxOf s n).mailbox = [])
    (hb : (ctxOf s n).sb = []) (cause tval epc : Nat) : ∃ t, CtxsKept s t ∧ killCtx s n cause tval epc = finishIdle t n := by
  have hs : seats (killMessage (killRecord s n cause tval epc) n cause) = seats s :=
    (killMessage_seats _ _ _).trans (killRecord_seats _ _ _ _ _)
  unfold killCtx
  extract_lets name t1 t2 t3
  have hc : ctxOf t1 n = ctxOf s n := congrArg (fun m => (fget m n).getD ({} : Ctx)) (congrArg Prod.fst hs :)
  have h1 : CtxsKept s t1 := .of_seats hs
  have h2 : CtxsKept s t2 := (h1.trans (endEffects_kept (hc ▸ hw) (hc ▸ hm))).trans (bumpGen_kept _ name)
  clear_value t2
  have h3 : CtxsKept s t3 := h2.trans (.modCtx rfl)
  exact ⟨t3, h3, if_pos (by simp [h3.sb, hb])⟩

/-- A KILL that waits for the end of a context completes with it (R391). -/
def Ctx.killAnswered (name : Nat) (c : Ctx) : Ctx := if c.wait = .killing name then c.goto (c.pc + 4) else c

theorem killAnswered_holding (name : Nat) (c : Ctx) : (c.killAnswered name).holding = c.holding := by
  unfold Ctx.killAnswered
  split <;> rfl

/-- The KILLs that wait for the end of a name complete. -/
def answerKills (s : State) (name : Nat) : State :=
  { s with ctxs := s.ctxs.map fun p => (p.1, p.2.killAnswered name) }

theorem answerKills_kept (s : State) (name : Nat) : CtxsKept s (answerKills s name) where
  holding j := by
    simp only [answerKills, ctxOf, fget_map]
    cases fget s.ctxs j with
    | none => rfl
    | some c => exact killAnswered_holding name c
  saved := rfl
  cx := rfl

/-- What an idle slot keeps of the context that has ended there (R121, R160). -/
def Ctx.ended (c : Ctx) : Ctx :=
  { c.applyGrp with active := false, dying := false, offAfter := false, wait := .none, waitSince := none, parked := false,
                    fencing := false, moving := none, preempt := none, lastIssue := none, readySince := none }

/-- A slot whose context no record has chosen and that holds no SAVED one turns IDLE. -/
theorem finishIdle_eq {s : State} {n : Nat} (hp : (ctxOf s n).preempt = none) (hs : fget s.saved n = none) :
    finishIdle s n = idleNotices (answerKills (modCore (modCtx s n Ctx.ended) (slotCore n) fun k => k.applyBits (n % 16))
      (nameOf (ctxOf s n))) n := by
  have hk : (modCtx s n Ctx.ended).ctxs.map (fun p : Nat × Ctx =>
      if p.2.wait = .killing (nameOf (ctxOf s n)) then (p.1, p.2.goto (p.2.pc + 4)) else p) =
      (modCtx s n Ctx.ended).ctxs.map fun p => (p.1, p.2.killAnswered (nameOf (ctxOf s n))) :=
    List.map_congr_left fun p _ => by unfold Ctx.killAnswered; split <;> rfl
  unfold finishIdle
  extract_lets c t1 t2 t3
  have h3 : t3 = answerKills t2 (nameOf (ctxOf s n)) := congrArg (fun m => { t2 with ctxs := m }) hk
  have hr : resumeSaved t3 n = t3 := by simp only [resumeSaved, show t3.saved = s.saved from rfl, hs]
  simp only [c, hp]
  rw [hr, h3]
  rfl

theorem idleNotices_kept (s : State) (n : Nat) : CtxsKept s (idleNotices s n) :=
  .of_seats (congrArg seats (idleNotices_unclocked s n) :)

theorem Ctx.ended_mailbox (c : Ctx) : c.ended.mailbox = c.mailbox := by
  unfold Ctx.ended Ctx.applyGrp
  split <;> rfl

/-- The slot is IDLE, and no other starts or ends. -/
theorem finishIdle_ends {s : State} {n : Nat} (hp : (ctxOf s n).preempt = none) (hs : fget s.saved n = none) :
    let t := finishIdle s n
    t.cx = s.cx ∧ (ctxOf t n).active = false ∧ (ctxOf t n).mailbox = (ctxOf s n).mailbox ∧
      ∀ j, j ≠ n → (ctxOf t j).active = (ctxOf s j).active := by
  intro t
  let v := modCore (modCtx s n Ctx.ended) (slotCore n) fun k => k.applyBits (n % 16)
  have hv : ctxOf v n = (ctxOf s n).ended := ctxOf_modCtx _ _ _
  have hk : CtxsKept v t := by
    simp only [t, finishIdle_eq hp hs]
    exact (answerKills_kept _ _).trans (idleNotices_kept _ _)
  refine ⟨hk.cx, (hk.active n).trans (by rw [hv]; rfl), (hk.mailbox n).trans (by rw [hv, Ctx.ended_mailbox]), fun j hj => ?_⟩
  rw [hk.active, show ctxOf v j = ctxOf s j from ctxOf_modCtx_ne _ _ _ _ hj]

end Sys2Proof.Machine
end

section
/-!
CERTIFICATES. O22: EXIT and a trap that cannot be taken (R160, R161, R184).
-/

namespace Sys2Proof.Safety

open Sys2Proof.Machine

/-- The activation of the context in hand is over: its slot is IDLE and holds no message, and no other slot starts or ends. -/
def Over (s t : State) : Prop :=
  (cur t).active = false ∧ (cur t).mailbox = [] ∧ ∀ n, n ≠ s.cx → (ctxOf t n).active = (ctxOf s n).active

/-- The slot in hand has nothing left to wait for. -/
structure Leaving (s : State) : Prop where
  mailbox : (cur s).mailbox = []
  sb : (cur s).sb = []
  preempt : (cur s).preempt = none
  saved : fget s.saved s.cx = none

theorem Leaving.kept {s t : State} (h : Leaving s) (k : CtxsKept s t) : Leaving t := by
  have hc : cur t = ctxOf t s.cx := by rw [cur, k.cx]
  exact ⟨by rw [hc, k.mailbox]; exact h.mailbox, by rw [hc, k.sb]; exact h.sb, by rw [hc, k.preempt]; exact h.preempt,
    by rw [k.saved, k.cx]; exact h.saved⟩

/-- A slot that has nothing left to wait for turns IDLE after changes that keep what the contexts hold. -/
theorem Leaving.over {s t : State} (h : Leaving s) (k : CtxsKept s t) : Over s (finishIdle t s.cx) := by
  have ht := h.kept k
  obtain ⟨hcx, ha, hm, ho⟩ := finishIdle_ends (s := t) (n := s.cx) (k.cx ▸ ht.preempt) (k.cx ▸ ht.saved)
  have hc : cur (finishIdle t s.cx) = ctxOf (finishIdle t s.cx) s.cx := by rw [cur, hcx, k.cx]
  exact ⟨by rw [hc, ha], by rw [hc, hm, k.mailbox]; exact h.mailbox, fun n hn => (ho n hn).trans (k.active n)⟩

theorem exec_exit (s : State) : exec .exit s = execExit s := rfl
theorem exec_brk (s : State) : exec .brk s = .next (takeTrap s { cause := 0x14, tval := 0 }) := rfl

/-- R160: EXIT has nothing to release, and the activation ends. -/
theorem exit_over {s : State} (h : Leaving s) (hw : (cur s).wait = .none) : Does .exit s (Over s) := by
  have hr : releaseStep s .dev = .done := by simp [releaseStep, sbCovered, h.sb]
  rw [Does, exec_exit, execExit, hr]
  refine ⟨_, rfl, ?_⟩
  have k : CtxsKept s (modCur s (·.released .dev)) := .modCtx rfl
  have hw' : (ctxOf (modCur s (·.released .dev)) s.cx).wait = .none := by rw [modCur, ctxOf_modCtx]; exact hw
  have hm' : (ctxOf (modCur s (·.released .dev)) s.cx).mailbox = [] := (k.mailbox _).trans h.mailbox
  exact h.over (k.trans (endEffects_kept hw' hm'))

/-- R161, R184: a trap that cannot be taken kills, and the activation ends, since no store is left to drain. -/
theorem takeTrap_over {s : State} (h : Leaving s) (hw : (cur s).wait = .none)
    (hx : (cur s).priv = .s ∨ (cur s).tl = 2 ∨ ((cur s).tl = 0 ∧ (cur s).tvec = 0)) (t : Trap) : Over s (takeTrap s t) := by
  let u := modCtx s s.cx Ctx.unwaiting
  have k : CtxsKept s u := .modCtx rfl
  have hu : (ctxOf u s.cx).wait = .none := by rw [ctxOf_modCtx]; rfl
  obtain ⟨v, hv, hk⟩ := killCtx_ends hu ((k.mailbox _).trans h.mailbox) ((k.sb _).trans h.sb) t.cause t.tval
    (if t.next then (cur s).pc + 4 else (cur s).pc).toNat
  have e : takeTrap s t = finishIdle v s.cx := by
    refine Eq.trans (if_pos hx) ?_
    rw [leaveWait_none hw]
    exact hk
  rw [e]
  exact h.over (k.trans hv)

/-- Settles O22: both ways, the effects of the end keep what each context holds, and the slot turns IDLE. -/
theorem endings : Obligations.Endings := by
  intro s hm hb hp hs hw _ ends
  have h : Leaving s := ⟨hm, hb, hp, hs⟩
  exact ⟨exit_over h hw, fun hx => ⟨_, exec_brk s, takeTrap_over h hw hx _⟩⟩

end Sys2Proof.Safety
end

section
/-!
SUPPORT. The choice of a message, its way into a mailbox or back, and what an accepted send leaves of its sender (R152, R165,
R166, R168, R171).
-/

namespace Sys2Proof.Machine

theorem modCtx_modCtx (s : State) (n : Nat) (f g : Ctx → Ctx) : modCtx (modCtx s n g) n f = modCtx s n fun c => f (g c) := by
  simp only [modCtx, ctxOf, fget_fset_self, Option.getD_some, fset_fset_self]

/-! ## The oldest message of the lowest class (R166) -/

theorem firstIdx_eq_findIdx? {α : Type} (p : α → Bool) (l : List α) : firstIdx p l = l.findIdx? p := by
  induction l with
  | nil => rfl
  | cons a l ih => rw [firstIdx, List.findIdx?_cons, ih]

theorem msgCls_lt (m : Msg) : msgCls m < 4 := Nat.mod_lt _ (by decide)

/-- A receive takes the first message of the lowest class there is. -/
theorem selMsg_lowest {m : Msg} {l r : List Msg} (hlow : ∀ j ∈ l ++ r, msgCls m ≤ msgCls j) (hold : ∀ j ∈ l, msgCls j ≠ msgCls m) :
    selMsg (l ++ m :: r) = some l.length := by
  have hclasses : ∀ k < 4, List.range 4 = List.range k ++ k :: List.range' (k + 1) (3 - k) := by decide
  refine List.findSome?_eq_some_iff.2 ⟨_, msgCls m, _, hclasses _ (msgCls_lt m), ?_, fun c hc => ?_⟩
  · rw [firstIdx_eq_findIdx?, List.findIdx?_append, List.findIdx?_eq_none_iff.2 fun j hj => by simpa using hold j hj]
    simp [List.findIdx?_cons]
  · have hc := List.mem_range.1 hc
    rw [firstIdx_eq_findIdx?, List.findIdx?_eq_none_iff]
    intro j hj
    have : msgCls m ≤ msgCls j := by
      rcases List.mem_append.1 hj with h | h
      · exact hlow j (List.mem_append_left r h)
      · rcases List.mem_cons.1 h with rfl | h
        · exact le_rfl
        · exact hlow j (List.mem_append_right l h)
    simp only [beq_eq_false_iff_ne]
    omega

/-! ## Delivery -/

theorem exec_messageDelivery_held {s : State} {k dest : Nat} {m : Msg} (h : (ctxOf s k).wait = .send dest m false) :
    exec (.messageDelivery dest m (some k)) s = .next (deliver s dest m (some k)) :=
  if_pos (by simp [sendHolds, h])

theorem mailPut_of_no_wait {s : State} {n : Nat} (h : (ctxOf s n).wait = .none) (m : Msg) :
    mailPut s n m = modCtx s n fun d => { d with mailbox := d.mailbox ++ [m] } := by
  simp only [mailPut, mailWake, ctxOf_modCtx, h]
  rfl

/-- A message for a context with room in its mailbox is accepted and enters it. -/
theorem deliver_of_room {s : State} {n name : Nat} (hlt : name < 2 ^ 28) (hn : n = name % 2 ^ 15) (hh : holds s n name = true)
    (hf : fwdEntry s name = none) (hb : (ctxOf s n).mailbox.length < 8) (hsp : ∀ j, ∀ e ∈ (clOf s j).spill, e.dest ≠ name)
    (m : Msg) (held : Option Nat) : deliver s name m held = mailPut (sent s held) n m := by
  have hspill (k : Nat) : (clOf s k).spill.any (·.dest == name) = false :=
    List.any_eq_false.2 fun e he => by simpa using hsp k e he
  unfold deliver
  simp only [Nat.mod_eq_of_lt hlt, hf, deliverAt, show name % 32768 = n from hn.symm]
  rw [if_pos hh, if_pos ⟨hb, by simp [hspill]⟩]

/-- A message for a name that no slot holds and no image keeps is not accepted anywhere. -/
theorem deliver_of_nowhere {s : State} {n name : Nat} (hlt : name < 2 ^ 28) (hn : n = name % 2 ^ 15) (hh : holds s n name = false)
    (hf : fwdEntry s name = none) (hs : savedAs s name = none) (m : Msg) :
    deliver s name m none = bounce s (slotCl n) name m 0 := by
  unfold deliver
  simp only [Nat.mod_eq_of_lt hlt, hf, deliverAt, show name % 32768 = n from hn.symm]
  rw [if_neg (by simp [hh]), if_neg (by simp [hs])]
  rfl

/-! ## A message that returns (R165) -/

theorem setFld_source {w name : Nat} (hw : w < 2 ^ 64) (hn : name < 2 ^ 28) :
    setFld w 36 28 name < 2 ^ 64 ∧ setFld w 36 28 name / 2 ^ 36 = name := by
  simp only [setFld, fld]
  omega

theorem setFld_bounce {w : Nat} (hw : w < 2 ^ 64) :
    setFld w 29 1 1 < 2 ^ 64 ∧ setFld w 29 1 1 / 2 ^ 36 = w / 2 ^ 36 ∧ setFld w 29 1 1 / 2 ^ 29 % 2 = 1 := by
  simp only [setFld, fld]
  omega

theorem setFld_reason {w : Nat} (hw : w < 2 ^ 64) : setFld w 24 2 0 < 2 ^ 64 ∧ setFld w 24 2 0 / 2 ^ 29 = w / 2 ^ 29 := by
  simp only [setFld, fld]
  omega

/-- Word 0 of a message that returns from a name that no active context has. -/
def bouncedHead (name : Nat) (w : Word) : Nat := setFld (setFld (setFld w.toNat 36 28 name) 29 1 1) 24 2 0

theorem bouncedHead_fields {name : Nat} (h : name < 2 ^ 28) (w : Word) :
    bouncedHead name w < 2 ^ 64 ∧ fld (bouncedHead name w) 36 28 = name ∧ fld (bouncedHead name w) 29 1 = 1 := by
  obtain ⟨h1, hsrc⟩ := setFld_source w.isLt h
  obtain ⟨h2, hkeep, hb⟩ := setFld_bounce h1
  obtain ⟨h3, hall⟩ := setFld_reason h2
  refine ⟨h3, ?_, ?_⟩ <;> unfold bouncedHead fld <;> omega

theorem toNat_bounced {name : Nat} (h : name < 2 ^ 28) (w : Word) : (wd (bouncedHead name w)).toNat = bouncedHead name w := by
  rw [wd, BitVec.toNat_ofNat, Nat.mod_eq_of_lt (bouncedHead_fields h w).1]

/-- A message of a context of this device returns to it. -/
theorem bounce_returns {s : State} {m : Msg} (hu : msgFromUnit m = false) (hb : msgIsBounce m = false)
    (hr : msgIsRemote m = false) (cl name : Nat) :
    bounce s cl name m 0 = sendMsg s (msgSource m) { m with w0 := wd (bouncedHead name m.w0) } := by
  unfold bounce
  simp only [hu, hb, hr, Bool.or_self, Bool.false_and, Bool.false_eq_true, if_false]
  rfl

/-! ## A send that is accepted (R152, R171) -/

/-- What is left of the sender: it goes on, and what it pledged has come true. -/
def Ctx.accepted (d : Ctx) : Ctx := match d.pledge with
  | none => d.goto (d.pc + 4)
  | some p => { d.goto (d.pc + 4) with
      pledge := none, lastC0 := if p.demoted || !p.c0 then d.lastC0 else some p.gtc,
      c0Short := (p.demoted || !p.c0) && d.c0Short, nxtdl := if p.dl then 0 else d.nxtdl,
      pts := match p.rel with | some sc => (d.released sc).pts | none => d.pts }

theorem ctxOf_acceptedAt (s : State) (k : Nat) : ctxOf (acceptedAt s k) k = (ctxOf s k).accepted := by
  rw [acceptedAt, nextAt, ctxOf_modCtx]
  unfold pledged Ctx.accepted
  cases hp : (ctxOf s k).pledge with
  | none => rfl
  | some p =>
    dsimp only
    have hdem (t : State) : ctxOf (if p.demoted then modCl t (slotCl k) fun c => { c with demoted := sat (c.demoted + 1) 16 } else t) k =
        ctxOf t k := by split <;> rfl
    rw [hdem, ctxOf_modCtx]
    cases p.rel with
    | none => rfl
    | some sc =>
      dsimp only [Ctx.released]
      split <;> rfl

theorem pledged_other (s : State) (k : Nat) : (pledged s k).mem = s.mem ∧ ∀ j, j ≠ k → ctxOf (pledged s k) j = ctxOf s j := by
  unfold pledged
  split
  · exact ⟨rfl, fun _ _ => rfl⟩
  · extract_lets keep t
    have ht (j : Nat) (hj : j ≠ k) : ctxOf t j = ctxOf s j := ctxOf_modCtx_ne _ _ _ _ hj
    split
    · exact ⟨rfl, ht⟩
    · exact ⟨rfl, ht⟩

theorem acceptedAt_other (s : State) (k : Nat) :
    (acceptedAt s k).mem = s.mem ∧ ∀ j, j ≠ k → ctxOf (acceptedAt s k) j = ctxOf s j :=
  ⟨(pledged_other s k).1, fun j hj => (ctxOf_modCtx_ne _ _ _ _ hj).trans ((pledged_other s k).2 j hj)⟩

/-- A class-0 send that was demoted counts, up to 16 bits, in the cluster of its sender. -/
theorem demoted_acceptedAt (s : State) (k : Nat) : (clOf (acceptedAt s k) (slotCl k)).demoted =
    match (ctxOf s k).pledge with
    | some p => if p.demoted then min ((clOf s (slotCl k)).demoted + 1) 0xFFFF else (clOf s (slotCl k)).demoted
    | none => (clOf s (slotCl k)).demoted := by
  rw [acceptedAt, nextAt, clOf_modCtx]
  unfold pledged
  cases hp : (ctxOf s k).pledge with
  | none => rfl
  | some p =>
    dsimp only
    split
    · rw [clOf_modCl]; rfl
    · rfl

/-! ## The handler and asynchronous traps (R168, R188) -/

/-- The context has entered its message handler for a message that came from a device. -/
def Ctx.handling (m : Msg) (dev : Nat) (d : Ctx) : Ctx :=
  { d with mepc := d.pc, mhInh := true, pc := d.mhvec + wd (0x20 * msgCls m), msgdev := dev, waitSince := none, parked := false }

theorem exec_messageHandlerEntry_enters {s : State} {n : Nat} {m : Msg} {l r : List Msg} (hact : (ctxOf s n).active = true)
    (hw : (ctxOf s n).wait = .none) (hh : handlerDue (ctxOf s n) = true) (ha : asyncDue s n = none)
    (hbox : (ctxOf s n).mailbox = l ++ m :: r) (hlow : ∀ j ∈ l ++ r, msgCls m ≤ msgCls j)
    (hold : ∀ j ∈ l, msgCls j ≠ msgCls m) :
    exec (.messageHandlerEntry n) s = .next (modCtx s n (·.handling m (devOf s m))) := by
  have hm : ((selMsg (ctxOf s n).mailbox).bind fun i => (ctxOf s n).mailbox[i]?) = some m := by
    rw [hbox, selMsg_lowest hlow hold]
    simp
  show execMessageHandlerEntry n s = _
  unfold execMessageHandlerEntry
  simp only [hm]
  exact if_neg (by simp [hact, hw, hh, ha])

/-- The context can take an asynchronous trap: it is at U and TL0, at a boundary, with nothing outstanding. -/
structure AtBoundary (c : Ctx) : Prop where
  priv : c.priv = .u
  tl : c.tl = 0
  tvec : c.tvec ≠ 0
  wait : c.wait = .none
  loads : c.loads = []
  faultDone : c.faultDone = none
  fencing : c.fencing = false
  ranTrap : c.ranTrap = true

/-- The context has entered its trap handler by an asynchronous trap (R182). -/
def Ctx.interrupted (cause tval : Nat) (d : Ctx) : Ctx :=
  { d with
    wait := .none, waitSince := none, parked := false, fencing := false, pledge := none, tl := 1, tepc1 := d.pc, tval1 := wd tval,
    tcause1 := wd (cause + 256 + 512 * b2n d.mhInh), pc := d.tvec }

section
variable {s : State} {n : Nat}

/-- A trap at a boundary changes its context alone. -/
theorem takeTrapAt_interrupts {cause tval : Nat} (hp : (ctxOf s n).priv = .u) (hl : (ctxOf s n).tl = 0) (hv : (ctxOf s n).tvec ≠ 0)
    (hc : cause < 256) :
    takeTrapAt s n { cause := cause, tval := tval, async := true } = modCtx s n (·.interrupted cause tval) := by
  have hx := takeTrapAt_tl0 s n { cause := cause, tval := tval, async := true } hp hl hv
  obtain ⟨f, hf⟩ := takeTrapAt_modCtx { cause := cause, tval := tval, async := true } hp hl hv
  rw [hf, ctxOf_modCtx] at hx
  rw [hf]
  refine modCtx_congr (hx.trans ?_)
  have hcode : cause % 256 + b2n true * 256 + b2n (ctxOf s n).mhInh * 512 + b2n false * 1024 =
      cause + 256 + 512 * b2n (ctxOf s n).mhInh := by
    simp only [b2n, Bool.false_eq_true, if_false, if_true]
    omega
  simp only [Ctx.interrupted, hcode, Bool.false_eq_true, if_false]

/-- The cause that is due at a boundary is taken, its mark gone. -/
theorem exec_asyncTrap_takes {cause tval : Nat} {f : Ctx → Ctx} (hact : (ctxOf s n).active = true) (hb : AtBoundary (ctxOf s n))
    (hf : ∀ c, (f c).priv = c.priv ∧ (f c).tl = c.tl ∧ (f c).tvec = c.tvec) (hc : cause < 256)
    (hdue : asyncDue s n = some ({ cause := cause, tval := tval, async := true }, f (ctxOf s n))) :
    exec (.asyncTrap n) s = .next (modCtx s n fun d => (f d).interrupted cause tval) := by
  obtain ⟨hp, hl, hv⟩ := hf (ctxOf s n)
  have hu : ctxOf (modCtx s n fun _ => f (ctxOf s n)) n = f (ctxOf s n) := ctxOf_modCtx _ _ _
  show execAsyncTrap n s = _
  unfold execAsyncTrap
  simp only [hact, hdue, Bool.not_true, Bool.false_eq_true, if_false]
  rw [takeTrapAt_interrupts (by rw [hu, hp]; exact hb.priv) (by rw [hu, hl]; exact hb.tl) (by rw [hu, hv]; exact hb.tvec) hc,
    modCtx_modCtx]
  exact congrArg _ (modCtx_congr rfl)

/-- What is due at a boundary is what is pending, a mask that was held too long first. -/
theorem asyncDue_mask (hb : AtBoundary (ctxOf s n)) (hm : (ctxOf s n).pendMask = true) :
    asyncDue s n = some ({ cause := 0x0A, tval := 0, async := true }, { ctxOf s n with pendMask := false }) := by
  simp [asyncDue, asyncPend, hb.tl, hb.priv, hb.wait, hb.loads, hb.faultDone, hb.fencing, hb.ranTrap, hm]

theorem asyncDue_view (hb : AtBoundary (ctxOf s n)) (hm : (ctxOf s n).pendMask = false) {k : Nat} (hk : k < 16)
    (hv : (ctxOf s n).pendView.getLsbD k = true) (hlow : ∀ j < k, (ctxOf s n).pendView.getLsbD j = false) :
    asyncDue s n = some ({ cause := 0x0B, tval := (viewOf s k).vid + k * 2 ^ 32, async := true },
      { ctxOf s n with pendView := (ctxOf s n).pendView &&& ~~~(BitVec.ofNat 16 (2 ^ k)) }) := by
  have hl := lowest_eq_some hk hv hlow
  simp [asyncDue, asyncPend, hb.tl, hb.priv, hb.wait, hb.loads, hb.faultDone, hb.fencing, hb.ranTrap, hm, hl, -BitVec.getLsbD_eq_getElem]

theorem asyncDue_deadline (hb : AtBoundary (ctxOf s n)) (hm : (ctxOf s n).pendMask = false) (hv : (ctxOf s n).pendView = 0)
    (hd : (ctxOf s n).pendDl = true) :
    asyncDue s n = some ({ cause := 0x17, tval := ((ctxOf s n).deadline.map DeadlineRec.gtc).getD 0, async := true },
      { ctxOf s n with pendDl := false }) := by
  have hl : lowest 16 (fun i => (ctxOf s n).pendView.getLsbD i) = none :=
    List.find?_eq_none.2 fun i _ => by simp [hv]
  simp [asyncDue, asyncPend, hb.tl, hb.priv, hb.wait, hb.loads, hb.faultDone, hb.fencing, hb.ranTrap, hm, hl, hd,
    -BitVec.getLsbD_eq_getElem]

end

theorem exec_sealQueueRoom_retries {s : State} {n : Nat} (h : (ctxOf s n).wait = .seal) :
    exec (.sealQueueRoom n) s = .next (modCtx s n fun d => { d with wait := .none }) :=
  congrArg Host.Outcome.next (modCtx_congr (if_pos h))

end Sys2Proof.Machine
end

section
/-!
CERTIFICATES. O33: delivery of messages, handler entry and asynchronous traps (R152, R165, R166, R168, R171, R188; logs 41
and 43).
-/

namespace Sys2Proof.Safety

open Sys2Proof.Machine

/-- R152, R166, R171: a message that its sender waits with enters a mailbox with room, and the sender goes on. -/
theorem messageDelivery_accepted {s : State} {n k name : Nat} {m : Msg} (hn : n = name % 2 ^ 15) (hlt : name < 2 ^ 28)
    (hh : holds s n name = true) (hf : fwdEntry s name = none) (hb : (ctxOf s n).mailbox.length < 8)
    (hsp : ∀ j, ∀ e ∈ (clOf s j).spill, e.dest ≠ name) (hw : (ctxOf s n).wait = .none) (hk : k ≠ n)
    (hs : (ctxOf s k).wait = .send name m false) : Does (.messageDelivery name m (some k)) s fun t =>
      ctxOf t n = { ctxOf s n with mailbox := (ctxOf s n).mailbox ++ [m] } ∧ ctxOf t k = (ctxOf s k).accepted ∧
      (∀ j, j ≠ k → j ≠ n → ctxOf t j = ctxOf s j) ∧ SameMem s t ∧
      (clOf t (slotCl k)).demoted = (clOf (acceptedAt s k) (slotCl k)).demoted := by
  obtain ⟨hmem, hother⟩ := acceptedAt_other s k
  have hu : ctxOf (acceptedAt s k) n = ctxOf s n := hother n hk.symm
  refine ⟨_, (exec_messageDelivery_held hs).trans (congrArg _ ((deliver_of_room hlt hn hh hf hb hsp m _).trans
    (mailPut_of_no_wait (hu ▸ hw) m))), ?_, ?_, fun j hjk hjn => ?_, fun a => ?_, rfl⟩
  · rw [ctxOf_modCtx]
    exact congrArg (fun d : Ctx => { d with mailbox := d.mailbox ++ [m] }) hu
  · rw [ctxOf_modCtx_ne _ _ _ _ hk]
    exact ctxOf_acceptedAt s k
  · rw [ctxOf_modCtx_ne _ _ _ _ hjn]
    exact hother j hjk
  · exact congrArg (memGet · a) hmem

/-- R165: a message for a name that no active context has returns to its sender with BOUNCE, its SOURCE the name. -/
theorem messageDelivery_returns {s : State} {name : Nat} {m : Msg} (hlt : name < 2 ^ 28) (hh : holds s (name % 2 ^ 15) name = false)
    (hf : fwdEntry s name = none) (hs : savedAs s name = none) (hu : msgFromUnit m = false) (hb : msgIsBounce m = false)
    (hr : msgIsRemote m = false) : Does (.messageDelivery name m none) s fun t => ∃ q, t.agenda = s.agenda ++
      [.messageDelivery (msgSource m) q none] ∧ msgSource q = name ∧ msgIsBounce q = true ∧ q.w1 = m.w1 ∧ q.w2 = m.w2 ∧ q.w3 = m.w3 := by
  obtain ⟨-, hsrc, hbit⟩ := bouncedHead_fields hlt m.w0
  refine ⟨_, congrArg Host.Outcome.next ((deliver_of_nowhere hlt rfl hh hf hs m).trans (bounce_returns hu hb hr _ name)),
    _, rfl, ?_, ?_, rfl, rfl, rfl⟩
  · rw [msgSource, toNat_bounced hlt, hsrc]
  · rw [msgIsBounce, toNat_bounced hlt, bit, hbit]
    rfl

/-- Settles O33: a message goes into the mailbox or back, the handler takes the first message of the lowest class, and an
asynchronous trap the first cause that is due. -/
theorem messageEvents : Obligations.MessageEvents := by
  unfold Obligations.MessageEvents
  intro s n k name m l r c accepted
  refine ⟨fun hn hlt hh hf hb hsp hw => ⟨?_, fun hk hs => ?_⟩, messageDelivery_returns, fun hact hw hh ha hbox hlow hold =>
    exec_messageHandlerEntry_enters hact hw hh ha hbox hlow hold, fun hact hp hl hv hw hld hfd hfn hr => ?_,
    exec_sealQueueRoom_retries⟩
  · exact congrArg Host.Outcome.next (deliver_enters hlt hn hh hf hb hsp hw m)
  · obtain ⟨t, hx, hbox, hsent, hother, hmem, hdem⟩ := messageDelivery_accepted hn hlt hh hf hb hsp hw hk hs
    exact ⟨t, hx, hbox, hsent, hother, hmem, hdem.trans (demoted_acceptedAt s k)⟩
  · have hb : AtBoundary (ctxOf s n) := ⟨hp, hl, hv, hw, hld, hfd, hfn, hr⟩
    exact ⟨fun hm => exec_asyncTrap_takes hact hb (fun _ => ⟨rfl, rfl, rfl⟩) (by decide) (asyncDue_mask hb hm),
      fun hm hk hv hlow => exec_asyncTrap_takes hact hb (fun _ => ⟨rfl, rfl, rfl⟩) (by decide) (asyncDue_view hb hm hk hv hlow),
      fun hm hv hd => exec_asyncTrap_takes hact hb (fun _ => ⟨rfl, rfl, rfl⟩) (by decide) (asyncDue_deadline hb hm hv hd)⟩

end Sys2Proof.Safety
end

section
/-!
CERTIFICATES. O35: a rebase moves the timestamps to the new base, and completes (R230, R252 to R255).
-/

namespace Sys2Proof.Machine

/-! ## Tables whose entries all move -/

/-- The entry of a unit in a table whose entries all change by a function that keeps the reset state. -/
theorem fget_map_getD {α : Type} {f : α → α} {d : α} (h : f d = d) (m : FMap α) (k : Nat) :
    (fget (m.map fun p => (p.1, f p.2)) k).getD d = f ((fget m k).getD d) := by
  rw [fget_map]
  cases fget m k with
  | none => exact h.symm
  | some v => rfl

/-! ## The new base (R253) -/

theorem clampTs_eq (x : Nat) : clampTs x = x - 2 ^ 23 :=
  congrArg (x - ·) (by norm_num : 0x800000 = 2 ^ 23)

/-- A home on the new base. -/
def Home.rebased (h : Home) : Home := { h with wts := clampTs h.wts, rts := clampTs h.rts }

/-- What a context keeps on its way to the new base: all but its clocks and what it holds that carries one. -/
theorem Ctx.clamp_eq (c : Ctx) : ∃ pts mts mrts sb box loads wait pre, c.clamp = { c with
    pts := pts, mts := mts, mrts := mrts, sb := sb, mailbox := box, loads := loads, wait := wait, preempt := pre } :=
  ⟨_, _, _, _, _, _, _, _, rfl⟩

theorem Ctx.clamp_pc (c : Ctx) : c.clamp.pc = c.pc := by
  obtain ⟨_, _, _, _, _, _, _, _, h⟩ := c.clamp_eq
  rw [h]

theorem Ctx.clamp_getX (c : Ctx) (r : XReg) : c.clamp.getX r = c.getX r := by
  obtain ⟨_, _, _, _, _, _, _, _, h⟩ := c.clamp_eq
  rw [h]
  rfl

/-- The copies of an L1 that stay are those whose lease does not end below the new base. -/
theorem mem_clampCopies {l : List L1Copy} {x : L1Copy} :
    x ∈ clampCopies l ↔ ∃ y ∈ l, 2 ^ 23 ≤ y.rts ∧ { y with rts := clampTs y.rts, wts := clampTs y.wts } = x := by
  simp only [clampCopies, List.mem_map, List.mem_filter, decide_eq_true_eq, and_assoc]
  rfl

/-- A cell on the new base. -/
def Cell.rebased (k : Cell) : Cell := { k with sts := clampTs k.sts, cts := clampTs k.cts }

/-- The cells of a cluster move with it. -/
theorem cell_clamp (c : Cluster) (i : Nat) : (fget c.clamp.cells i).getD {} = ((fget c.cells i).getD {}).rebased :=
  fget_map_getD (f := Cell.rebased) rfl c.cells i

/-- The state without its memory. -/
def offMem (s : State) : State := { s with mem := [] }

/-- The structures in comb of a cluster move by writes of memory alone. -/
theorem clampComb_offMem (s : State) (cl : Nat) : offMem (clampComb s cl) = offMem s := by
  have hput (u : State) (o n v : Nat) : offMem (combPutNat u cl o n v) = offMem u := rfl
  exact (foldl_keeps offMem _ (fun u o => hput u (o + 20) 3 _) _ _).trans (foldl_keeps offMem _ (fun u o => hput u o 16 _) _ _)

/-- Every agent has moved to the new base. -/
structure Rebased (s t : State) : Prop where
  btsN : t.btsN = s.btsN + 1
  again : t.rebaseAgain = s.rebaseAgain
  hts : t.hts = clampTs s.hts
  home : ∀ line, fget t.home line = (fget s.home line).map Home.rebased
  ctx : ∀ n, ctxOf t n = (ctxOf s n).clamp
  cluster : ∀ cl, clOf t cl = (clOf s cl).clamp
  l1d : ∀ k, (coreOf t k).l1d = clampCopies (coreOf s k).l1d

/-- The cells of every cluster have moved. -/
theorem Rebased.cell {s t : State} (h : Rebased s t) (cl i : Nat) : cellOf t cl i = (cellOf s cl i).rebased := by
  rw [cellOf, h.cluster]
  exact cell_clamp _ _

/-- REBASE_MOVE moves every agent once (R253). -/
theorem execRebaseMove_rebased {s : State} (ha : s.rebaseActive = true) (hm : movedBase s = false) :
    ∃ t, execRebaseMove s = .next t ∧ Rebased s t := by
  refine ⟨_, if_neg (by simp [ha, hm]), ?_⟩
  have ht : offMem (s.clusters.foldl (fun u (p : Nat × Cluster) => clampComb u p.1) s) = offMem s :=
    foldl_keeps offMem _ (by intro u p; exact clampComb_offMem u p.1) _ _
  generalize s.clusters.foldl (fun u (p : Nat × Cluster) => clampComb u p.1) s = t at ht ⊢
  have hctxs : t.ctxs = s.ctxs := (congrArg State.ctxs ht :)
  have hclusters : t.clusters = s.clusters := (congrArg State.clusters ht :)
  have hcores : t.cores = s.cores := (congrArg State.cores ht :)
  have hhome : t.home = s.home := (congrArg State.home ht :)
  exact {
    btsN := (congrArg (fun x : State => x.btsN + 1) ht :)
    again := (congrArg State.rebaseAgain ht :)
    hts := (congrArg (fun x : State => clampTs x.hts) ht :)
    home := fun line => (fget_map t.home Home.rebased line).trans (by rw [hhome])
    ctx := fun n => (fget_map_getD rfl t.ctxs n).trans (by rw [hctxs]; rfl)
    cluster := fun cl => (fget_map_getD rfl t.clusters cl).trans (by rw [hclusters]; rfl)
    l1d := fun k => (congrArg Core.l1d (fget_map_getD (f := fun c : Core =>
      { c with l1d := clampCopies c.l1d, l1i := clampCopies c.l1i }) rfl t.cores k)).trans (by rw [hcores]; rfl) }

/-! ## Completion (R252, R255) -/

theorem execRebaseComplete_ends {s : State} (ha : s.rebaseActive = true) (hm : movedBase s = true) (hr : s.rebaseAgain = false) :
    execRebaseComplete s = .next { s with rebaseActive := false, rebaseCount := (s.rebaseCount + 1) % 2 ^ 32 } := by
  simp only [execRebaseComplete, ha, hm, hr, Bool.not_true, Bool.or_self, Bool.false_eq_true, if_false]

/-- A trigger that arose meanwhile starts the next rebase. -/
theorem execRebaseComplete_restarts {s : State} (ha : s.rebaseActive = true) (hm : movedBase s = true)
    (hr : s.rebaseAgain = true) : execRebaseComplete s = .next (later { s with
      rebaseAgain := false, rebaseCount := (s.rebaseCount + 1) % 2 ^ 32, epoch := !s.epoch } .rebaseMove) := by
  simp only [execRebaseComplete, ha, hm, hr, Bool.not_true, Bool.or_self, Bool.false_eq_true, if_false, if_true]

end Sys2Proof.Machine

namespace Sys2Proof.Safety

open Sys2Proof.Machine

/-- Settles O35: what has moved is read off agent by agent; the completion goes by whether a trigger arose meanwhile. -/
theorem rebase : Obligations.Rebase := by
  unfold Obligations.Rebase
  intro s n line h
  refine ⟨fun ha hm => ?_, fun ha hm => ⟨execRebaseComplete_ends ha hm, execRebaseComplete_restarts ha hm⟩⟩
  obtain ⟨t, ht, hb⟩ := execRebaseMove_rebased ha hm
  refine ⟨t, ht, hb.btsN, hb.again, ?_, ?_, ?_, fun r => ?_, ?_, fun hh => ?_, hb.hts.trans (clampTs_eq _), fun cl i => ?_,
    fun k x hx hr => ?_, fun k x hx => ?_⟩
  iterate 3 rw [hb.ctx]; exact clampTs_eq _
  · rw [hb.ctx, Ctx.clamp_getX]
  · rw [hb.ctx, Ctx.clamp_pc]
  · simp only [hb.home, hh, Option.map_some, Home.rebased, clampTs_eq]
  · simp only [hb.cell, Cell.rebased, clampTs_eq, and_self]
  · have hy := mem_clampCopies.2 ⟨x, hx, hr, rfl⟩
    rwa [clampTs_eq, clampTs_eq, ← hb.l1d] at hy
  · obtain ⟨y, hy, hr, rfl⟩ := mem_clampCopies.1 (hb.l1d k ▸ hx)
    exact ⟨y, hy, rfl, hr⟩

end Sys2Proof.Safety
end

section
/-!
SUPPORT. A store buffer with one entry, and a store at the home of a line that the L2 holds (R205, R234, R235, R244).
-/

namespace Sys2Proof.Machine

/-! ## A line under its home -/

/-- What stands at a line after an access is what the access put there. -/
theorem fget_setHome {s : State} {line : Nat} {h g : Home} (hg : fget (setHome s line h).home line = some g) : g = h := by
  simp only [setHome, (tsCheck_home _ _).1] at hg
  split at hg
  · rw [l2Evict_some (fget_fset_self s.home line h), fget_fdel_self] at hg
    cases hg
  · rw [fget_fset_self] at hg
    exact (Option.some.inj hg).symm

/-- A store at home leaves the line dirty, and its class as it was. -/
theorem homeStore_dirty {s : State} {p : Part} {h g : Home} (hh : fget s.home p.line = some h) (hk : h.key = p.key) {pts : Nat}
    {bs : List Byte} (hg : fget (homeStore s p pts bs).2.home p.line = some g) : g.dirty = true ∧ g.cls = h.cls := by
  have hf := homeFor_held (s := dropLatent s p.line bs) (by rw [(dropLatent_finds s p.line bs).home, hh]) hk p.cls 1
  simp only [homeStore, hf] at hg
  rw [fget_setHome hg]
  exact ⟨rfl, rfl⟩

/-- A store updates a copy in an L1 alone (R215). -/
theorem l1Update_eq (s : State) (n : Nat) (p : Part) (ts : Nat) : ∃ m, l1Update s n p ts = { s with cores := m } := by
  unfold l1Update
  extract_lets cyc data
  split <;> exact ⟨_, rfl⟩

/-! ## Cells -/

theorem modCell_congr {s : State} {cl i : Nat} {f g : Cell → Cell} (h : f (cellOf s cl i) = g (cellOf s cl i)) :
    modCell s cl i f = modCell s cl i g := by
  have h' : f ((fget (clOf s cl).cells i).getD {}) = g ((fget (clOf s cl).cells i).getD {}) := h
  simp only [modCell, modCl, h']

/-- A store to comb leaves the cells of every cluster as they stand. -/
theorem cellOf_combStore_any (s : State) (cl off : Nat) (bs : List Byte) (j i : Nat) :
    cellOf (combStore s cl off bs) j i = cellOf s j i := by
  unfold combStore
  extract_lets full
  refine congrArg (fun m => (fget m i).getD {}) (modCl_part Cluster.cells (combPut s cl off bs) cl j _ ?_)
  rfl

/-- A write that is no longer on its way is counted in the tables of the clusters alone (R244). -/
theorem countDown_eq (s : State) (l : List (Nat × Nat × Nat)) : ∃ m, countDown s l = { s with clusters := m } := by
  induction l generalizing s with
  | nil => exact ⟨_, rfl⟩
  | cons k l ih => exact ih _

/-! ## The one entry of a buffer -/

section
variable {s : State} {n : Nat} {e : SbEntry} (hb : (ctxOf s n).sb = [e])
include hb

theorem sbChoice_sole : sbChoice s n = 0 := by simp [sbChoice, hb]

/-- It waits for the loads before it (R235). -/
theorem execStorePerform_behind (hl : sbMayLeave (ctxOf s n) 0 = false) :
    execStorePerform n s = .next (later s (.storePerform n)) := by
  simp [execStorePerform, sbChoice_sole hb, hb, hl]

variable (hl : sbMayLeave (ctxOf s n) 0 = true) {p : Part} (hp : e.parts = [p])
include hl hp

/-- It waits for the host (R105, R107). -/
theorem execStorePerform_waits (hk : e.kind = .store) (hc : p.isComb = false) (hi : biBlocks s p.line = true) :
    execStorePerform n s = .next (biWait s p.line (.storePerform n)) := by
  simp [execStorePerform, sbChoice_sole hb, hb, hl, hp, hk, hc, hi]

/-- It performs, and leaves the buffer. -/
theorem execStorePerform_performs (hk : e.kind.isAmo = false) (hi : p.isComb = true ∨ biBlocks s p.line = false) :
    execStorePerform n s = .next (sbPop (performPart { s with fresh := s.fresh + 1 } n e p) n 0) := by
  have hi' : (!p.isComb && biBlocks s p.line) = false := by rcases hi with h | h <;> simp [h]
  cases hkind : e.kind with
  | amo => rw [hkind] at hk; cases hk
  | _ => simp [execStorePerform, sbChoice_sole hb, hb, hl, hp, hkind, hi']

end

/-- A context whose one buffered entry has left. -/
def Ctx.emptied (c : Ctx) : Ctx := { c with sb := [], loads := c.loads.map fun r => { r with ahead := r.ahead - 1 } }

/-- The one entry of a live context leaves: its buffer is empty and its cells count one write fewer (R244). -/
theorem sbPop_sole {s : State} {n : Nat} {e : SbEntry} (hb : (ctxOf s n).sb = [e]) (hd : (ctxOf s n).dying = false) :
    sbPop s n 0 = modCtx (countDown s e.counted) n fun _ => (ctxOf s n).emptied := by
  have hc : ctxOf (countDown s e.counted) n = ctxOf s n := by
    obtain ⟨m, hm⟩ := countDown_eq s e.counted
    rw [hm]; rfl
  have hu : modCtx (countDown s e.counted) n (fun c => { c with
      sb := c.sb.eraseIdx 0, loads := c.loads.map fun r => { r with ahead := r.ahead - 1 } }) =
      modCtx (countDown s e.counted) n fun _ => (ctxOf s n).emptied :=
    modCtx_congr (by simp only [hc, hb, Ctx.emptied, List.eraseIdx_cons_zero])
  simp only [sbPop, hb, List.getElem?_cons_zero]
  rw [hu]
  simp only [ctxOf_modCtx, sbKick]
  rw [if_neg fun h => by rw [show (ctxOf s n).emptied.dying = false from hd] at h; cases h.1]
  rfl

/-! ## What one part does -/

section
variable {s : State} {e : SbEntry} {p : Part} (h0 : p.at_ = 0) (hn : p.n = e.bytes.length) (n : Nat)
include h0 hn

/-- A store of one part performs at its bank. -/
theorem performPart_comb (hk : e.kind = .store) (hc : p.isComb = true) :
    performPart s n e p = combStore s p.combCl p.combOff e.bytes := by
  simp [performPart, hk, hc, h0, hn]

/-- A CPUT of one part performs at its bank, and marks its row in the cell it was counted against (R358). -/
theorem performPart_cput {cl i off : Nat} (hk : e.kind = .cput cl i off) (hc : p.isComb = true)
    (hcnt : e.counted = [(cl, i, (cellOf s cl i).cgen)]) :
    performPart s n e p = modCell (combStore s p.combCl p.combOff e.bytes) cl i fun c =>
      { c with valid := c.valid ||| BitVec.ofNat 32 (2 ^ (off / (c.pitch * 16))), cts := max c.cts (ctxOf s n).mts } := by
  simp only [performPart, hk, hc, h0, hn, if_true, List.drop_zero, List.take_length]
  refine modCell_congr ?_
  rw [cellOf_combStore_any, if_pos (by simp [hcnt])]

/-- A store of one part performs at home, and MTS covers its timestamp (R234). -/
theorem performPart_home (hc : p.isComb = false) : ∃ m, performPart s n e p =
    modCtx { (homeStore s p e.pts e.bytes).2 with cores := m } n fun c =>
      { c with mts := max c.mts (homeStore s p e.pts e.bytes).1 } := by
  simp only [performPart, hc, h0, hn, Bool.false_eq_true, if_false, List.drop_zero, List.take_length]
  split
  · obtain ⟨m, hm⟩ := l1Update_eq (homeStore s p e.pts e.bytes).2 n p (homeStore s p e.pts e.bytes).1
    exact ⟨m, by rw [hm]⟩
  · exact ⟨_, rfl⟩

end

end Sys2Proof.Machine

namespace Sys2Proof.Safety

open Sys2Proof.Machine

/-- The bytes of an entry, and no others, stand in memory; it has left the buffer of slot `n`, whose context goes on as it
was, and no other context changes. -/
def Stored (s t : State) (n : Nat) (p : Part) (bs : List Byte) : Prop :=
  memRead t.mem p.pa p.n = bs ∧ SameMemBut s t p.pa p.n ∧ (ctxOf t n).sb = [] ∧
    (ctxOf t n).pc = (ctxOf s n).pc ∧ (∀ r, (ctxOf t n).getX r = (ctxOf s n).getX r) ∧ ∀ k, k ≠ n → ctxOf t k = ctxOf s k

/-- The one entry of a buffer leaves after a write that changed MTS of its context and no other context. -/
theorem sbPop_stored {s u : State} {n m : Nat} {e : SbEntry} {p : Part} (hb : (ctxOf s n).sb = [e])
    (hd : (ctxOf s n).dying = false) (hn : ctxOf u n = { ctxOf s n with mts := m }) (ho : ∀ k, k ≠ n → ctxOf u k = ctxOf s k)
    (hm : memRead u.mem p.pa p.n = e.bytes) (hx : SameMemBut s u p.pa p.n) :
    Stored s (sbPop u n 0) n p e.bytes ∧ (ctxOf (sbPop u n 0) n).mts = m ∧ (sbPop u n 0).home = u.home ∧
      (sbPop u n 0).clusters = (countDown u e.counted).clusters := by
  rw [sbPop_sole (e := e) (by rw [hn, ← hb]) (by rw [hn, ← hd])]
  obtain ⟨c, hc⟩ := countDown_eq u e.counted
  have hk (k : Nat) : ctxOf (countDown u e.counted) k = ctxOf u k := by rw [hc]; rfl
  have hmem : (countDown u e.counted).mem = u.mem := by rw [hc]
  refine ⟨⟨?_, ?_, ?_, ?_, ?_, fun k h => ?_⟩, ?_, ?_, rfl⟩
  · exact (congrArg (memRead · p.pa p.n) hmem).trans hm
  · exact fun a ha => (congrArg (memGet · a) hmem).trans (hx a ha)
  · rw [ctxOf_modCtx]; rfl
  · rw [ctxOf_modCtx, hn]; rfl
  · intro r; rw [ctxOf_modCtx, hn]; rfl
  · rw [ctxOf_modCtx_ne _ _ _ _ h, hk, ho k h]
  · rw [ctxOf_modCtx, hn]; rfl
  · show (countDown u e.counted).home = u.home
    rw [hc]

section
variable {s : State} {n : Nat} {e : SbEntry} {p : Part} (hb : (ctxOf s n).sb = [e]) (hp : e.parts = [p])
  (hn : p.n = e.bytes.length) (h0 : p.at_ = 0) (hd : (ctxOf s n).dying = false) (hl : sbMayLeave (ctxOf s n) 0 = true)
include hb hp hn h0 hd hl

/-- R205: a store performs at its bank. -/
theorem storePerform_comb (hk : e.kind = .store) (hc : p.isComb = true) :
    Does (.storePerform n) s fun t => Stored s t n p e.bytes ∧ (ctxOf t n).mts = (ctxOf s n).mts := by
  refine ⟨_, execStorePerform_performs hb hl hp (by rw [hk]; rfl) (.inl hc), ?_⟩
  rw [performPart_comb h0 hn n hk hc]
  have hmem : (combStore { s with fresh := s.fresh + 1 } p.combCl p.combOff e.bytes).mem = memWrite s.mem p.pa e.bytes := by
    rw [mem_combStore, combKey_part hc]
  obtain ⟨h, hm, -⟩ := sbPop_stored (u := combStore { s with fresh := s.fresh + 1 } p.combCl p.combOff e.bytes) (p := p) hb hd
    (m := (ctxOf s n).mts) rfl (fun _ _ => rfl) (by rw [hmem, hn, memRead_memWrite])
    (fun a ha => by rw [hmem, memGet_memWrite_out _ _ _ _ (by omega)])
  exact ⟨h, hm⟩

/-- R211, R358: a CPUT performs, its row turns valid, and its cell has one write fewer on its way. -/
theorem storePerform_cput {cl i off : Nat} (hk : e.kind = .cput cl i off) (hc : p.isComb = true)
    (hcnt : e.counted = [(cl, i, (cellOf s cl i).cgen)]) : Does (.storePerform n) s fun t =>
    Stored s t n p e.bytes ∧ (cellOf t cl i).cts = max (cellOf s cl i).cts (ctxOf s n).mts ∧
      (cellOf t cl i).valid = (cellOf s cl i).valid ||| BitVec.ofNat 32 (2 ^ (off / ((cellOf s cl i).pitch * 16))) ∧
      (cellOf t cl i).counted = (cellOf s cl i).counted - 1 := by
  refine ⟨_, execStorePerform_performs hb hl hp (by rw [hk]; rfl) (.inl hc), ?_⟩
  rw [performPart_cput (s := { s with fresh := s.fresh + 1 }) h0 hn n hk hc hcnt]
  generalize hu : modCell (combStore { s with fresh := s.fresh + 1 } p.combCl p.combOff e.bytes) cl i _ = u
  have hmem : u.mem = memWrite s.mem p.pa e.bytes := by rw [← hu, ← combKey_part hc]; rfl
  have hctx (k : Nat) : ctxOf u k = ctxOf s k := by rw [← hu]; rfl
  have hcell : cellOf u cl i = { cellOf s cl i with
      valid := (cellOf s cl i).valid ||| BitVec.ofNat 32 (2 ^ (off / ((cellOf s cl i).pitch * 16))),
      cts := max (cellOf s cl i).cts (ctxOf s n).mts } := by
    rw [← hu, cellOf_modCell, cellOf_combStore_any]; rfl
  obtain ⟨h, -, -, hcl⟩ := sbPop_stored (u := u) (p := p) hb hd (m := (ctxOf s n).mts) (hctx n) (fun k _ => hctx k)
    (by rw [hmem, hn, memRead_memWrite]) (fun a ha => by rw [hmem, memGet_memWrite_out _ _ _ _ (by omega)])
  have hend : cellOf (sbPop u n 0) cl i = { cellOf u cl i with counted := (cellOf u cl i).counted - 1 } := by
    have hx : cellOf (countDown u e.counted) cl i = { cellOf u cl i with counted := (cellOf u cl i).counted - 1 } := by
      rw [hcnt]
      exact (cellOf_modCell u cl i _).trans (if_pos (congrArg Cell.cgen hcell))
    rw [← hx, cellOf, cellOf, clOf, clOf, hcl]
  refine ⟨h, ?_, ?_, ?_⟩ <;> rw [hend, hcell]

/-- R217, R234: a store performs at home, at the next timestamp of the line. -/
theorem storePerform_home {h : Home} (hk : e.kind = .store) (hh : HeldLine s p h) (hi : biBlocks s p.line = false) :
    Does (.storePerform n) s fun t => Stored s t n p e.bytes ∧ (ctxOf t n).mts = max (ctxOf s n).mts (max e.pts (h.rts + 1)) ∧
      ∃ g, fget t.home p.line = some g ∧ g.wts = max e.pts (h.rts + 1) ∧ g.rts = max e.pts (h.rts + 1) ∧ g.dirty = true ∧
        g.cls = h.cls := by
  refine ⟨_, execStorePerform_performs hb hl hp (by rw [hk]; rfl) (.inr hi), ?_⟩
  have hh' : HeldLine { s with fresh := s.fresh + 1 } p h := hh
  obtain ⟨hts, hbut, g, hg, hw, hr⟩ := homeStore_held hh' e.pts e.bytes hn.symm
  obtain ⟨hhbm, hheld, hkey, -, -, -, -, hline, -⟩ := hh
  have hpa := of_decide_eq_true hhbm
  obtain ⟨hrd, hun⟩ := homeStore_mem { s with fresh := s.fresh + 1 } p e.pts (bs := e.bytes) (by omega)
  obtain ⟨hdirty, hcls⟩ := homeStore_dirty (s := { s with fresh := s.fresh + 1 }) hheld hkey hg
  obtain ⟨m, hm⟩ := performPart_home (s := { s with fresh := s.fresh + 1 }) h0 hn n (not_comb_of_hbm hhbm)
  rw [hm, hts]
  generalize (homeStore { s with fresh := s.fresh + 1 } p e.pts e.bytes).2 = u at hbut hg hrd hun ⊢
  have hctxs : u.ctxs = s.ctxs := (congrArg State.ctxs hun :)
  have hctx (k : Nat) : ctxOf { u with cores := m } k = ctxOf s k := by rw [ctxOf, hctxs]; rfl
  obtain ⟨hst, hmts, hhome, -⟩ := sbPop_stored (u := modCtx { u with cores := m } n fun c =>
    { c with mts := max c.mts (max e.pts (h.rts + 1)) }) (p := p) hb hd (by rw [ctxOf_modCtx, hctx])
    (fun k hkn => by rw [ctxOf_modCtx_ne _ _ _ _ hkn, hctx]) (hn ▸ hrd) hbut
  exact ⟨hst, hmts, g, by rw [hhome]; exact hg, hw, hr, hdirty, hcls⟩

omit hn h0 hd in
/-- R105, R107: a store to a line that the host may hold waits for the answer to a back-invalidation. -/
theorem storePerform_waits (hk : e.kind = .store) (hc : p.isComb = false) (hi : biBlocks s p.line = true) :
    Does (.storePerform n) s fun t =>
      (ctxOf t n).sb = [e] ∧ SameMem s t ∧ ∃ b, fget t.backInv p.line = some b ∧ .storePerform n ∈ b.retry := by
  obtain ⟨b, hw, hr⟩ := biWait_eq s p.line (.storePerform n)
  refine ⟨_, execStorePerform_waits hb hl hp hk hc hi, ?_⟩
  rw [hw]
  exact ⟨hb, fun _ => rfl, b, fget_fset_self _ _ _, hr⟩

end

end Sys2Proof.Safety
end

section
/-!
SUPPORT. What a load whose data comes back changes: the home of its line, copies in L1s, and the contexts it goes to (R220, R233,
R240, R241).
-/

namespace Sys2Proof.Machine

/-! ## What a load writes beside its home -/

/-- The state without contexts, cores, free values and what a timestamp that starts a rebase writes. -/
def unloaded (s : State) : State :=
  { s with ctxs := [], cores := [], fresh := 0, agenda := [], rebaseActive := false, rebaseAgain := false, epoch := false }

section
variable {s t : State} (h : unloaded t = unloaded s)
include h

theorem mem_of_unloaded : t.mem = s.mem := (congrArg State.mem h :)
theorem home_of_unloaded : t.home = s.home := (congrArg State.home h :)
theorem leaseOf_of_unloaded (cls : Nat) : leaseOf t cls = leaseOf s cls := (congrArg (leaseOf · cls) h :)

end

theorem tsCheck_unloaded (s : State) (ts : Nat) : unloaded (tsCheck s ts) = unloaded s := by
  unfold tsCheck
  split
  · rfl
  · split <;> rfl

/-- A fill writes a core and draws a free value. -/
theorem l1Fill_eq (s : State) (n : Nat) (i : Bool) (p : Part) (h : Home) (since : Nat) :
    ∃ m f, l1Fill s n i p h since = { s with cores := m, fresh := f } := by
  unfold l1Fill
  split
  · exact ⟨_, _, rfl⟩
  · exact ⟨_, _, rfl⟩

/-! ## A line that the L2 holds -/

/-- The home of a line after a read for a clock: its lease is renewed (R233). -/
def renewed (s : State) (h : Home) (pts : Nat) : Home :=
  { h with used := s.seq, rts := max h.rts (pts + leaseOf s h.cls) }

theorem homeLoad_atHome (s : State) (p : Part) (pts : Nat) : AtHome s (homeLoad s p pts).2 :=
  (homeFor_atHome s p.line p.cls p.key 1).trans (setHome_atHome _ _ _)

theorem readUnder_of_atHome {s t : State} (h : AtHome s t) (hm : t.mem = s.mem) : readUnder t = readUnder s := by
  have e : lineKeyOf t = lineKeyOf s := (congrArg lineKeyOf h.rest :)
  exact readUnder_congr hm (congrArg State.keys h.rest :) e

end Sys2Proof.Machine

namespace Sys2Proof.Safety

open Sys2Proof.Machine

/-- Whether a line is held depends on nothing that loads write beside homes. -/
theorem HeldLine.of_unloaded {s t : State} (h : unloaded t = unloaded s) {p : Part} {g : Home} (hl : HeldLine s p g) :
    HeldLine t p g := by
  have hu : HeldLine (unloaded s) p g := hl
  rw [← h] at hu
  exact hu

section
variable {s : State} {p : Part} {h : Home} (hl : HeldLine s p h)
include hl

/-- No error shows in a held line, and none stands in it. -/
theorem HeldLine.sound : lineDetect s p.line = s ∧ p.line ∉ s.poison := by
  obtain ⟨-, -, -, -, hp, h1, h2, -⟩ := hl
  exact ⟨lineDetect_none h1 h2, hp⟩

/-- A held line reads as it stands. -/
theorem HeldLine.read : readUnder s p.key p.pa p.n = memRead s.mem p.pa p.n := by
  obtain ⟨-, -, -, hk, -, -, -, hn, -⟩ := hl
  exact readUnder_same hn hk

/-- A read of a held line renews its lease; memory stands as it was (R233). -/
theorem homeLoad_held (pts : Nat) : (homeLoad s p pts).1 = renewed s h pts ∧ (homeLoad s p pts).2.mem = s.mem ∧
    fget (homeLoad s p pts).2.home p.line = some (renewed s h pts) := by
  obtain ⟨-, hh, hk, -, -, -, -, -, -, hroom⟩ := hl
  have hr : (l2SetOf { s with seq := s.seq + 1, home := fset s.home p.line (renewed s h pts) } p.line).length ≤ 16 :=
    Nat.le_trans (Nat.le_of_eq (l2SetOf_length_congr (s := { s with home := fset s.home p.line h }) p.line
      (fset_keys _ _ _ _) rfl)) hroom
  have hs := setHome_of_room (s := { s with seq := s.seq + 1 }) hr
  simp only [homeLoad, homeFor_held hh hk]
  refine ⟨rfl, ?_⟩
  change (setHome { s with seq := s.seq + 1 } p.line (renewed s h pts)).mem = _ ∧
    fget (setHome { s with seq := s.seq + 1 } p.line (renewed s h pts)).home _ = _
  rw [hs, (tsCheck_home _ _).1, (tsCheck_home _ _).2]
  exact ⟨rfl, fget_fset_self _ _ _⟩

/-- A part in a held line is read, and the line enters the L1: memory and contexts stand as they were, the home is renewed. -/
theorem loadPart_held (n pts since : Nat) : ∃ u, loadPart s n p pts since = (memRead s.mem p.pa p.n, h.wts, u) ∧
    u.mem = s.mem ∧ u.ctxs = s.ctxs ∧ fget u.home p.line = some (renewed s h pts) := by
  obtain ⟨h1, hm, hh⟩ := homeLoad_held hl pts
  have ha := homeLoad_atHome s p pts
  have hr : readUnder (homeLoad s p pts).2 p.key p.pa p.n = memRead s.mem p.pa p.n := by
    rw [readUnder_of_atHome ha hm, hl.read]
  have hc : (homeLoad s p pts).2.ctxs = s.ctxs := (congrArg State.ctxs ha.rest :)
  refine ⟨l1Fill (homeLoad s p pts).2 n false p (renewed s h pts) since, ?_, ?_⟩
  · simp only [loadPart, h1, hr]
    rfl
  · obtain ⟨m, f, e⟩ := l1Fill_eq (homeLoad s p pts).2 n false p (renewed s h pts) since
    rw [e]
    exact ⟨hm, hc, hh⟩

end

end Sys2Proof.Safety

namespace Sys2Proof.Machine

/-! ## Requests of one part -/

/-- The one part of a request that it misses is read at home; what it has at hand it keeps. -/
theorem loadParts_sole {s : State} {r : LoadReq} {p : Part} {q : Option (List Byte × Nat)} (hp : r.parts = [p]) (hg : r.got = [q])
    (hm : r.missing = [p]) (n pts : Nat) : loadParts s n pts r (r.parts.zip r.got) [] 0 =
      ((q.map Prod.fst).getD (loadPart s n p pts r.since).1, (loadPart s n p pts r.since).2.1,
        (loadPart s n p pts r.since).2.2) := by
  rw [hp, hg]
  cases q with
  | none => simp [loadParts]
  | some g =>
    have hf : (r.force && p.cached) = true := by
      have h : p ∈ r.missing := hm ▸ List.mem_singleton_self p
      simpa [LoadReq.missing, hp, hg] using h
    simp [loadParts, hf]

theorem biHeld_sole {s : State} {p : Part} (h : biPending s p.line = false) : biHeld s [p] = none := by simp [biHeld, h]

/-- The load of a context that waits for nothing else comes back. -/
theorem execLoadReturn_sole {s : State} {n : Nat} {r : LoadReq} (hr : (ctxOf s n).loads = [r])
    (hw : ∀ q g b, (ctxOf s n).wait ≠ .fetch q g b) : execLoadReturn n s = .next (loadListReturn s n 0 r) := by
  have ha : anyLoad s n = loadListReturn s n 0 r := by simp only [anyLoad, hr]
  simp only [execLoadReturn]
  split
  next => rw [hr, ← ha]; rfl
  next q g b h => exact absurd h (hw q g b)
  next => rw [ha]

/-- An LDA comes back (R240). -/
theorem execLoadReturn_lda {s : State} {n : Nat} {r : LoadReq} {acq : Option Scope} (hw : (ctxOf s n).wait = .load r acq)
    (hl : (ctxOf s n).loads = []) : execLoadReturn n s = .next (ldaReturn s n r acq) := by
  simp [execLoadReturn, hw, hl]

/-! ## Clocks (R241) -/

theorem putLoad_mrts (c : Ctx) (d : LdDst) (bs : List Byte) : (c.putLoad d bs).mrts = c.mrts := by
  cases d with
  | x rd w sg => unfold Ctx.putLoad Ctx.setX; dsimp only; split <;> (try split) <;> rfl
  | v rd => rfl

theorem putLoad_pc (c : Ctx) (d : LdDst) (bs : List Byte) : (c.putLoad d bs).pc = c.pc := by
  cases d with
  | x rd w sg => exact setX_pc c _ _
  | v rd => rfl

theorem acquire_pc (c : Ctx) (sc : Scope) (ts : Nat) : (c.acquire sc ts).pc = c.pc := by
  unfold Ctx.acquire
  split <;> rfl

/-- The acquire of an LDA, or none. -/
def Ctx.acquired (c : Ctx) : Option Scope → Ctx
  | some sc => c.acquire sc 0
  | none => c

/-- A load of HBM completes: its register, MRTS, its acquire, and the next instruction (R240). -/
theorem ctxOf_loadDone (s : State) (n : Nat) (d : LdDst) (bs : List Byte) (w : Nat) (acq : Option Scope) :
    ctxOf (loadDone s n d bs w acq false) n = (({ (ctxOf s n).putLoad d bs with mrts := max (ctxOf s n).mrts w } : Ctx).acquired
      acq).goto ((ctxOf s n).pc + 4) := by
  have hpc := putLoad_pc (ctxOf s n) d bs
  simp only [loadDone, ctxOf_modCtx, Bool.false_eq_true, if_false]
  cases acq with
  | none => exact congrArg (fun pc => Ctx.goto _ (pc + 4)) hpc
  | some sc => exact congrArg (fun pc => Ctx.goto _ (pc + 4)) ((acquire_pc _ _ _).trans hpc)

/-- A load writes its register whatever the clock is. -/
theorem putLoad_pts (c : Ctx) (x : Nat) (d : LdDst) (bs : List Byte) :
    ({ c with pts := x } : Ctx).putLoad d bs = { c.putLoad d bs with pts := x } := by
  cases d with
  | x rd w sg => unfold Ctx.putLoad Ctx.setX; dsimp only; split <;> (try split) <;> rfl
  | v rd => rfl

/-- The clock of an LDA.F passes the read timestamp of the copy that its L1 holds (R241). -/
def pastPts (s : State) (n : Nat) (p : Part) (force : Bool) : Nat :=
  if force && p.cached then
    ((l1Get (coreOf s (slotCore n)).l1d p.line).map fun k => max (ctxOf s n).pts (k.rts + 1)).getD (ctxOf s n).pts
  else (ctxOf s n).pts

/-- What an LDA does to the clock of its context before it reads. -/
def pastAll (s : State) (n : Nat) (r : LoadReq) : State := if r.force then r.parts.foldl (fun u p => pastCopy u n p) s else s

theorem ctxOf_tsCheck (s : State) (ts k : Nat) : ctxOf (tsCheck s ts) k = ctxOf s k :=
  (congrArg (ctxOf · k) (tsCheck_atHome s ts).rest :)

theorem pastAll_eq (s : State) (n : Nat) {r : LoadReq} {p : Part} (hp : r.parts = [p]) :
    unloaded (pastAll s n r) = unloaded s ∧ ctxOf (pastAll s n r) n = { ctxOf s n with pts := pastPts s n p r.force } ∧
    ∀ k, k ≠ n → ctxOf (pastAll s n r) k = ctxOf s k := by
  have hsame (h : pastPts s n p r.force = (ctxOf s n).pts) :
      ctxOf s n = { ctxOf s n with pts := pastPts s n p r.force } := by rw [h]
  unfold pastAll
  cases hf : r.force with
  | false => exact ⟨rfl, rfl, fun _ _ => rfl⟩
  | true =>
    simp only [hp, List.foldl_cons, List.foldl_nil, if_true, pastCopy, pastPts, Bool.true_and]
    cases p.cached with
    | false => exact ⟨rfl, rfl, fun _ _ => rfl⟩
    | true =>
      cases l1Get (coreOf s (slotCore n)).l1d p.line with
      | none => exact ⟨rfl, rfl, fun _ _ => rfl⟩
      | some c =>
        refine ⟨tsCheck_unloaded _ _, ?_, fun k hk => ?_⟩
        · exact (ctxOf_tsCheck _ _ _).trans (ctxOf_modCtx _ _ _)
        · exact (ctxOf_tsCheck _ _ _).trans (ctxOf_modCtx_ne _ _ _ _ hk)

end Sys2Proof.Machine

namespace Sys2Proof.Safety

open Sys2Proof.Machine

section
variable {s : State} {n : Nat} {r : LoadReq} {p : Part} {h : Home} (hm : r.missing = [p]) (hs : r.sent = true)
  (hl : HeldLine s p h) (hi : biPending s p.line = false)
include hm hs hl hi

/-- What an LDA of one part meets at a held line: its value, at the clock of its context. -/
theorem ldaReturn_reads (acq : Option Scope) : ldaReturn s n r acq =
    (let t := pastAll s n r
    let x := loadParts t n (ctxOf t n).pts r (r.parts.zip r.got) [] 0
    loadDone x.2.2 n r.dst x.1 x.2.1 acq (r.parts.all Part.isComb)) := by
  obtain ⟨hd, hp⟩ := hl.sound
  simp [ldaReturn, hm, hs, biHeld_sole hi, hd, hp, pastAll]

/-- What an outstanding load of one part meets at a held line: its value. -/
theorem loadListReturn_reads (j : Nat) : loadListReturn s n j r = loadBack s n j r := by
  obtain ⟨hd, hp⟩ := hl.sound
  simp [loadListReturn, hm, hs, biHeld_sole hi, hd, hp]

/-- R233, R240, R241: an LDA comes back. -/
theorem loadReturn_lda {q : Option (List Byte × Nat)} {acq : Option Scope} (hw : (ctxOf s n).wait = .load r acq)
    (hno : (ctxOf s n).loads = []) (hp : r.parts = [p]) (hg : r.got = [q]) :
    let c := ctxOf s n
    let pts := pastPts s n p r.force
    let c1 := { c.putLoad r.dst ((q.map Prod.fst).getD (memRead s.mem p.pa p.n)) with mrts := max c.mrts h.wts, pts := pts }
    Does (.loadReturn n) s fun t => SameMem s t ∧
      ctxOf t n = (c1.acquired acq).goto (c.pc + 4) ∧
      (∀ k, k ≠ n → ctxOf t k = ctxOf s k) ∧
      ∃ g, fget t.home p.line = some g ∧ g.wts = h.wts ∧ g.rts = max h.rts (pts + leaseOf s h.cls) := by
  intro c pts c1
  obtain ⟨hu, hc, ho⟩ := pastAll_eq s n hp
  obtain ⟨u, hx, hmem, hctxs, hhome⟩ := loadPart_held (hl.of_unloaded hu) n (ctxOf (pastAll s n r) n).pts r.since
  refine ⟨_, (execLoadReturn_lda hw hno).trans (congrArg _ (ldaReturn_reads hm hs hl hi acq)), ?_⟩
  dsimp only
  rw [loadParts_sole hp hg hm, hx, mem_of_unloaded hu]
  have hctx (k : Nat) : ctxOf u k = ctxOf (pastAll s n r) k := by rw [ctxOf, hctxs]; rfl
  have hcomb : r.parts.all Part.isComb = false := by simp [hp, not_comb_of_hbm hl.1]
  rw [hc] at hhome
  refine ⟨fun a => ?_, ?_, fun k hk => ?_, _, hhome, rfl, ?_⟩
  · exact congrArg (memGet · a) (hmem.trans (mem_of_unloaded hu))
  · rw [hcomb, ctxOf_loadDone, hctx, hc, putLoad_pts]
  · rw [loadDone, ctxOf_modCtx_ne _ _ _ _ hk, hctx, ho k hk]
  · simp only [renewed, leaseOf_of_unloaded hu]
    rfl

end

end Sys2Proof.Safety
end

section
/-!
CERTIFICATES. Loads that home combines (R220), and O31: a store performs, a load returns (R205, R211, R217, R233 to R241).
-/

namespace Sys2Proof.Machine

/-! ## The value of an outstanding load (R182, R233) -/

theorem putBack_mrts (c : Ctx) (r : LoadReq) (bs : List Byte) : (c.putBack r bs).mrts = c.mrts := putLoad_mrts _ _ _

/-- MRTS covers the timestamp of what a load gets. -/
theorem loadGiven_mrts (c : Ctx) (j : Nat) (r : LoadReq) (bs : List Byte) (w : Nat) :
    (c.loadGiven j r bs w).mrts = max c.mrts w := by
  unfold Ctx.loadGiven
  cases r.dead.isNone with
  | true => exact congrArg (max · w) (putBack_mrts c r bs)
  | false => rfl

/-- The one outstanding load of a context gets its data, unless a younger instruction has written its register. -/
theorem loadGiven_sole {c : Ctx} {r : LoadReq} (h : c.loads = [r]) (bs : List Byte) (w : Nat) :
    c.loadGiven 0 r bs w = { (if r.dead = none then c.putBack r bs else c) with mrts := max c.mrts w, loads := [] } := by
  unfold Ctx.loadGiven
  rw [h]
  cases r.dead with
  | none => exact congrArg (fun m => ({ c.putBack r bs with mrts := max m w, loads := [] } : Ctx)) (putBack_mrts c r bs)
  | some k => rfl

/-! ## Loads that home combines (R220) -/

/-- A combined load is one of another context, and reads one word. -/
theorem combined_mem {s : State} {n : Nat} {r : LoadReq} {q : Nat × Nat × LoadReq} (h : q ∈ (combined s n r).1) :
    q.1 ≠ n ∧ q.2.2.word.isSome = true := by
  unfold combined at h
  split at h
  · exact absurd h List.not_mem_nil
  · extract_lets near at h
    have hnear : near q = true → q.1 ≠ n ∧ q.2.2.word.isSome = true := fun hq => by
      simp only [near, Bool.and_eq_true, bne_iff_ne] at hq
      obtain ⟨⟨⟨⟨hcore, -⟩, -⟩, -⟩, hword⟩ := hq
      refine ⟨fun e => hcore (e ▸ rfl), ?_⟩
      cases hx : q.2.2.word with
      | none => rw [hx] at hword; cases hword
      | some x => rfl
    split at h
    · exact absurd h List.not_mem_nil
    · obtain ⟨⟨q', i⟩, hq, rfl⟩ := List.mem_map.1 h
      exact hnear (List.mem_filter.1 (List.fst_mem_of_mem_zipIdx (List.mem_filter.1 hq).1)).2

/-- To find them draws a free value at most. -/
theorem combined_eq (s : State) (n : Nat) (r : LoadReq) : ∃ f, (combined s n r).2 = { s with fresh := f } := by
  unfold combined
  split
  · exact ⟨_, rfl⟩
  · extract_lets near
    split <;> exact ⟨_, rfl⟩

/-- A load gives to its own context. -/
theorem combinedGive_ctx_ne {s : State} {h : Home} {q : Nat × Nat × LoadReq} {k : Nat} (hk : q.1 ≠ k) :
    ctxOf (combinedGive s h q) k = ctxOf s k := by
  unfold combinedGive
  split
  · rfl
  · rw [loadGive, ctxOf_modCtx_ne _ _ _ _ hk.symm]
    obtain ⟨m, f, e⟩ := l1Fill_eq s q.1 false ‹_› h q.2.2.since
    rw [e]; rfl

theorem combinedGive_mrts {s : State} {h : Home} {q : Nat × Nat × LoadReq} (hw : q.2.2.word.isSome = true) :
    (ctxOf (combinedGive s h q) q.1).mrts = max (ctxOf s q.1).mrts h.wts := by
  obtain ⟨p, hp⟩ := Option.isSome_iff_exists.1 hw
  obtain ⟨m, f, e⟩ := l1Fill_eq s q.1 false p h q.2.2.since
  simp only [combinedGive, hp, loadGive, ctxOf_modCtx, loadGiven_mrts, e]
  rfl

theorem combinedGive_unloaded (s : State) (h : Home) (q : Nat × Nat × LoadReq) : unloaded (combinedGive s h q) = unloaded s := by
  unfold combinedGive
  split
  · rfl
  · obtain ⟨m, f, e⟩ := l1Fill_eq s q.1 false ‹_› h q.2.2.since
    rw [e]; rfl

/-- All combined loads get the data that home gave the first. -/
def combinedGives (s : State) (h : Home) (l : List (Nat × Nat × LoadReq)) : State := l.foldl (fun u q => combinedGive u h q) s

section
variable (h : Home) (l : List (Nat × Nat × LoadReq))

theorem combinedGives_unloaded (s : State) : unloaded (combinedGives s h l) = unloaded s :=
  foldl_keeps unloaded _ (fun u q => combinedGive_unloaded u h q) l s

theorem combinedGives_ctx_ne {k : Nat} (hk : ∀ q ∈ l, q.1 ≠ k) (s : State) : ctxOf (combinedGives s h l) k = ctxOf s k := by
  induction l generalizing s with
  | nil => rfl
  | cons q l ih =>
    obtain ⟨hq, hl⟩ := List.forall_mem_cons.1 hk
    exact (ih hl _).trans (combinedGive_ctx_ne hq)

/-- MRTS of a context does not fall. -/
theorem combinedGives_mrts_le (hw : ∀ q ∈ l, q.2.2.word.isSome = true) (s : State) (k : Nat) :
    (ctxOf s k).mrts ≤ (ctxOf (combinedGives s h l) k).mrts := by
  induction l generalizing s with
  | nil => exact Nat.le_refl _
  | cons q l ih =>
    obtain ⟨hq, hl⟩ := List.forall_mem_cons.1 hw
    refine Nat.le_trans ?_ (ih hl _)
    by_cases hk : q.1 = k
    · rw [← hk, combinedGive_mrts hq]; exact Nat.le_max_left _ _
    · rw [combinedGive_ctx_ne hk]

/-- MRTS of every context that gets data covers its timestamp (R220). -/
theorem le_combinedGives_mrts (hw : ∀ q ∈ l, q.2.2.word.isSome = true) (s : State) :
    ∀ q ∈ l, h.wts ≤ (ctxOf (combinedGives s h l) q.1).mrts := by
  induction l generalizing s with
  | nil => exact fun _ hq => absurd hq List.not_mem_nil
  | cons q l ih =>
    obtain ⟨hq, hl⟩ := List.forall_mem_cons.1 hw
    refine List.forall_mem_cons.2 ⟨Nat.le_trans ?_ (combinedGives_mrts_le h l hl _ _), ih hl _⟩
    rw [combinedGive_mrts hq]
    exact Nat.le_max_right _ _

end

end Sys2Proof.Machine

namespace Sys2Proof.Safety

open Sys2Proof.Machine

/-- The one outstanding load of a context, of one part at a held line, comes back with those that home combines with it: home
renews once, to the largest of their clocks. -/
theorem loadBack_held {s : State} {n : Nat} {r : LoadReq} {p : Part} {h : Home} (hp : r.parts = [p]) (hg : r.got = [none])
    (hm : r.missing = [p]) (hl : HeldLine s p h) (j : Nat) : ∃ u g,
    loadBack s n j r = combinedGives (loadGive u n j r (memRead s.mem p.pa p.n) h.wts) g (combined s n r).1 ∧
    u.mem = s.mem ∧ u.ctxs = s.ctxs ∧ fget u.home p.line = some g ∧ g.wts = h.wts ∧
    g.rts = max h.rts (mostPts s n (combined s n r).1 + leaseOf s h.cls) := by
  cases hw : r.word with
  | none =>
    have hc : (combined s n r).1 = [] := by rw [combined, hw]
    obtain ⟨u, hx, hmem, hctxs, hhome⟩ := loadPart_held hl n (ctxOf s n).pts r.since
    refine ⟨u, _, ?_, hmem, hctxs, hhome, rfl, by rw [hc]; rfl⟩
    rw [loadBack, hw, hc, loadParts_sole hp hg hm, hx]
    rfl
  | some x =>
    have hx : x = p := by
      simp only [LoadReq.word, hp, hm, Option.ite_none_right_eq_some, Option.some.injEq] at hw
      exact hw.2.symm
    subst hx
    obtain ⟨f, hf⟩ := combined_eq s n r
    have ht : unloaded (combined s n r).2 = unloaded s := by rw [hf]; rfl
    have hpts : mostPts (combined s n r).2 n (combined s n r).1 = mostPts s n (combined s n r).1 := by rw [hf]; rfl
    have hl' := hl.of_unloaded ht
    obtain ⟨u, hu, hmem, hctxs, hhome⟩ := loadPart_held hl' n (mostPts s n (combined s n r).1) r.since
    have hback : loadBack s n j r = (let v := loadPart (combined s n r).2 n x (mostPts s n (combined s n r).1) r.since
        combinedGives (loadGive v.2.2 n j r v.1 v.2.1)
          (homeLoad (combined s n r).2 x (mostPts s n (combined s n r).1)).1 (combined s n r).1) := by
      simp only [loadBack, hw, hpts]
      rfl
    refine ⟨u, renewed (combined s n r).2 h (mostPts s n (combined s n r).1), ?_, hmem.trans (mem_of_unloaded ht), ?_, hhome,
      rfl, ?_⟩
    · rw [hback, hu, (homeLoad_held hl' _).1, mem_of_unloaded ht]
    · rw [hctxs, hf]
    · simp only [renewed, leaseOf_of_unloaded ht]

/-- R220, R233: the one outstanding load of a context comes back. -/
theorem loadReturn_combined {s : State} {n : Nat} {p : Part} {h : Home} {r : LoadReq} (hr : (ctxOf s n).loads = [r])
    (hp : r.parts = [p]) (hg : r.got = [none]) (hs : r.sent = true) (hw : ∀ q g b, (ctxOf s n).wait ≠ .fetch q g b)
    (hl : HeldLine s p h) (hi : biPending s p.line = false) :
    let c := ctxOf s n; let l := (combined s n r).1
    Does (.loadReturn n) s fun t => SameMem s t ∧
      ((∀ q ∈ l, q.1 ≠ n) → ctxOf t n = { (if r.dead = none then c.putBack r (memRead s.mem p.pa p.n) else c) with
        mrts := max c.mrts h.wts, loads := [] }) ∧
      (∀ k, k ≠ n → (∀ q ∈ l, q.1 ≠ k) → ctxOf t k = ctxOf s k) ∧ (∀ q ∈ l, h.wts ≤ (ctxOf t q.1).mrts) ∧
      ∃ g, fget t.home p.line = some g ∧ g.wts = h.wts ∧ g.rts = max h.rts (mostPts s n l + leaseOf s h.cls) := by
  intro c l
  have hm : r.missing = [p] := by simp [LoadReq.missing, hp, hg]
  obtain ⟨u, g, hback, hmem, hctxs, hhome, hwts, hrts⟩ := loadBack_held hp hg hm hl 0
  have hctx (k : Nat) : ctxOf u k = ctxOf s k := by rw [ctxOf, hctxs]; rfl
  have hun := combinedGives_unloaded g l (loadGive u n 0 r (memRead s.mem p.pa p.n) h.wts)
  refine ⟨_, (execLoadReturn_sole hr hw).trans (congrArg _ ((loadListReturn_reads hm hs hl hi 0).trans hback)),
    fun a => congrArg (memGet · a) ((mem_of_unloaded hun).trans hmem), fun hq => ?_, fun k hk hq => ?_, ?_, g,
    (congrArg (fget · p.line) (home_of_unloaded hun)).trans hhome, hwts, hrts⟩
  · rw [combinedGives_ctx_ne g l hq, loadGive, ctxOf_modCtx, hctx, loadGiven_sole hr]
  · rw [combinedGives_ctx_ne g l hq, loadGive, ctxOf_modCtx_ne _ _ _ _ hk, hctx]
  · exact hwts ▸ le_combinedGives_mrts g l (fun q hq => (combined_mem hq).2) _

/-- Settles O31: an entry by its kind and the place of its part, an LDA and an outstanding load by what stands at home. -/
theorem storesPerformAndLoadsReturn : Obligations.StoresPerformAndLoadsReturn := by
  unfold Obligations.StoresPerformAndLoadsReturn
  refine ⟨fun s n cl i off e p h hb hp hn h0 hd => ⟨execStorePerform_behind hb, fun hl => ⟨?_, ?_, ?_, ?_⟩⟩, ?_, ?_⟩
  · exact storePerform_comb hb hp hn h0 hd hl
  · exact storePerform_cput hb hp hn h0 hd hl
  · exact storePerform_home hb hp hn h0 hd hl
  · exact storePerform_waits hb hp hl
  · intro s n p h r q acq c hw hno hp hg hm hs hl hi
    cases acq <;> exact loadReturn_lda hm hs hl hi hw hno hp hg
  · intro s n p h r c l hr hp hg hs _ hw hl hi
    exact loadReturn_combined hr hp hg hs hw hl hi

end Sys2Proof.Safety
end

section
/-!
SUPPORT. Fields of words (R281, R282, R301 to R307): a field and its parts, the numbers of scopes, formats and types, a word put
together again from its fields, and the fields of the word that each form makes.
-/

namespace Sys2Proof

/-! ## Fields of a number -/

theorem fld_lt (w lo len : Nat) : fld w lo len < 2 ^ len := Nat.mod_lt _ (Nat.two_pow_pos _)

theorem fld_zero_of_lt {w len : Nat} (h : w < 2 ^ len) : fld w 0 len = w := by
  rw [fld, pow_zero, Nat.div_one, Nat.mod_eq_of_lt h]

/-- A field is its low part and, above it, its high part. -/
theorem fld_add (w lo m n : Nat) : fld w lo (m + n) = fld w lo m + 2 ^ m * fld w (lo + m) n := by
  rw [fld, pow_add, Nat.mod_mul, Nat.div_div_eq_div_mul, ← pow_add]; rfl

/-- A field stands for a number of its low part exactly if its low part does and its high part is clear. -/
theorem fld_add_eq_iff (w lo m n : Nat) {c : Nat} (h : c < 2 ^ m) :
    fld w lo (m + n) = c ↔ fld w lo m = c ∧ fld w (lo + m) n = 0 := by
  have hm := fld_lt w lo m
  rw [fld_add]
  constructor
  · intro hc
    rcases Nat.eq_zero_or_pos (fld w (lo + m) n) with h0 | h0
    · simpa [h0] using hc
    · have := Nat.le_mul_of_pos_right (2 ^ m) h0
      omega
  · rintro ⟨hc, h0⟩
    simp [hc, h0]

/-- The low and the high part of a field. -/
theorem fld_low (w lo m n : Nat) : fld w lo m = fld w lo (m + n) % 2 ^ m := by
  rw [fld_add, Nat.add_mul_mod_self_left, Nat.mod_eq_of_lt (fld_lt _ _ _)]

theorem fld_high (w lo m n : Nat) : fld w (lo + m) n = fld w lo (m + n) / 2 ^ m := by
  rw [fld_add, Nat.add_mul_div_left _ _ (Nat.two_pow_pos _), Nat.div_eq_of_lt (fld_lt _ _ _), Nat.zero_add]

@[simp] theorem xf_val (w lo : Nat) : (xf w lo).val = fld w lo 5 := Nat.mod_mod _ _
@[simp] theorem vf_val (w lo : Nat) : (vf w lo).val = fld w lo 4 := Nat.mod_mod _ _
@[simp] theorem mf_val (w lo : Nat) : (mf w lo).val = fld w lo 2 := Nat.mod_mod _ _
@[simp] theorem sf_val (w lo : Nat) : (sf w lo).val = fld w lo 4 := Nat.mod_mod _ _
@[simp] theorem hf_val (w lo : Nat) : (hf w lo).val = fld w lo 3 := Nat.mod_mod _ _
@[simp] theorem imm16_toNat (w : Nat) : (imm16 w).toNat = fld w 0 16 := Nat.mod_mod _ _

/-! ## Single bits -/

@[simp] theorem b2n_false : b2n false = 0 := rfl
@[simp] theorem b2n_true : b2n true = 1 := rfl
theorem b2n_lt (m : Bool) : b2n m < 2 := by cases m <;> decide
@[simp] theorem b2n_mod_two (m : Bool) : b2n m % 2 = b2n m := Nat.mod_eq_of_lt (b2n_lt m)
@[simp] theorem b2n_div_two (m : Bool) : b2n m / 2 = 0 := Nat.div_eq_of_lt (b2n_lt m)

/-- A bit read as a Bool is the field of one bit. -/
theorem bit_eq_iff {w n : Nat} {m : Bool} : bit w n = m ↔ fld w n 1 = b2n m := by
  have := fld_lt w n 1
  cases m <;> simp [bit]; omega

@[simp] theorem b2n_bit (w n : Nat) : b2n (bit w n) = fld w n 1 := (bit_eq_iff.1 rfl).symm

theorem bit_eq_true_iff {w n : Nat} : bit w n = true ↔ fld w n 1 ≠ 0 := by
  have := fld_lt w n 1
  rw [bit_eq_iff, b2n_true]
  omega

theorem bit_eq_false_iff {w n : Nat} : bit w n = false ↔ fld w n 1 = 0 := bit_eq_iff

/-! ## Numbers of scopes, formats, types, predicates and classes (R303 to R307) -/

@[simp] theorem Scope.ofCode_eq_some {n : Nat} {s : Scope} : Scope.ofCode n = some s ↔ s.code = n := by
  constructor
  · unfold Scope.ofCode
    split <;> rintro ⟨⟩ <;> rfl
  · rintro rfl
    cases s <;> rfl

@[simp] theorem FFmt.ofCode_eq_some {n : Nat} {f : FFmt} : FFmt.ofCode n = some f ↔ f.code = n := by
  constructor
  · unfold FFmt.ofCode
    split <;> rintro ⟨⟩ <;> rfl
  · rintro rfl
    cases f <;> rfl

@[simp] theorem ETy.ofCode_eq_some {n : Nat} {t : ETy} : ETy.ofCode n = some t ↔ t.code = n := by
  constructor
  · unfold ETy.ofCode
    split <;> rintro ⟨⟩ <;> rfl
  · rintro rfl
    cases t <;> rfl

@[simp] theorem Scope.ofCode_code (s : Scope) : Scope.ofCode s.code = some s := Scope.ofCode_eq_some.2 rfl
@[simp] theorem FFmt.ofCode_code (f : FFmt) : FFmt.ofCode f.code = some f := FFmt.ofCode_eq_some.2 rfl
@[simp] theorem ETy.ofCode_code (t : ETy) : ETy.ofCode t.code = some t := ETy.ofCode_eq_some.2 rfl
@[simp] theorem ETy.ofCode_zero : ETy.ofCode 0 = some .i8 := rfl

@[simp] theorem predOf_eq_some {w : Nat} {p : Pred} : predOf w = some p ↔ predBits p = fld w 4 3 * 16 := by
  have h : fld w 4 3 = fld w 4 2 + 4 * fld w 6 1 := fld_add w 4 2 1
  have hm := mf_val w 4
  have hb := fld_lt w 6 1
  unfold predOf
  split
  case isTrue h6 =>
    rw [bit_eq_iff, b2n_true] at h6
    cases p <;> simp [predBits, Fin.ext_iff] <;> omega
  case isFalse h6 =>
    rw [Bool.not_eq_true, bit_eq_iff, b2n_false] at h6
    cases p <;> simp [predBits] <;> omega

theorem clsOf_eq_some {w : Nat} {c : ClsSel} : clsOf w = some c ↔ clsBits c = fld w 8 3 * 256 := by
  unfold clsOf
  cases c <;> split <;> simp [clsBits, Fin.ext_iff] <;> omega

theorem accept_eq_some {i j : Instr} : accept i = some j ↔ i = j ∧ j.wellFormed = true := by
  rw [accept, Option.ite_none_right_eq_some, Option.some_inj, and_comm]
  exact and_congr_right fun h => by rw [h]

/-! ## The forms of a word (R281) -/

section
variable {w : Nat} (h : w < 2 ^ 32)
include h

theorem encR_fields : encR (fld w 26 6) (fld w 21 5) (fld w 16 5) (fld w 11 5) (fld w 8 3) (fld w 0 8) = w := by
  have h0 := fld_add w 0 8 24
  have h8 := fld_add w 8 3 21
  have h11 := fld_add w 11 5 16
  have h16 := fld_add w 16 5 11
  have h21 := fld_add w 21 5 6
  have hw := fld_zero_of_lt h
  simp only [encR, Nat.reduceAdd, Nat.reducePow, Nat.zero_add] at *
  omega

theorem encI_fields : encI (fld w 26 6) (fld w 21 5) (fld w 16 5) (fld w 0 16) = w := by
  have hi : fld w 0 16 = fld w 0 8 + 2 ^ 8 * (fld w 8 3 + 2 ^ 3 * fld w 11 5) :=
    (fld_add w 0 8 8).trans (congrArg (fld w 0 8 + 2 ^ 8 * ·) (fld_add w 8 3 5))
  rw [hi]
  exact Eq.trans (by simp only [encI, encR]; ring) (encR_fields h)

theorem encV_fields :
    encV (fld w 26 6) (fld w 21 5) (fld w 16 5) (fld w 11 5) (fld w 7 4) (fld w 4 3 * 16) (fld w 0 4) = w := by
  have hi : fld w 0 16 = fld w 0 4 + 2 ^ 4 * (fld w 4 3 + 2 ^ 3 * (fld w 7 4 + 2 ^ 4 * fld w 11 5)) :=
    (fld_add w 0 4 12).trans (congrArg (fld w 0 4 + 2 ^ 4 * ·)
      ((fld_add w 4 3 9).trans (congrArg (fld w 4 3 + 2 ^ 3 * ·) (fld_add w 7 4 5))))
  refine Eq.trans ?_ (encI_fields h)
  rw [hi]
  simp only [encI, encV]
  ring

end

/-- The parts of a register field: a v register, an m register and the bits above each (R282). -/
theorem reg_parts (w lo : Nat) :
    fld w lo 4 = fld w lo 5 % 16 ∧ fld w (lo + 4) 1 = fld w lo 5 / 16 ∧ fld w lo 2 = fld w lo 5 % 4 ∧
    fld w (lo + 2) 3 = fld w lo 5 / 4 :=
  ⟨fld_low w lo 4 1, fld_high w lo 4 1, fld_low w lo 2 3, fld_high w lo 2 3⟩

/-- The parts of MOD: the W bit and the two bits above it. -/
theorem mod_parts (w : Nat) : fld w 8 1 = fld w 8 3 % 2 ∧ fld w 9 2 = fld w 8 3 / 2 :=
  ⟨fld_low w 8 1 2, fld_high w 8 1 2⟩

theorem v3_eq_true {w : Nat} : v3 w = true ↔ fld w 25 1 = 0 ∧ fld w 20 1 = 0 ∧ fld w 15 1 = 0 := by
  simp [v3, bit_eq_false_iff, and_assoc]


/-! ## What fits into its field -/

@[simp] theorem b2n_lt_8 (m : Bool) : b2n m < 8 := (b2n_lt m).trans (by decide)
@[simp] theorem vreg_lt (r : VReg) : r.val < 32 := r.isLt.trans (by decide)
@[simp] theorem mreg_lt (r : MReg) : r.val < 32 := r.isLt.trans (by decide)
@[simp] theorem imm_lt (i : BitVec 16) : i.toNat < 65536 := i.isLt
@[simp] theorem stateReg_lt (n : BitVec 12) : n.toNat < 4096 := n.isLt
@[simp] theorem stateReg_lt_imm (n : BitVec 12) : n.toNat < 65536 := n.isLt.trans (by decide)
@[simp] theorem Scope.code_lt (s : Scope) : s.code < 8 := by cases s <;> decide
@[simp] theorem FFmt.code_lt (f : FFmt) : f.code < 8 := by cases f <;> decide
@[simp] theorem FFmt.code_lt_32 (f : FFmt) : f.code < 32 := f.code_lt.trans (by decide)
@[simp] theorem ETy.code_lt (t : ETy) : t.code < 16 := by cases t <;> decide
@[simp] theorem ETy.code_lt_32 (t : ETy) : t.code < 32 := t.code_lt.trans (by decide)
@[simp] theorem predBits_lt (p : Pred) : predBits p < 128 := by cases p <;> simp only [predBits] <;> omega
@[simp] theorem dvd_predBits (p : Pred) : 16 ∣ predBits p := by cases p <;> simp only [predBits] <;> omega

/-! ## The fields of a word that a form makes -/

section
variable {mj d a b md fn : Nat}

@[simp] theorem encR_lt (hmj : mj < 64) (hd : d < 32) (ha : a < 32) (hb : b < 32) (hmd : md < 8) (hfn : fn < 256) :
    encR mj d a b md fn < 4294967296 := by simp only [encR]; omega
@[simp] theorem fld_encR_major (hd : d < 32) (ha : a < 32) (hb : b < 32) (hmd : md < 8) (hfn : fn < 256) (hmj : mj < 64) :
    fld (encR mj d a b md fn) 26 6 = mj := by simp only [encR, fld]; omega
@[simp] theorem fld_encR_d (ha : a < 32) (hb : b < 32) (hmd : md < 8) (hfn : fn < 256) (hd : d < 32) :
    fld (encR mj d a b md fn) 21 5 = d := by simp only [encR, fld]; omega
@[simp] theorem fld_encR_a (hb : b < 32) (hmd : md < 8) (hfn : fn < 256) (ha : a < 32) :
    fld (encR mj d a b md fn) 16 5 = a := by simp only [encR, fld]; omega
@[simp] theorem fld_encR_b (hmd : md < 8) (hfn : fn < 256) (hb : b < 32) : fld (encR mj d a b md fn) 11 5 = b := by
  simp only [encR, fld]; omega
@[simp] theorem fld_encR_mod (hfn : fn < 256) (hmd : md < 8) : fld (encR mj d a b md fn) 8 3 = md := by
  simp only [encR, fld]; omega
@[simp] theorem fld_encR_fn (hfn : fn < 256) : fld (encR mj d a b md fn) 0 8 = fn := by simp only [encR, fld]; omega

end

section
variable {mj d a i : Nat}

@[simp] theorem encI_lt (hmj : mj < 64) (hd : d < 32) (ha : a < 32) (hi : i < 65536) : encI mj d a i < 4294967296 := by
  simp only [encI]; omega
@[simp] theorem fld_encI_major (hd : d < 32) (ha : a < 32) (hi : i < 65536) (hmj : mj < 64) :
    fld (encI mj d a i) 26 6 = mj := by simp only [encI, fld]; omega
@[simp] theorem fld_encI_d (ha : a < 32) (hi : i < 65536) (hd : d < 32) : fld (encI mj d a i) 21 5 = d := by
  simp only [encI, fld]; omega
@[simp] theorem fld_encI_a (hi : i < 65536) (ha : a < 32) : fld (encI mj d a i) 16 5 = a := by
  simp only [encI, fld]; omega
@[simp] theorem fld_encI_imm (hi : i < 65536) : fld (encI mj d a i) 0 16 = i := by simp only [encI, fld]; omega

end

section
variable {mj d a b et p fn : Nat}

@[simp] theorem encV_lt (hmj : mj < 64) (hd : d < 32) (ha : a < 32) (hb : b < 32) (he : et < 16) (hp : p < 128)
    (hp' : 16 ∣ p) (hfn : fn < 16) : encV mj d a b et p fn < 4294967296 := by simp only [encV]; omega
@[simp] theorem fld_encV_major (hd : d < 32) (ha : a < 32) (hb : b < 32) (he : et < 16) (hp : p < 128) (hp' : 16 ∣ p)
    (hfn : fn < 16) (hmj : mj < 64) : fld (encV mj d a b et p fn) 26 6 = mj := by simp only [encV, fld]; omega
@[simp] theorem fld_encV_d (ha : a < 32) (hb : b < 32) (he : et < 16) (hp : p < 128) (hp' : 16 ∣ p) (hfn : fn < 16)
    (hd : d < 32) : fld (encV mj d a b et p fn) 21 5 = d := by simp only [encV, fld]; omega
@[simp] theorem fld_encV_a (hb : b < 32) (he : et < 16) (hp : p < 128) (hp' : 16 ∣ p) (hfn : fn < 16) (ha : a < 32) :
    fld (encV mj d a b et p fn) 16 5 = a := by simp only [encV, fld]; omega
@[simp] theorem fld_encV_b (he : et < 16) (hp : p < 128) (hp' : 16 ∣ p) (hfn : fn < 16) (hb : b < 32) :
    fld (encV mj d a b et p fn) 11 5 = b := by simp only [encV, fld]; omega
@[simp] theorem fld_encV_et (hp : p < 128) (hp' : 16 ∣ p) (hfn : fn < 16) (he : et < 16) :
    fld (encV mj d a b et p fn) 7 4 = et := by simp only [encV, fld]; omega
@[simp] theorem fld_encV_pred (hp' : 16 ∣ p) (hfn : fn < 16) (hp : p < 128) :
    fld (encV mj d a b et p fn) 4 3 = p / 16 := by simp only [encV, fld]; omega
@[simp] theorem fld_encV_fn (hp' : 16 ∣ p) (hfn : fn < 16) : fld (encV mj d a b et p fn) 0 4 = fn := by
  simp only [encV, fld]; omega

@[simp] theorem predOf_encV {p : Pred} (hfn : fn < 16) : predOf (encV mj d a b et (predBits p) fn) = some p := by
  rw [predOf_eq_some, fld_encV_pred (dvd_predBits p) hfn (predBits_lt p), Nat.div_mul_cancel (dvd_predBits p)]

@[simp] theorem predOf_encV_zero (hfn : fn < 16) : predOf (encV mj d a b et 0 fn) = some none := predOf_encV (p := none) hfn

end

/-! ## The fields of the words that no form makes -/

section
variable {d a b : XReg} {n k v : Nat}

theorem fields_shift {m : Bool} {o : Fin 64} (h : encI 11 d a (b2n m * 2 ^ 8 + k * 2 ^ 6 + o) = v) (hk : k < 4) :
    v < 2 ^ 32 ∧ fld v 26 6 = 0x0b ∧ fld v 21 5 = d ∧ fld v 16 5 = a ∧ fld v 9 7 = 0 ∧ fld v 8 1 = b2n m ∧
      fld v 6 2 = k ∧ fld v 0 6 = o := by
  have hm := b2n_lt m
  simp only [← h, encI, fld]
  omega

theorem fields_bits {o : Fin 64} (h : encI 3 d a (k * 2 ^ 14 + n * 2 ^ 6 + o) = v) (hk : k < 4) (hn : n ≤ 64) :
    v < 2 ^ 32 ∧ fld v 26 6 = 0x03 ∧ fld v 21 5 = d ∧ fld v 16 5 = a ∧ fld v 14 2 = k ∧ fld v 13 1 = 0 ∧
      fld v 6 7 = n ∧ fld v 0 6 = o := by
  simp only [← h, encI, fld]
  omega

theorem fields_jal {i : BitVec 21} (h : 0x27 * 2 ^ 26 + d.val * 2 ^ 21 + i.toNat = v) :
    v < 2 ^ 32 ∧ fld v 26 6 = 0x27 ∧ fld v 21 5 = d ∧ fld v 0 21 = i.toNat := by
  simp only [← h, fld]
  omega

theorem fields_bm {m : MReg} {i : BitVec 16} (h : 0x26 * 2 ^ 26 + k * 2 ^ 23 + m.val * 2 ^ 21 + i.toNat = v) (hk : k < 8) :
    v < 2 ^ 32 ∧ fld v 26 6 = 0x26 ∧ fld v 23 3 = k ∧ fld v 21 2 = m ∧ fld v 16 5 = 0 ∧ fld v 0 16 = i.toNat := by
  simp only [← h, fld]
  omega

theorem fields_send {d : VReg} {c : ClsSel}
    (h : 0x32 * 2 ^ 26 + d.val * 2 ^ 21 + a.val * 2 ^ 16 + b.val * 2 ^ 11 + clsBits c + k = v) (hk : k < 256) :
    v < 2 ^ 32 ∧ fld v 26 6 = 0x32 ∧ fld v 25 1 = 0 ∧ fld v 21 4 = d ∧ fld v 16 5 = a ∧ fld v 11 5 = b ∧
      clsOf v = some c ∧ fld v 0 8 = k := by
  rw [clsOf_eq_some]
  cases c <;> simp only [← h, clsBits, fld] <;> omega

theorem fields_sendRel {d : VReg} {c : ClsSel} {s : Scope}
    (h : 0x32 * 2 ^ 26 + d.val * 2 ^ 21 + a.val * 2 ^ 16 + b.val * 2 ^ 11 + clsBits c + k + s.code = v) (hk : k < 16) :
    v < 2 ^ 32 ∧ fld v 26 6 = 0x32 ∧ fld v 25 1 = 0 ∧ fld v 21 4 = d ∧ fld v 16 5 = a ∧ fld v 11 5 = b ∧
      clsOf v = some c ∧ fld v 0 8 = k + s.code := by
  have hs := Scope.code_lt s
  exact fields_send ((Nat.add_assoc _ _ _).symm.trans h) (by omega)

theorem fields_recv {d : Fin 8} (h : 0x32 * 2 ^ 26 + d.val * 2 ^ 22 + k = v) (hk : k < 256) :
    v < 2 ^ 32 ∧ fld v 26 6 = 0x32 ∧ fld v 25 1 = 0 ∧ fld v 22 3 = d ∧ fld v 21 1 = 0 ∧ fld v 8 13 = 0 ∧
      fld v 0 8 = k := by
  simp only [← h, fld]
  omega

end

end Sys2Proof
end

section
/-!
CERTIFICATES. Words of swarm instructions (R281 to R283, R301 to R307): a word decodes exactly if it is an instruction's word.
Each decoder is read row by row: what a row answers has the word read for its word, since the fields it keeps and the fields
it checks are all of them. Each encoder is read row by row: the decoder finds each field where the form puts it.
-/

namespace Sys2Proof

open Safety

/-! ## What a decoder answers -/

/-- Whatever a decoder answers is well formed, and its word is the word read. -/
def Sound (w : Nat) (o : Option Instr) : Prop := ∀ i, o = some i → swarmWord i = some w ∧ i.wellFormed = true

section
variable {w n : Nat} {i : Instr}

theorem sound_none : Sound w none := fun _ h => nomatch h

theorem sound_some (hi : swarmWord i = some n) (hf : i.wellFormed = true) (hn : n = w) : Sound w (some i) := by
  rintro _ ⟨⟩
  exact ⟨hn ▸ hi, hf⟩

theorem sound_accept (hi : swarmWord i = some n) (hn : n = w) : Sound w (accept i) := by
  intro j hj
  obtain ⟨rfl, hf⟩ := accept_eq_some.1 hj
  exact ⟨hn ▸ hi, hf⟩

theorem sound_bind {α : Type} {o : Option α} {f : α → Option Instr} (h : ∀ a, o = some a → Sound w (f a)) :
    Sound w (o >>= f) := by
  intro i hi
  obtain ⟨a, ha, hf⟩ := Option.bind_eq_some_iff.1 hi
  exact h a ha i hf

end

section
variable {w : Nat}

theorem decodeOp_sound (hw : w < 2 ^ 32) (hm : fld w 26 6 = 0x01) : Sound w (decodeOp w) := by
  have hR := encR_fields hw
  have hp := mod_parts w
  simp only [decodeOp]
  repeat' split
  any_goals exact sound_none
  all_goals
    refine sound_some rfl rfl ?_
    simp_all [Fin.ext_iff, bit_eq_true_iff, Nat.mod_eq_of_lt]

theorem decodeOpf_sound (hw : w < 2 ^ 32) (hm : fld w 26 6 = 0x02) : Sound w (decodeOpf w) := by
  have hR := encR_fields hw
  simp only [decodeOpf]
  refine sound_bind fun f hf => ?_
  repeat' split
  any_goals exact sound_none
  any_goals refine sound_bind fun s hs => ?_
  all_goals
    refine sound_accept rfl ?_
    simp_all [Fin.ext_iff]

theorem decodeBits_sound (hw : w < 2 ^ 32) (hm : fld w 26 6 = 0x03) : Sound w (decodeBits w) := by
  have hI (j : Nat) (hj : j = fld w 0 16) : encI 3 (xf w 21) (xf w 16) j = w := by
    simpa [hm, hj] using encI_fields hw
  have h0 := fld_add w 0 6 10
  have h6 := fld_add w 6 7 3
  have h13 := fld_add w 13 1 2
  have ho := fld_lt w 0 6
  simp only [decodeBits]
  repeat' split
  any_goals exact sound_none
  all_goals
    refine sound_accept rfl (hI _ ?_)
    simp_all [bit_eq_true_iff]
    omega

theorem decodeShift_sound (hw : w < 2 ^ 32) (hm : fld w 26 6 = 0x0b) : Sound w (decodeShift w) := by
  have hI (j : Nat) (hj : j = fld w 0 16) : encI 11 (xf w 21) (xf w 16) j = w := by
    simpa [hm, hj] using encI_fields hw
  have h0 := fld_add w 0 6 10
  have h6 := fld_add w 6 2 8
  have h8 := fld_add w 8 1 7
  have ho := fld_lt w 0 6
  have hk := fld_lt w 6 2
  simp only [decodeShift]
  repeat' split
  any_goals exact sound_none
  all_goals
    refine sound_accept rfl (hI _ ?_)
    simp_all
    omega

theorem decodeOrd_sound (hw : w < 2 ^ 32) (hm : fld w 26 6 = 0x1d) : Sound w (decodeOrd w) := by
  have hR := encR_fields hw
  simp only [decodeOrd]
  refine sound_bind fun s hs => ?_
  repeat' split
  any_goals exact sound_none
  all_goals
    refine sound_some rfl rfl ?_
    simp_all [Fin.ext_iff]

theorem decodeAmo_sound (hw : w < 2 ^ 32) (hm : fld w 26 6 = 0x1e) : Sound w (decodeAmo w) := by
  have hR := encR_fields hw
  have hp := mod_parts w
  simp only [decodeAmo]
  repeat' split
  any_goals exact sound_none
  all_goals
    refine sound_some rfl rfl ?_
    simp_all [Fin.ext_iff, bit_eq_false_iff, reg_parts _ 11, Nat.mod_eq_of_lt]

theorem decodeFe_sound (hw : w < 2 ^ 32) (hm : fld w 26 6 = 0x1f) : Sound w (decodeFe w) := by
  have hR := encR_fields hw
  simp only [decodeFe]
  repeat' split
  any_goals exact sound_none
  all_goals
    refine sound_some rfl rfl ?_
    simp_all [Fin.ext_iff]

theorem decodeBm_sound (hw : w < 2 ^ 32) (hm : fld w 26 6 = 0x26) : Sound w (decodeBm w) := by
  have hI := encI_fields hw
  have h21 := fld_add w 21 2 3
  simp only [decodeBm]
  repeat' split
  any_goals exact sound_none
  all_goals
    refine sound_some rfl rfl (Eq.trans ?_ hI)
    simp_all [encI]
  all_goals omega

theorem decodeVop_sound (hw : w < 2 ^ 32) (hm : fld w 26 6 = 0x2a) : Sound w (decodeVop w) := by
  have hV := encV_fields hw
  have hfn := fld_lt w 0 4
  simp only [decodeVop]
  refine sound_bind fun t ht => ?_
  refine sound_bind fun p hp => ?_
  repeat' split
  any_goals exact sound_none
  all_goals
    refine sound_accept rfl ?_
    simp_all [Fin.ext_iff, v3_eq_true, reg_parts _ 21, reg_parts _ 16, reg_parts _ 11, Nat.mod_eq_of_lt]
  rwa [show fld w 0 4 = 15 by omega] at hV

theorem decodeVcmp_sound (hw : w < 2 ^ 32) (hm : fld w 26 6 = 0x2b) : Sound w (decodeVcmp w) := by
  have hV := encV_fields hw
  simp only [decodeVcmp]
  refine sound_bind fun t ht => ?_
  refine sound_bind fun p hp => ?_
  repeat' split
  any_goals exact sound_none
  any_goals refine sound_accept rfl ?_
  any_goals refine sound_some rfl rfl ?_
  all_goals
    simp_all [bit_eq_false_iff, reg_parts _ 21, reg_parts _ 16, reg_parts _ 11, fld_add_eq_iff w 4 3 4, Nat.mod_eq_of_lt]

theorem decodeVxf_sound (hw : w < 2 ^ 32) (hm : fld w 26 6 = 0x2c) : Sound w (decodeVxf w) := by
  have hV := encV_fields hw
  simp only [decodeVxf]
  refine sound_bind fun t ht => ?_
  refine sound_bind fun p hp => ?_
  repeat' split
  any_goals exact sound_none
  any_goals refine sound_bind fun s hs => ?_
  any_goals refine sound_accept rfl ?_
  any_goals refine sound_some rfl rfl ?_
  all_goals
    simp_all [bit_eq_false_iff, reg_parts _ 21, reg_parts _ 16, reg_parts _ 11, Nat.mod_eq_of_lt]

theorem decodeCell_sound (hw : w < 2 ^ 32) (hm : fld w 26 6 = 0x30) : Sound w (decodeCell w) := by
  have hR := encR_fields hw
  simp only [decodeCell]
  repeat' split
  any_goals exact sound_none
  any_goals refine sound_bind fun s hs => ?_
  all_goals
    refine sound_some rfl rfl ?_
    simp_all [Fin.ext_iff, bit_eq_false_iff, reg_parts _ 11, Nat.mod_eq_of_lt]

theorem decodeXfer_sound (hw : w < 2 ^ 32) (hm : fld w 26 6 = 0x31) : Sound w (decodeXfer w) := by
  have hR := encR_fields hw
  simp only [decodeXfer]
  repeat' split
  any_goals exact sound_none
  all_goals
    refine sound_some rfl rfl ?_
    simp_all [fld_add_eq_iff w 8 3 5]

theorem decodeMsg_sound (hw : w < 2 ^ 32) (hm : fld w 26 6 = 0x32) : Sound w (decodeMsg w) := by
  have hR := encR_fields hw
  have h21 := fld_add w 21 4 1
  have h22 := fld_add w 21 1 3
  have hd := fld_lt w 22 3
  simp only [decodeMsg]
  repeat' split
  any_goals exact sound_none
  any_goals refine sound_bind fun c hc => ?_
  all_goals
    refine sound_some rfl rfl (Eq.trans ?_ hR)
    simp_all [clsOf_eq_some, bit_eq_false_iff, fld_add_eq_iff w 8 3 15, fld_add_eq_iff w 8 3 10, fld_add_eq_iff w 11 5 10,
      fld_add_eq_iff w 11 5 5, fld_add_eq_iff w 16 5 5, encR, Scope.code]
  all_goals omega

theorem decodeSys_sound (hw : w < 2 ^ 32) (hm : fld w 26 6 = 0x33) : Sound w (decodeSys w) := by
  have hR := encR_fields hw
  simp only [decodeSys]
  repeat' split
  any_goals exact sound_none
  all_goals
    refine sound_some rfl rfl (Eq.trans ?_ hR)
    simp_all [Fin.ext_iff, fld_add_eq_iff w 11 5 10, fld_add_eq_iff w 16 5 5, encR]

theorem decodeAvc_sound (hw : w < 2 ^ 32) (hm : fld w 26 6 = 0x38) : Sound w (decodeAvc w) := by
  have hR := encR_fields hw
  simp only [decodeAvc]
  repeat' split
  any_goals exact sound_none
  all_goals
    refine sound_some rfl rfl ?_
    simp_all [Fin.ext_iff]

theorem decodeEng_sound (hw : w < 2 ^ 32) (hm : fld w 26 6 = 0x39) : Sound w (decodeEng w) := by
  have hR := encR_fields hw
  simp only [decodeEng]
  repeat' split
  any_goals exact sound_none
  all_goals
    refine sound_some rfl rfl ?_
    simp_all [Fin.ext_iff]

/-- The major opcode picks the table; the forms without a table are I forms and JAL. -/
theorem decodeSwarm_sound (hw : w < 2 ^ 32) : Sound w (decodeSwarm w) := by
  have hI := encI_fields hw
  have hg := fld_add w 0 12 4
  have hj := fld_add w 0 16 5
  have h12 := fld_lt w 0 12
  have h16 := fld_lt w 0 16
  have h21 := fld_lt w 0 21
  simp only [Nat.reduceAdd, Nat.zero_add, Nat.reducePow] at hg hj h21
  simp only [decodeSwarm]
  split
  case h_1 h => exact decodeOp_sound hw h
  case h_2 h => exact decodeOpf_sound hw h
  case h_3 h => exact decodeBits_sound hw h
  case h_11 h => exact decodeShift_sound hw h
  case h_27 h => exact decodeOrd_sound hw h
  case h_28 h => exact decodeAmo_sound hw h
  case h_29 h => exact decodeFe_sound hw h
  case h_36 h => exact decodeBm_sound hw h
  case h_39 h => exact decodeVop_sound hw h
  case h_40 h => exact decodeVcmp_sound hw h
  case h_41 h => exact decodeVxf_sound hw h
  case h_42 h => exact decodeCell_sound hw h
  case h_43 h => exact decodeXfer_sound hw h
  case h_44 h => exact decodeMsg_sound hw h
  case h_45 h => exact decodeSys_sound hw h
  case h_50 h => exact decodeAvc_sound hw h
  case h_51 h => exact decodeEng_sound hw h
  case h_37 h =>
    refine sound_some rfl rfl (Eq.trans ?_ hI)
    simp_all [encI]
    omega
  all_goals repeat' split
  any_goals exact sound_none
  all_goals
    refine sound_some rfl rfl (Eq.trans ?_ hI)
    simp_all [Fin.ext_iff, fld_add_eq_iff w 12 4 5, fld_add_eq_iff w 16 5 5, bit_eq_true_iff, reg_parts _ 21,
      Nat.mod_eq_of_lt]

end

/-! ## What an encoder makes -/

section
variable {i : Instr} {w : Nat}

theorem decodeSwarm_op (h : fld w 26 6 = 0x01) : decodeSwarm w = decodeOp w := by simp only [decodeSwarm, h]
theorem decodeSwarm_opf (h : fld w 26 6 = 0x02) : decodeSwarm w = decodeOpf w := by simp only [decodeSwarm, h]
theorem decodeSwarm_bits (h : fld w 26 6 = 0x03) : decodeSwarm w = decodeBits w := by simp only [decodeSwarm, h]
theorem decodeSwarm_shift (h : fld w 26 6 = 0x0b) : decodeSwarm w = decodeShift w := by simp only [decodeSwarm, h]
theorem decodeSwarm_ord (h : fld w 26 6 = 0x1d) : decodeSwarm w = decodeOrd w := by simp only [decodeSwarm, h]
theorem decodeSwarm_amo (h : fld w 26 6 = 0x1e) : decodeSwarm w = decodeAmo w := by simp only [decodeSwarm, h]
theorem decodeSwarm_fe (h : fld w 26 6 = 0x1f) : decodeSwarm w = decodeFe w := by simp only [decodeSwarm, h]
theorem decodeSwarm_bm (h : fld w 26 6 = 0x26) : decodeSwarm w = decodeBm w := by simp only [decodeSwarm, h]
theorem decodeSwarm_vop (h : fld w 26 6 = 0x2a) : decodeSwarm w = decodeVop w := by simp only [decodeSwarm, h]
theorem decodeSwarm_vcmp (h : fld w 26 6 = 0x2b) : decodeSwarm w = decodeVcmp w := by simp only [decodeSwarm, h]
theorem decodeSwarm_vxf (h : fld w 26 6 = 0x2c) : decodeSwarm w = decodeVxf w := by simp only [decodeSwarm, h]
theorem decodeSwarm_cell (h : fld w 26 6 = 0x30) : decodeSwarm w = decodeCell w := by simp only [decodeSwarm, h]
theorem decodeSwarm_xfer (h : fld w 26 6 = 0x31) : decodeSwarm w = decodeXfer w := by simp only [decodeSwarm, h]
theorem decodeSwarm_msg (h : fld w 26 6 = 0x32) : decodeSwarm w = decodeMsg w := by simp only [decodeSwarm, h]
theorem decodeSwarm_sys (h : fld w 26 6 = 0x33) : decodeSwarm w = decodeSys w := by simp only [decodeSwarm, h]
theorem decodeSwarm_avc (h : fld w 26 6 = 0x38) : decodeSwarm w = decodeAvc w := by simp only [decodeSwarm, h]
theorem decodeSwarm_eng (h : fld w 26 6 = 0x39) : decodeSwarm w = decodeEng w := by simp only [decodeSwarm, h]

theorem decodeSwarm_encodeInt (h : encodeInt i = some w) : w < 2 ^ 32 ∧ decodeSwarm w = some i := by
  cases i
  all_goals cases h
  all_goals simp [decodeSwarm_op, decodeOp, Fin.ext_iff, bit_eq_iff, mod_parts]

theorem decodeSwarm_encodeFp (hf : i.wellFormed = true) (h : encodeFp i = some w) :
    w < 2 ^ 32 ∧ decodeSwarm w = some i := by
  cases i
  all_goals cases h
  all_goals simp [decodeSwarm_opf, decodeOpf, accept_eq_some, hf, Fin.ext_iff]

theorem decodeSwarm_encodeImm (hf : i.wellFormed = true) (h : encodeImm i = some w) :
    w < 2 ^ 32 ∧ decodeSwarm w = some i := by
  cases i
  case slli | srli | srai | rori =>
    have hv := fields_shift (Option.some.inj h) (by decide)
    simp_all [decodeSwarm_shift, decodeShift, accept_eq_some, Fin.ext_iff, bit_eq_iff]
  case extu | exts | ins =>
    have hv := fields_bits (Option.some.inj h) (by decide) (of_decide_eq_true hf)
    simp_all [decodeSwarm_bits, decodeBits, accept_eq_some, Fin.ext_iff, bit_eq_iff]
  all_goals cases h
  all_goals simp [decodeSwarm, Fin.ext_iff, BitVec.toNat_eq]

theorem decodeSwarm_encodeMem (h : encodeMem i = some w) : w < 2 ^ 32 ∧ decodeSwarm w = some i := by
  cases i
  all_goals cases h
  all_goals
    simp [decodeSwarm, Fin.ext_iff, BitVec.toNat_eq, bit_eq_iff, reg_parts _ 21, Nat.mod_eq_of_lt, Nat.div_eq_of_lt]

theorem decodeSwarm_encodeOrd (h : encodeOrd i = some w) : w < 2 ^ 32 ∧ decodeSwarm w = some i := by
  cases i
  all_goals cases h
  case lda d a s m | ldaF d a s m | stl d a s m => cases m <;> simp [decodeSwarm_ord, decodeOrd, Fin.ext_iff]
  case ldfe | ldff | stef | stff => simp [decodeSwarm_fe, decodeFe, Fin.ext_iff]
  case fence | fenceRel | fenceAcq => simp [decodeSwarm_ord, decodeOrd, Fin.ext_iff]
  all_goals
    simp [decodeSwarm_amo, decodeAmo, Fin.ext_iff, bit_eq_iff, mod_parts, reg_parts _ 11, Nat.mod_eq_of_lt,
      Nat.div_eq_of_lt]

theorem decodeSwarm_encodeCtl (h : encodeCtl i = some w) : w < 2 ^ 32 ∧ decodeSwarm w = some i := by
  cases i
  case jal =>
    have hv := fields_jal (Option.some.inj h)
    simp_all [decodeSwarm, Fin.ext_iff]
  case bmany | bmnone | bmall =>
    have hv := fields_bm (Option.some.inj h) (by decide)
    simp_all [decodeSwarm_bm, decodeBm, Fin.ext_iff, BitVec.toNat_eq]
  all_goals cases h
  all_goals simp [decodeSwarm, Fin.ext_iff, BitVec.toNat_eq]

theorem decodeSwarm_encodeVec (hf : i.wellFormed = true) (h : encodeVec i = some w) :
    w < 2 ^ 32 ∧ decodeSwarm w = some i := by
  cases i
  all_goals cases h
  all_goals
    simp [decodeSwarm_vop, decodeVop, accept_eq_some, hf, v3, bit_eq_iff, Fin.ext_iff, reg_parts _ 21, reg_parts _ 16,
      reg_parts _ 11, Nat.mod_eq_of_lt, Nat.div_eq_of_lt]

theorem decodeSwarm_encodeMsk (hf : i.wellFormed = true) (h : encodeMsk i = some w) :
    w < 2 ^ 32 ∧ decodeSwarm w = some i := by
  cases i
  all_goals cases h
  all_goals
    simp [decodeSwarm_vcmp, decodeSwarm_vxf, decodeVcmp, decodeVxf, accept_eq_some, hf, Fin.ext_iff, bit_eq_iff,
      reg_parts _ 21, reg_parts _ 16, reg_parts _ 11, fld_add_eq_iff _ 4 3 4, Nat.mod_eq_of_lt, Nat.div_eq_of_lt]

theorem decodeSwarm_encodeCell (h : encodeCell i = some w) : w < 2 ^ 32 ∧ decodeSwarm w = some i := by
  cases i
  all_goals cases h
  all_goals
    simp [decodeSwarm_cell, decodeCell, Fin.ext_iff, bit_eq_iff, reg_parts _ 11, Nat.mod_eq_of_lt, Nat.div_eq_of_lt]

theorem decodeSwarm_encodeMsg (h : encodeMsg i = some w) : w < 2 ^ 32 ∧ decodeSwarm w = some i := by
  cases i
  case recv | recvAcq | tryrecv | tryrecvAcq =>
    have hv := fields_recv (Option.some.inj h) (by decide)
    simp_all [decodeSwarm_msg, decodeMsg, bit_eq_iff]
  case send | activate | spawn =>
    have hv := fields_send (Option.some.inj h) (by decide)
    simp_all [decodeSwarm_msg, decodeMsg, bit_eq_iff, Fin.ext_iff]
  case sendRel d a b c s | activateRel d a b c s | spawnRel d a b c s =>
    have hv := fields_sendRel (Option.some.inj h) (by decide)
    cases s <;> simp_all [decodeSwarm_msg, decodeMsg, bit_eq_iff, Fin.ext_iff, Scope.code]
  all_goals cases h
  case xfer | xgather | xscatter | xrestart | xdiscard =>
    simp [decodeSwarm_xfer, decodeXfer, fld_add_eq_iff _ 8 3 5, Fin.ext_iff]
  case waitmsg | msgmaskSet | msgmaskClr | mret | exit => exact ⟨by decide, rfl⟩

theorem decodeSwarm_encodeSys (h : encodeSys i = some w) : w < 2 ^ 32 ∧ decodeSwarm w = some i := by
  cases i
  all_goals cases h
  case tret | brk | sret => exact ⟨by decide, rfl⟩
  case faultwait | kill | tlbinv | grpw | keyld => simp [decodeSwarm_sys, decodeSys, Fin.ext_iff]
  case avload | avstart | avstop | avpost | avstat => simp [decodeSwarm_avc, decodeAvc, Fin.ext_iff]
  case coll | viewget | mtrap | admitS => simp [decodeSwarm_eng, decodeEng, Fin.ext_iff]
  all_goals
    simp [decodeSwarm, Fin.ext_iff, BitVec.toNat_eq, fld_add_eq_iff _ 16 5 5, fld_add_eq_iff _ 12 4 5, fld_low _ 0 12 4,
      fld_high _ 0 12 4, Nat.mod_eq_of_lt, Nat.div_eq_of_lt]

/-- The word of a well-formed swarm instruction decodes to it, whichever table holds its row. -/
theorem decodeSwarm_swarmWord (hf : i.wellFormed = true) (h : swarmWord i = some w) :
    w < 2 ^ 32 ∧ decodeSwarm w = some i := by
  simp only [swarmWord, Option.orElse_eq_some] at h
  rcases h with
    h | ⟨-, h | ⟨-, h | ⟨-, h | ⟨-, h | ⟨-, h | ⟨-, h | ⟨-, h | ⟨-, h | ⟨-, h | ⟨-, h⟩⟩⟩⟩⟩⟩⟩⟩⟩⟩
  · exact decodeSwarm_encodeInt h
  · exact decodeSwarm_encodeFp hf h
  · exact decodeSwarm_encodeImm hf h
  · exact decodeSwarm_encodeMem h
  · exact decodeSwarm_encodeOrd h
  · exact decodeSwarm_encodeCtl h
  · exact decodeSwarm_encodeVec hf h
  · exact decodeSwarm_encodeMsk hf h
  · exact decodeSwarm_encodeCell h
  · exact decodeSwarm_encodeMsg h
  · exact decodeSwarm_encodeSys h

end

end Sys2Proof

namespace Sys2Proof.Safety

/-- Settles O56: the encoders table by table one way, the decoders table by table the other. -/
theorem swarmWordsAreExact : Obligations.SwarmWordsAreExact := by
  unfold Obligations.SwarmWordsAreExact
  exact fun i _ => ⟨decodeSwarm_swarmWord, fun hw => decodeSwarm_sound hw i⟩

end Sys2Proof.Safety
end

section
/-!
CERTIFICATES. Words of anvil slots (R287, R288, R308, R396 to R431): the word of a well-formed slot decodes to it. Each encoder is
read row by row: UNIT and FN pick the row of the decoder, and each operand is the field of the operand bits that the row reads.
-/

namespace Sys2Proof

open Safety

/-- A bit as a number is below 2: the form in which omega sees the bound. -/
theorem b2n_eq_ofBool (m : Bool) : b2n m = (BitVec.ofBool m).toNat := by cases m <;> rfl

/-- A word reads as a slot's operation, with any STOP bit and gate. -/
def ReadsAs (i : Instr) (w : Nat) : Prop := ∀ (stop : Bool) (gate : Fin 8),
  decodeSlot (w + b2n stop * 2 ^ 31 + gate.val * 2 ^ 24) = some { stop := stop, unit := w / 2 ^ 27, gate := gate.val, op := i }

/-- STOP and GATE stand beside UNIT, FN and the operand bits: what these three read as decides the operation. -/
theorem readsAs_encU {i : Instr} {u f ops : Nat} (hu : u < 16) (hf : f < 32) (ho : ops < 2 ^ 19)
    (h : ∀ w, fld w 27 4 = u → fld w 19 5 = f → fld w 0 19 = ops → decodeSlotOp w = some i) :
    ReadsAs i (encU u f ops) := by
  intro stop gate
  have hs := b2n_lt stop
  have hfields : ∀ w, w = encU u f ops + b2n stop * 2 ^ 31 + gate.val * 2 ^ 24 → fld w 31 1 = b2n stop ∧ fld w 27 4 = u ∧
      fld w 24 3 = gate ∧ fld w 19 5 = f ∧ fld w 0 19 = ops ∧ encU u f ops / 2 ^ 27 = u := by
    rintro w rfl
    simp only [encU, fld]
    omega
  obtain ⟨hstop, hunit, hgate, hfn, hops, hw⟩ := hfields _ rfl
  rw [decodeSlot, h _ hunit hfn hops, bit_eq_iff.2 hstop, hunit, hgate, hw]
  rfl

section
variable {i : Instr} {w : Nat}

theorem encodeSeq_readsAs (hf : i.wellFormed = true) (h : encodeSeq i = some w) : ReadsAs i w := by
  cases i
  all_goals cases h
  case' waitq d mask => cases d <;> dsimp only
  case' popq h q f => cases q <;> cases f <;> dsimp only
  case' trgset t arm => rcases arm with _ | ⟨q, n, f⟩ <;> dsimp only
  case' sadd d a b | ssub d a b | sand d a b => rcases b with b | b <;> simp only [seqB]
  case nop =>
    refine readsAs_encU (u := 0) (f := 0) (ops := 0) (by decide) (by decide) (by decide) fun w hunit hfn hops => ?_
    simp_all [decodeSlotOp, decodeSeq]
  all_goals refine readsAs_encU (by decide) (by decide) (by omega) fun w hunit hfn hops => ?_
  all_goals
    simp only [decodeSlotOp, hunit, decodeSeq, hfn]
    repeat' split
  all_goals simp_all [accept_eq_some, Fin.ext_iff, BitVec.toNat_eq, bit_eq_iff]
  all_goals
    simp only [fld, pow_zero, Nat.div_one] at *
    omega

theorem encodeUnit_readsAs (h : encodeUnit i = some w) : ReadsAs i w := by
  cases i
  all_goals cases h
  case' mma o | mmah o _ _ => obtain ⟨acc, a, b, zs, kt, ba, bb, int, te⟩ := o
  all_goals
    refine readsAs_encU (by decide) (by decide) ?_ fun w hunit hfn hops => ?_
    · simp -failIfUnchanged only [b2n_eq_ofBool, encMma]
      omega
  all_goals
    simp only [decodeSlotOp, hunit, decodeLdt, decodeMma, decodeVga, hfn]
    repeat' split
  all_goals simp_all [mmaOps, encMma, Fin.ext_iff, bit_eq_iff]
  all_goals
    simp only [fld, b2n_eq_ofBool, pow_zero, Nat.div_one] at *
    omega

theorem encodeRow_readsAs (hf : i.wellFormed = true) (h : encodeRow i = some w) : ReadsAs i w := by
  cases i
  all_goals cases h
  all_goals
    refine readsAs_encU (by decide) (by decide) ?_ fun w hunit hfn hops => ?_
    · simp -failIfUnchanged only [b2n_eq_ofBool]
      omega
  all_goals
    simp only [decodeSlotOp, hunit, decodeVec, hfn]
    repeat' split
  all_goals simp_all [accept_eq_some, Fin.ext_iff, bit_eq_iff]
  all_goals
    simp only [fld, b2n_eq_ofBool, pow_zero, Nat.div_one] at *
    omega

theorem encodeOut_readsAs (hf : i.wellFormed = true) (h : encodeOut i = some w) : ReadsAs i w := by
  cases i
  all_goals cases h
  case' post h s => cases s <;> dsimp only
  all_goals
    refine readsAs_encU (by decide) (by decide) ?_ fun w hunit hfn hops => ?_
    · simp -failIfUnchanged only [b2n_eq_ofBool]
      omega
  all_goals
    simp only [decodeSlotOp, hunit, decodeRed, decodeStc, decodeMov, hfn]
    repeat' split
  all_goals simp_all [accept_eq_some, Fin.ext_iff, bit_eq_iff]
  all_goals
    simp only [fld, b2n_eq_ofBool, pow_zero, Nat.div_one] at *
    omega

/-- The word of a well-formed slot reads as it, whichever table holds its row. -/
theorem slotWord_readsAs (hf : i.wellFormed = true) (h : slotWord i = some w) : ReadsAs i w := by
  simp only [slotWord, Option.orElse_eq_some] at h
  rcases h with h | ⟨-, h | ⟨-, h | ⟨-, h⟩⟩⟩
  · exact encodeSeq_readsAs hf h
  · exact encodeUnit_readsAs h
  · exact encodeRow_readsAs hf h
  · exact encodeOut_readsAs hf h

end

end Sys2Proof

namespace Sys2Proof.Safety

/-- Settles O57: STOP and GATE stand apart from the operation, whose word reads as it, table by table. -/
theorem slotWordsDecode : Obligations.SlotWordsDecode := by
  unfold Obligations.SlotWordsDecode
  exact fun _ _ stop gate hf h => slotWord_readsAs hf h stop gate

end Sys2Proof.Safety
end

section
/-!
CERTIFICATES. GSR and SSR on every state register (R286, R169, R181, R231, R275).
-/

namespace Sys2Proof.Machine

/-! ## Values -/

theorem wd_toNat (v : Word) : wd v.toNat = v := by simp [wd]

theorem foldl_range_four (f : Nat → Nat) (w : Nat) :
    (List.range 4).foldl (fun w i => w + f i) w = w + f 0 + f 1 + f 2 + f 3 := rfl

/-- CTXGRP, slot by slot (R121). -/
theorem groupBits_eq (c : Ctx) : groupBits c =
    c.grp[0].toNat + c.grp[1].toNat * 2 ^ 8 + c.grp[2].toNat * 2 ^ 16 + c.grp[3].toNat * 2 ^ 24 + c.grpValid.toNat * 2 ^ 32 := by
  rw [groupBits, foldl_range_four fun i => (c.grp[i]!).toNat * 2 ^ (8 * i)]
  simp
  omega

/-- FCSR as stored: RM 5 to 7 leave the low five bits and bit 8 (R275). -/
theorem fcsrOf_eq (v : Word) :
    fcsrOf v = BitVec.ofNat 9 (if 4 < fld v.toNat 5 3 then v.toNat - fld v.toNat 5 3 * 32 else v.toNat) := by
  have hmask : ∀ i < 9, (0x11F : BitVec 9).getLsbD i = decide (i < 5 ∨ i = 8) := by decide
  have hparts : v.toNat - fld v.toNat 5 3 * 32 = 2 ^ 8 * (v.toNat / 2 ^ 8) + v.toNat % 2 ^ 5 := by
    simp only [fld]
    omega
  have hlow : v.toNat % 2 ^ 5 < 2 ^ 8 := by omega
  unfold fcsrOf
  split
  · ext i hi
    rw [hparts, BitVec.getElem_and, BitVec.getElem_setWidth, ← BitVec.getLsbD_eq_getElem, hmask i hi,
      ← BitVec.getLsbD_eq_getElem, BitVec.getLsbD_ofNat, Nat.testBit_two_pow_mul_add _ hlow,
      Nat.testBit_mod_two_pow, Nat.testBit_div_two_pow, BitVec.getLsbD]
    by_cases h8 : i = 8
    · simp [h8]
    · simp [h8, hi, show i < 8 by omega, Bool.and_comm]
  · simp

/-! ## What GSR and SSR run -/

/-- EMTR counts on by some amount; nothing else of the context in hand and no byte of memory changes. -/
theorem cur_meterCtx (s : State) :
    ∃ e, cur (meterCtx s s.cx) = { cur s with meter := ((cur s).meter + e) % 2 ^ 64 } ∧ (meterCtx s s.cx).mem = s.mem := by
  refine ⟨Config.energy (draw s).1 + Config.energy (draw (draw s).2).1, ?_, rfl⟩
  rw [← Nat.add_assoc]
  exact ctxOf_modCtx _ _ _

variable {s : State} {d a : XReg} {n : BitVec 12} {acc : SAcc}

theorem execGsr_of_acc (h : stateAcc n.toNat = some acc) (hn : n ≠ 0x021) :
    execGsr d n s = .next (wbX s d (stateVal s (cur s) n.toNat)) := by
  simp only [execGsr, h, if_neg hn]

theorem execGsr_emtr (s : State) (d : XReg) :
    execGsr d 0x021 s = .next (wbX (meterCtx s s.cx) d (wd (cur (meterCtx s s.cx)).meter)) := rfl

theorem execGsr_none (h : stateAcc n.toNat = none) : execGsr d n s = .next (takeTrap s (illegal (.gsr d n))) := by
  simp only [execGsr, h]

/-- A register that may be written takes the value, and a time stamp below the limit starts no rebase (R252). -/
theorem execSsr_of_acc (h : stateAcc n.toNat = some acc) (hro : acc ≠ .ro) (hp : acc = .srw → (cur s).priv = .s)
    (hts : 8 ≤ n.toNat ∧ n.toNat ≤ 10 → (rx s a).toNat % 2 ^ 24 < 0xE00000) :
    execSsr a n s = .next (modCur s fun c => (c.setState n.toNat ((cur s).getX a)).goto (c.pc + 4)) := by
  have hcheck : ∀ t, (if 8 ≤ n.toNat ∧ n.toNat ≤ 10 then tsCheck t ((rx s a).toNat % 2 ^ 24) else t) = t := by
    intro t
    split
    · rw [tsCheck, if_pos (hts ‹_›)]
    · rfl
  simp only [execSsr, h, hcheck]
  cases acc with
  | rw => rfl
  | ro => exact absurd rfl hro
  | srw => exact if_pos (hp rfl)

theorem execSsr_illegal (h : stateAcc n.toNat = none ∨ stateAcc n.toNat = some .ro) :
    execSsr a n s = .next (takeTrap s (illegal (.ssr a n))) := by
  rcases h with h | h <;> simp only [execSsr, h]

end Sys2Proof.Machine

namespace Sys2Proof.Safety

open Sys2Proof.Machine

variable {s : State} {d a : XReg} {n : BitVec 12} {acc : SAcc}

theorem gsr_puts {v : Word} (hv : stateVal s (cur s) n.toNat = v := by rfl) (h : (stateAcc n.toNat).isSome = true := by rfl)
    (hn : n ≠ 0x021 := by decide) : Puts (.gsr d n) s d v := by
  obtain ⟨acc, h⟩ := Option.isSome_iff_exists.1 h
  exact ⟨_, execGsr_of_acc h hn, hv ▸ wbX_result s d _⟩

/-- A register that holds a word reads as that word. -/
theorem gsr_puts_word {v : Word} (hv : stateVal s (cur s) n.toNat = v := by rfl)
    (h : (stateAcc n.toNat).isSome = true := by rfl) (hn : n ≠ 0x021 := by decide) : Puts (.gsr d n) s d (wd v.toNat) :=
  gsr_puts (hv.trans (wd_toNat v).symm) h hn

/-- GSR of EMTR (R35). -/
theorem gsr_emtr (s : State) (d : XReg) : Does (.gsr d 0x21) s fun t =>
    ∃ e, (cur t).meter = ((cur s).meter + e) % 2 ^ 64 ∧ XBut s t d (wd (cur t).meter) ∧
      (cur t).pc = nextPc s ∧ VSame s t ∧ MSame s t ∧ FlagsSame s t ∧ SameMem s t := by
  obtain ⟨e, hc, hm⟩ := cur_meterCtx s
  have hw := wbX_result (meterCtx s s.cx) d (wd (cur (meterCtx s s.cx)).meter)
  have hmeter : (cur (wbX (meterCtx s s.cx) d (wd (cur (meterCtx s s.cx)).meter))).meter = (cur (meterCtx s s.cx)).meter := by
    have hrest := congrArg Ctx.meter hw.done.rest_eq
    exact hrest
  refine ⟨_, execGsr_emtr s d, e, ?_, ?_, ?_, ?_, ?_, ?_, ?_⟩
  · rw [hmeter, hc]
  · rw [hmeter]
    intro r
    rw [hw.xs r, rx, hc]
    rfl
  · rw [hw.done.pc_eq, nextPc, hc]
    rfl
  · intro r
    rw [hw.vs r, rv, hc]
    rfl
  · intro r
    rw [hw.ms r, rm, hc]
    rfl
  · rw [FlagsSame, hw.flags, hc]
  · intro b
    rw [hw.done.only.2.1 b, hm]

theorem ssr_sets {f : Ctx → Ctx} (h : stateAcc n.toNat = some acc) (hro : acc ≠ .ro) (hp : acc = .srw → (cur s).priv = .s)
    (hts : 8 ≤ n.toNat ∧ n.toNat ≤ 10 → (rx s a).toNat % 2 ^ 24 < 0xE00000)
    (hf : (cur s).setState n.toNat (rx s a) = f (cur s)) : Sets (.ssr a n) s fun c => (f c).goto (c.pc + 4) :=
  (execSsr_of_acc h hro hp hts).trans (congrArg _ (modCur_congr _ _ _ (congrArg (Ctx.goto · _) hf)))

/-- SSR of a register that U may write. -/
theorem ssr_sets_rw {f : Ctx → Ctx} (hf : (cur s).setState n.toNat (rx s a) = f (cur s) := by rfl)
    (h : stateAcc n.toNat = some .rw := by rfl) (hn : ¬(8 ≤ n.toNat ∧ n.toNat ≤ 10) := by decide) :
    Sets (.ssr a n) s fun c => (f c).goto (c.pc + 4) :=
  ssr_sets h nofun nofun (absurd · hn) hf

/-- SSR at S of a register that U may not write: a time register, or another. -/
theorem ssr_sets_srw {f : Ctx → Ctx} (hp : (cur s).priv = .s)
    (hts : ¬(8 ≤ n.toNat ∧ n.toNat ≤ 10) ∨ (rx s a).toNat % 2 ^ 24 < 0xE00000)
    (hf : (cur s).setState n.toNat (rx s a) = f (cur s) := by rfl) (h : stateAcc n.toNat = some .srw := by rfl) :
    Sets (.ssr a n) s fun c => (f c).goto (c.pc + 4) :=
  ssr_sets h nofun (fun _ => hp) (fun hn => hts.resolve_left (not_not_intro hn)) hf

theorem gsr_illegal (hn : stateAcc n.toNat = none) (hc : CanTrap s) :
    Does (.gsr d n) s fun t => Trapped s t 0x01 (encodeWord (.gsr d n)) :=
  ⟨_, execGsr_none hn, takeTrap_trapped s _ hc rfl (show 1 < 256 by decide)⟩

theorem ssr_illegal (hn : stateAcc n.toNat = none ∨ stateAcc n.toNat = some .ro) (hc : CanTrap s) :
    Does (.ssr a n) s fun t => Trapped s t 0x01 (encodeWord (.ssr a n)) :=
  ⟨_, execSsr_illegal hn, takeTrap_trapped s _ hc rfl (show 1 < 256 by decide)⟩

/-- Settles O24, register by register: what each reads as, and what each makes of the value written. -/
theorem stateRegisters : Obligations.StateRegisters := by
  unfold Obligations.StateRegisters
  refine ⟨fun s d n => ?_, fun s a n => ?_⟩
  · exact
      ⟨gsr_puts (BitVec.ofNat_toNat _ _).symm, gsr_puts, gsr_puts (congrArg wd (groupBits_eq _)), gsr_puts, gsr_puts,
        gsr_puts_word, gsr_puts_word, gsr_puts (BitVec.ofNat_toNat _ _).symm, gsr_puts, gsr_puts, gsr_puts, gsr_puts,
        gsr_puts_word, gsr_puts, gsr_puts_word, gsr_puts_word, gsr_puts_word, gsr_puts_word, gsr_puts_word, gsr_puts_word,
        gsr_puts_word, gsr_puts_word, gsr_puts_word, gsr_puts_word, gsr_puts_word, gsr_puts, gsr_puts, gsr_puts_word,
        gsr_puts_word, gsr_emtr s d, gsr_illegal⟩
  · exact
      ⟨ssr_sets_rw (congrArg (fun f => { cur s with fcsr := f }) (fcsrOf_eq _)), ssr_sets_rw, ssr_sets_rw, ssr_sets_rw,
        ssr_sets_rw, ssr_sets_rw, ssr_sets_rw, ssr_sets_rw, ssr_sets_rw, ssr_sets_rw, ssr_sets_rw, ssr_sets_rw, ssr_sets_rw,
        ssr_sets_rw, ssr_sets_rw, ssr_sets_rw,
        fun hp => ⟨ssr_sets_srw hp (.inl (by decide)), ssr_sets_srw hp (.inl (by decide))⟩,
        fun hp hts => ⟨ssr_sets_srw hp (.inr hts), ssr_sets_srw hp (.inr hts), ssr_sets_srw hp (.inr hts)⟩, ssr_illegal⟩

end Sys2Proof.Safety
end
